-- ==== Sys2Proof/Word.lean ====
section
/-! DEFINITION. The words and the numbers of the TK4610: bytes, halfwords, words (R179), the names of ports and chains,
tile numbers 0 to 23, positions 0 to 11, job slots 0 to 7 and tags 0 to 15 (00_scope.md, Terms). -/

namespace Sys2Proof

abbrev Byte := BitVec 8
abbrev Half := BitVec 16
abbrev Word := BitVec 32

/-- Tile number 0 to 23. -/
abbrev TileNum := Fin 24
/-- A tile's place on its chain, 0 nearest the part. -/
abbrev Position := Fin 12
abbrev SlotNum := Fin 8
abbrev Tag := Fin 16
/-- A set of tile numbers: bit n stands for tile n (R179). -/
abbrev TileSet := BitVec 24

inductive PortId where
  | A | B
  deriving DecidableEq, Repr

/-- The two descriptor lists, and with them their walkers. -/
inductive Chain where
  | normal | priority
  deriving DecidableEq, Repr

/-- Trigger inputs TRIG0 and TRIG1, and sync outputs SYNC0 and SYNC1. -/
inductive Line where
  | zero | one
  deriving DecidableEq, Repr

end Sys2Proof
end

