-- ==== Sys2Proof/Config.lean ====
section
/-! DEFINITION. The free values: what the manual leaves open, as constants without a body. -/

namespace Sys2Proof

/-- Which of several jobs whose steps are over at one event goes on first (R37, R163 give no order): applied to the
counter `State.choices`; the job taken is the one at this number modulo how many there are. DESIGN CHOICE, safe: nothing
is known of it (log 10). -/
opaque Config.completionOrder : Nat → Nat

/-- The band end row "height − 1" that R123 asks for when READ STATE reports mode FULL from a tile whose reported height
is 0. The manual states no such row. DESIGN CHOICE, safe: nothing is known of it (log 11). -/
opaque Config.rowBelowZero : Half

/-- The value a tile answers when a pixel is read in the other format than it was written in (R4 gives the tile's frame
memory no format): applied to the value held. DESIGN CHOICE, safe: nothing is known of it (log 27). -/
opaque Config.otherFormat : Word → Word

/-- What a tile returns in the unused high halfword of an odd RGB16 reply and in the top byte of each RGB24 word (R106 leaves
both to the tile): applied to the word's index in the reply. DESIGN CHOICE, safe: nothing is known of it (log 27). -/
opaque Config.unusedBits : Nat → Word

/-- What a tile puts in the spare bits 8 to 15 of its status word (12.5; R180 says what the part makes of spare fields, not
what a tile sends in them): applied to the rest of the word. DESIGN CHOICE, safe: nothing is known of it (log 27). -/
opaque Config.statusSpare : Word → Word

/-- What a tile puts in the spare high halfwords of its six identity words (12.5, R180): applied to the word's index. DESIGN
CHOICE, safe: nothing is known of it (log 27). -/
opaque Config.identitySpare : Nat → Word

/-- The tag of a NOTICE, which carries none that the part reads (R141). DESIGN CHOICE, safe: nothing is known of it (log 27).
-/
opaque Config.noticeTag : BitVec 4

/-- By which bits a relayed CRC fails (R141 says only that it fails): applied to the CRC that would hold; a value of 0 stands
for bit 0. DESIGN CHOICE, safe: nothing is known of it (log 27). -/
opaque Config.crcError : Half → Half

/-- The distance a tile puts on a packet that came with distance 15, which four bits cannot count on from (R1; no chain is
that long). DESIGN CHOICE, safe: nothing is known of it (log 27). -/
opaque Config.distanceBeyond : BitVec 4

/-- Whether an ON_FRAME display packet waits for a SLEEP in flight to its tile to end. R128 has a WAKE as the one power packet
in flight with such a packet; R71's table gives SHOW, BLANK, INVERT and ROLL TO no gate; the manual ranks neither over the
other. DESIGN CHOICE, safe: nothing is known of it (log 37). -/
opaque Config.onFrameWaitsForSleep : Bool

end Sys2Proof
end

