-- ==== Sys2Proof/Syntax.lean ====
section
/-! DEFINITION. The commands: one constructor for each row of spec/opcode_table.json, with the row's operands. -/

namespace Sys2Proof

/-- Status of an ACK (R141). -/
inductive AckStatus where
  | ok | nochange | reject
  deriving DecidableEq, Repr

/-- What a shared-memory read answered: the bytes found, lowest address first, or a bus error. -/
inductive ReadResult where
  | bytes (bs : List Byte)
  | busError
  deriving DecidableEq, Repr

/-- The commands and events the part takes, each whole and indivisible. `ok` is false for a bus error. `last` says that
the write that ended was the last of the result writes (R43). -/
inductive Instr where
  -- register window (R169 to R176, R182)
  | start
  | stop
  | reset
  | enumerate
  | rescanN
  | rescanP
  | resumeN
  | resumeP
  | abortN
  | abortP
  | unknownCommand (code : Word)
  | cbaddrWrite (value : Word)
  | noticeWrite (value : Word)
  | noticeenWrite (value : Word)
  | tilechgRead (off len : Nat)
  | registerWriteIgnored (off len : Nat)
  -- pins (R162, R168, R178)
  | hardReset
  | resetNRelease
  | trigPinChange (input : Line) (level : Bool)
  | trigFilterExpiry (input : Line)
  | syncPulseExpiry (output : Line)
  -- chain link (R132, R142, R143, R149, R159, R160)
  | receiverLock (p : PortId)
  | tileLock (p : PortId)
  | hardError (p : PortId)
  | ackReceived (p : PortId) (dist : Position) (tag : Tag) (status : AckStatus)
  | dataReceived (p : PortId) (dist : Position) (tag : Tag) (words : List Word)
  | faultNotice (p : PortId) (dist : Position) (code : BitVec 4)
  | frameNotice (p : PortId) (dist : Position)
  | linkErrorPacket (p : PortId) (bs : List Byte)
  | transmissionEnd (p : PortId)
  -- time (R177)
  | timebaseTick
  | attemptTimerExpiry (p : PortId)
  | chainResetWaitExpiry (p : PortId)
  | probeDeadlineExpiry (p : PortId)
  | replyDeadlineExpiry (p : PortId) (tag : Tag)
  | settleTimerExpiry (t : TileNum)
  | restTimerExpiry (t : TileNum)
  | pollTimerExpiry (c : Chain)
  | waitTimeout (slot : SlotNum)
  | pauseExpiry (slot : SlotNum)
  | wakeHistoryAgeOut
  | sleepGateOpen (t : TileNum)
  | readyGateOpen (t : TileNum)
  -- shared-memory accesses that end
  | controlBlockReadDone (r : ReadResult)
  | statusWriteDone (t : TileNum) (ok : Bool)
  | statusRewriteStart (t : TileNum)
  | headerReadDone (c : Chain) (r : ReadResult)
  | stepReadDone (c : Chain) (r : ReadResult)
  | rescanReadDone (c : Chain) (r : ReadResult)
  | takenWriteDone (c : Chain) (ok : Bool)
  | fetchFailWriteDone (c : Chain) (last ok : Bool)
  | resultWriteDone (slot : SlotNum) (last ok : Bool)
  | stateWordWriteDone (slot : SlotNum) (ok : Bool)
  | stagingReadDone (slot : SlotNum) (t : TileNum) (r : ReadResult)
  | destinationWriteDone (p : PortId) (tag : Tag) (ok : Bool)
  -- the part's own steps
  | packetIssue (p : PortId)
  | jobAdmission (slot : SlotNum)
  | slotOffer (slot : SlotNum)
  | jobDrained (slot : SlotNum)
  | rescanPending (c : Chain)
  | resumeDeferred (c : Chain)
  | engineEntersRunning
  | engineStopped
  deriving DecidableEq, Repr

end Sys2Proof
end

