-- ==== Sys2Proof/Decode.lean ====
section
/-! DEFINITION. Reading raw inputs into commands. No row of spec/opcode_table.json carries bits, so `decodeTableWord`
answers none. The register window (R170, R182) and the chain's upstream packets (R141, R142, R179) are the two places where
the spec gives the part raw bits, and both are read here, in full. -/

namespace Sys2Proof

/-- The command that a word spells by the table's bits: no row gives bits. -/
def decodeTableWord (_nbits _w : Nat) : Option Instr := none

/-- COMMAND codes (12_record_and_packet_formats.md, 12.7). -/
def commandOfCode (code : Word) : Instr :=
  match code.toNat with
  | 0x01 => .start
  | 0x02 => .stop
  | 0x03 => .reset
  | 0x04 => .enumerate
  | 0x10 => .rescanN
  | 0x11 => .rescanP
  | 0x12 => .resumeN
  | 0x13 => .resumeP
  | 0x14 => .abortN
  | 0x15 => .abortP
  | _ => .unknownCommand code

/-- A write of `len` bytes with word `value` at byte `off` of the register window, as the command it is (R169, R170, R182):
a full aligned word to a writable register acts, every other write is ignored. -/
def registerWriteCommand (off len : Nat) (value : Word) : Instr :=
  if len = 4 ∧ off = 0x00 then .cbaddrWrite value
  else if len = 4 ∧ off = 0x04 then commandOfCode value
  else if len = 4 ∧ off = 0x14 then .noticeWrite value
  else if len = 4 ∧ off = 0x18 then .noticeenWrite value
  else .registerWriteIgnored off len

/-- One bit of the CRC-16 of R179: x^16 + x^12 + x^5 + 1, least significant bit first. The register shifts right, so that the
coefficient of x^15 is bit 0 and that of x^0 bit 15; R179 does not say which coefficient of the remainder is which bit of the
CRC field, and the model takes this register as it stands (DESIGN CHOICE, log 44). -/
def crcBit (crc : Half) : Half :=
  if crc.getLsbD 0 then (crc >>> 1) ^^^ 0x8408#16 else crc >>> 1

def crcByte (crc : Half) (b : Byte) : Half :=
  let c0 := crc ^^^ b.setWidth 16
  crcBit (crcBit (crcBit (crcBit (crcBit (crcBit (crcBit (crcBit c0)))))))

/-- CRC-16 over bytes in transmission order, preset 0xFFFF, not inverted (R179); its bits in the order of `crcBit`'s register
(DESIGN CHOICE, log 44). -/
def crc16 (bs : List Byte) : Half := bs.foldl crcByte 0xFFFF#16

/-- The four bytes of a word, least significant first (R179). -/
def wordBytes (w : Word) : List Byte :=
  [w.setWidth 8, (w >>> 8).setWidth 8, (w >>> 16).setWidth 8, (w >>> 24).setWidth 8]

def halfBytes (h : Half) : List Byte := [h.setWidth 8, (h >>> 8).setWidth 8]

/-- The bits of bytes in the order a line carries them: each byte's least significant bit first (R179). -/
def lineBits (bs : List Byte) : List Bool := (bs.map (fun b => (List.range 8).map b.getLsbD)).flatten

/-- The bytes that bits taken from a line make, least significant bit first (R179). Fewer than eight bits at the end make none:
`lineCommand` judges such bits. -/
def bytesOfBits : List Bool → List Byte
  | b0 :: b1 :: b2 :: b3 :: b4 :: b5 :: b6 :: b7 :: rest =>
    BitVec.ofBoolListLE [b0, b1, b2, b3, b4, b5, b6, b7] :: bytesOfBits rest
  | _ => []

def byteAt (bs : List Byte) (i : Nat) : Byte := bs.getD i 0#8

def halfAt (bs : List Byte) (i : Nat) : Half := byteAt bs (i + 1) ++ byteAt bs i

def wordAt (bs : List Byte) (i : Nat) : Word :=
  byteAt bs (i + 3) ++ byteAt bs (i + 2) ++ byteAt bs (i + 1) ++ byteAt bs i

/-- `n` words read from byte `i` on. -/
def wordsAt (bs : List Byte) (i : Nat) : Nat → List Word
  | 0 => []
  | n + 1 => wordAt bs i :: wordsAt bs (i + 4) n

/-- What the link checks of R142 find in a received packet. -/
inductive UpVerdict where
  | framingError
  | softError
  | ack (dist : Position) (tag : Tag) (status : AckStatus)
  | data (dist : Position) (tag : Tag) (words : List Word)
  | frame (dist : Position)
  | fault (dist : Position) (code : BitVec 4)
  deriving DecidableEq, Repr

/-- Check 3 of R142 on a packet whose length, kind and CRC are good: distance, status and payload length per kind. -/
def judgeUpstreamFields (kind status : Nat) (dist : Nat) (tag : Tag) (len : Nat) (words : List Word) : UpVerdict :=
  if h : dist < 12 then
    if kind = 1 then
      if len ≠ 0 then .framingError
      else if status = 0 then .ack ⟨dist, h⟩ tag .ok
      else if status = 1 then .ack ⟨dist, h⟩ tag .nochange
      else if status = 2 then .ack ⟨dist, h⟩ tag .reject
      else .framingError
    else if kind = 2 then
      if 1 ≤ len ∧ len ≤ 128 ∧ status = 0 then .data ⟨dist, h⟩ tag words else .framingError
    else
      if len ≠ 0 then .framingError
      else if status = 0x10 then .frame ⟨dist, h⟩
      else if 0x21 ≤ status ∧ status ≤ 0x2F then .fault ⟨dist, h⟩ (BitVec.ofNat 4 (status - 0x20))
      else .framingError
  else .framingError

/-- R142: the checks on a packet received while the port is UP or probing, in their order. The bytes are those between the
line code's start and end marks. -/
def judgeUpstream (bs : List Byte) : UpVerdict :=
  let kind := (byteAt bs 0).toNat
  let len := (byteAt bs 3).toNat
  if bs.length < 6 ∨ bs.length ≠ 4 + 4 * len + 2 ∨ kind < 1 ∨ 3 < kind then .framingError
  else if crc16 (bs.take (4 + 4 * len)) ≠ halfAt bs (4 + 4 * len) then .softError
  else
    let place := (byteAt bs 1).toNat
    judgeUpstreamFields kind (byteAt bs 2).toNat (place % 16) (Fin.ofNat 16 (place / 16)) len (wordsAt bs 4 len)

/-- The command a packet received on a port gives. -/
def upstreamCommand (p : PortId) (bs : List Byte) : Instr :=
  match judgeUpstream bs with
  | .framingError => .linkErrorPacket p bs
  | .softError => .linkErrorPacket p bs
  | .ack d tag st => .ackReceived p d tag st
  | .data d tag ws => .dataReceived p d tag ws
  | .frame d => .frameNotice p d
  | .fault d code => .faultNotice p d code

/-- The command that the bits between two marks of a port's upstream line give. Bits that do not fill whole bytes have no
length that a header gives, so they are a framing error by check 1 of R142, and no bytes stand for them (DEDUCED, log 41). -/
def lineCommand (p : PortId) (bits : List Bool) : Instr :=
  if bits.length % 8 = 0 then upstreamCommand p (bytesOfBits bits) else .linkErrorPacket p []

end Sys2Proof
end

