-- ==== Sys2Proof/Machine/State.lean ====
section
/-! DEFINITION. The state of the TK4610, as plain data, the reasons a step can stop, and the state after reset (R178). Each
field names the rule of spec/ that gives it. -/

namespace Sys2Proof.Machine

/-! ## Names of states and codes (12_record_and_packet_formats.md, 12.8) -/

/-- R12. -/
inductive TileState where
  | absent | asleep | waking | awake | dozing | faulted | lost
  deriving DecidableEq, Repr

/-- R171: the three phases of START, in their order. -/
inductive StartPhase where
  | controlBlock | statusRecords | ports
  deriving DecidableEq, Repr

/-- 11.2. STARTING carries the phase START has reached. -/
inductive EngineState where
  | off
  | starting (phase : StartPhase)
  | running
  | stopping
  | halted
  deriving DecidableEq, Repr

/-- R172. -/
inductive EngineFault where
  | none | cbInvalid | cbBusError | statusWriteError | resultWriteError
  deriving DecidableEq, Repr

/-- R50. -/
inductive WalkerState where
  | idle | fetching | blocked | parked | halted
  deriving DecidableEq, Repr

/-- R50. -/
inductive HaltCause where
  | none | jobFailed | aborted | access | busError | check
  deriving DecidableEq, Repr

/-- R131. -/
inductive PortState where
  | down | training | enumerating | up | failed
  deriving DecidableEq, Repr

/-- Error codes 1 to 18; NONE is the absence of one. -/
inductive ErrorCode where
  | badStep | check | access | busError | noTile | tileLost | notAwake | tileFault | badOperand
  | timeout | tileReject | linkLost | windowChanged | waitTimeout | aborted
  | mirrorMismatch | strayReply | badIdentity
  deriving DecidableEq, Repr

/-- Terminal states of a descriptor (R41). -/
inductive Terminal where
  | done | partly | failed | aborted | skipped
  deriving DecidableEq, Repr

/-- R24. -/
inductive StepKind where
  | wake | sleep | show | blank | invert | window | band | rollArea | rollTo
  | put | get | readId | readState | wait | pause | mark
  deriving DecidableEq, Repr

/-- Downstream packet kinds (12.6). -/
inductive PacketKind where
  | reset | probe | wake | sleep | show | blank | invert | window | band | rollArea | rollTo
  | pixStart | pixMore | pixSeek | pixRead | readId | readState
  deriving DecidableEq, Repr

/-- R161. -/
inductive EventSource where
  | frame (t : TileNum)
  | trig (i : Line)
  | mark (n : Fin 4)
  deriving DecidableEq, Repr

/-- R106. -/
inductive PixelFormat where
  | rgb16 | rgb24
  deriving DecidableEq, Repr

/-! ## Registers -/

/-- The seven notices (R176), as NOTICE holds them and as NOTICEEN enables them. -/
structure NoticeSet where
  job : Bool
  chain : Bool
  tile : Bool
  port : Bool
  engine : Bool
  refused : Bool
  linkErr : Bool
  deriving DecidableEq, Repr

def NoticeSet.clear : NoticeSet := ⟨false, false, false, false, false, false, false⟩

/-! ## Held settings (R46 to R48) -/

inductive Rights where
  | none | read | write | readWrite
  deriving DecidableEq, Repr

/-- R48. A size of 0 marks the window unused. -/
structure Aperture where
  base : Word
  size : Word
  rights : Rights
  deriving DecidableEq, Repr

/-- R46. Times are counts of milliseconds. -/
structure Settings where
  normalHead : Word
  priorityHead : Word
  statusArea : Option Word
  apertures : Vector Aperture 4
  pollMs : Nat
  replyMs : Nat
  wakeLimit : Nat
  wakeWindowMs : Nat
  wakeGapMs : Nat
  settleMs : Nat
  readyMs : Nat
  restMs : Nat
  minAwakeMs : Nat
  holdMs : Nat
  sync0 : Option EventSource
  sync1 : Option EventSource
  deriving DecidableEq, Repr

/-- The table "After reset" of R46. -/
def Settings.reset : Settings where
  normalHead := 0
  priorityHead := 0
  statusArea := none
  apertures := Vector.replicate 4 ⟨0, 0, .none⟩
  pollMs := 0
  replyMs := 10
  wakeLimit := 1
  wakeWindowMs := 1000
  wakeGapMs := 100
  settleMs := 100
  readyMs := 100
  restMs := 100
  minAwakeMs := 0
  holdMs := 0
  sync0 := none
  sync1 := none

/-! ## Jobs (R22 to R45) -/

/-- A step record that passed R26. -/
structure Step where
  kind : StepKind
  onFrame : Bool
  sleepAfter : Bool
  tolerant : Bool
  pass : Bool
  tiles : TileSet
  x : Word
  y : Word
  deriving DecidableEq, Repr

/-- R29. A complete tile part has left its job's list, so it has no constructor. `failing` is a part that failed at the
event under way; at that event's end it is gone, or `draining` when it still has packets in flight (R34). `withdrawn` is a
candidate with nothing in flight when its job entered DRAINING: it issues no more and stays pending until its job enters
RETIRING (R29, R36, R39, R112; log 42). -/
inductive PartCond where
  | candidate
  | waiting
  | issued
  | joined
  | failing (code : ErrorCode)
  | draining
  | withdrawn
  deriving DecidableEq, Repr

/-- The staging buffer of a PUT stream (R109). -/
inductive Staging where
  | empty
  | reading
  | staged (words : List Word)
  deriving DecidableEq, Repr

/-- The work of the current step on one tile. -/
structure TilePart where
  tile : TileNum
  cond : PartCond
  staging : Staging
  deriving DecidableEq, Repr

/-- R36; no tile stands for failing tile 255. -/
structure Failure where
  code : ErrorCode
  step : Nat
  tile : Option TileNum
  deriving DecidableEq, Repr

/-- The write of a retirement under way (R43, R55): the result fields at 0x10 to 0x1F, then the state word. -/
inductive RetireStage where
  | results | stateWord
  deriving DecidableEq, Repr

/-- The results a retirement writes (R42, R55). -/
structure Retirement where
  terminal : Terminal
  code : Option ErrorCode
  failingStep : Nat
  failingTile : Option TileNum
  tolerated : Nat
  stepsDone : Nat
  startedAt : Word
  endedAt : Word
  stage : RetireStage
  deriving DecidableEq, Repr

/-- R27. -/
inductive Phase where
  | queued
  | running
  | draining
  | retiring (r : Retirement)
  deriving DecidableEq, Repr

/-- An occupied job slot (R27). The step count is the length of `steps`. `pauseDue` is the PAUSE timer (R166), and
`engineDone` marks an engine step whose completion is under way at the event (log 10). -/
structure Job where
  chain : Chain
  addr : Word
  order : Nat
  notify : Bool
  haltOnFail : Bool
  steps : List Step
  tiles : TileSet
  phase : Phase
  current : Nat
  parts : List TilePart
  outstanding : Nat
  firstFailure : Option Failure
  tolerated : Nat
  stepsDone : Nat
  startedAt : Word
  abortRequested : Bool
  pauseDue : Option Word
  engineDone : Bool
  deriving DecidableEq, Repr

/-- A job slot: free, claimed by a walker for its TAKEN write (R56), or holding a job. -/
inductive Slot where
  | free
  | claimed (c : Chain)
  | job (j : Job)
  deriving DecidableEq, Repr

/-- One WAIT in the Event Unit's wait list, with its timeout (R163, R164). -/
structure WaitEntry where
  slot : SlotNum
  source : EventSource
  due : Word
  deriving DecidableEq, Repr

/-! ## List Walkers (R50) -/

/-- A descriptor that passed every fetch check (R54). -/
structure Fetched where
  addr : Word
  link : Word
  notify : Bool
  haltOnFail : Bool
  steps : List Step
  deriving DecidableEq, Repr

/-- A descriptor the walker retires directly (R55). -/
structure DirectRetire where
  addr : Word
  link : Word
  notify : Bool
  haltOnFail : Bool
  results : Retirement
  deriving DecidableEq, Repr

/-- The walker's accesses under way. -/
inductive WalkerWork where
  | none
  /-- header read of a fetch (R52, check 2) -/
  | readHeader (addr : Word)
  /-- step record reads of a fetch (R53, check 5), with the header already read -/
  | readSteps (addr : Word) (header : List Byte)
  /-- a rescan's read of the link at PARKx or of the head field, at this address (R59) -/
  | rescanLink (addr : Word)
  /-- a rescan's header read of the descriptor the link names (R59) -/
  | rescanHeader (addr : Word)
  /-- the held descriptor of a BLOCKED walker (R56), with the slots on offer to it: those freed since it was BLOCKED and not
  yet given away (R61; log 14) -/
  | held (d : Fetched) (offers : List SlotNum)
  /-- the TAKEN write, with the slot claimed (R56) -/
  | takenWrite (d : Fetched) (slot : SlotNum)
  /-- the writes of R55 -/
  | retire (d : DirectRetire)
  deriving DecidableEq, Repr

structure Walker where
  state : WalkerState
  cause : HaltCause
  /-- PARKx (R58) -/
  park : Word
  link : Word
  work : WalkerWork
  rescanPending : Bool
  pollDue : Option Word
  resumePending : Bool
  haltTime : Word
  deriving DecidableEq, Repr

def Walker.reset : Walker where
  state := .idle
  cause := .none
  park := 0
  link := 0
  work := .none
  rescanPending := false
  pollDue := none
  resumePending := false
  haltTime := 0

/-! ## The tile table (R10) and the status records (R19) -/

structure Identity where
  vendor : Half
  model : Half
  revision : Half
  deriving DecidableEq, Repr

structure Geometry where
  width : Half
  height : Half
  framePeriod : Half
  deriving DecidableEq, Repr

/-- The band mirror: mode (`band` true for BAND) and rows, which may be absent (R15, R123). -/
structure Band where
  band : Bool
  rows : Option (Half × Half)
  deriving DecidableEq, Repr

structure Window where
  colStart : Half
  colEnd : Half
  rowStart : Half
  rowEnd : Half
  deriving DecidableEq, Repr

structure Roll where
  top : Half
  height : Half
  start : Half
  deriving DecidableEq, Repr

inductive StreamKind where
  | put | get
  deriving DecidableEq, Repr

/-- R108. -/
structure Stream where
  owner : SlotNum
  kind : StreamKind
  sent : Nat
  acked : Nat
  broken : Bool
  failed : Bool
  deriving DecidableEq, Repr

/-- R10. `shown` is the display mirror (true for SHOWN). The three `Open` bits say that the gate which reads the mark has
opened since the mark was set (R95, log 12). -/
structure TileEntry where
  state : TileState
  identity : Option Identity
  geometry : Option Geometry
  shown : Option Bool
  band : Option Band
  inverted : Option Bool
  window : Option Window
  roll : Option Roll
  wakeAck : Option Word
  settleDue : Option Word
  readyDue : Option Word
  restDue : Option Word
  lastPixelAck : Option Word
  minAwakeOpen : Bool
  holdOpen : Bool
  readyOpen : Bool
  armed : Bool
  stream : Option Stream
  credits : Nat
  configInFlight : Bool
  lastError : Option ErrorCode
  lastFault : BitVec 4
  changedAt : Word
  changeCount : Half
  deriving DecidableEq, Repr

/-- R11. -/
def TileEntry.reset : TileEntry where
  state := .absent
  identity := none
  geometry := none
  shown := none
  band := none
  inverted := none
  window := none
  roll := none
  wakeAck := none
  settleDue := none
  readyDue := none
  restDue := none
  lastPixelAck := none
  minAwakeOpen := false
  holdOpen := false
  readyOpen := false
  armed := false
  stream := none
  credits := 0
  configInFlight := false
  lastError := none
  lastFault := 0
  changedAt := 0
  changeCount := 0

/-- The write of a rewrite under way (R19), with the bytes the second write carries. -/
inductive RewriteStage where
  | countOdd
  | fields (bytes : List Byte)
  | countEven
  deriving DecidableEq, Repr

/-- A status record rewrite in progress. `joins`: a record change caused it, so its end adds the tile to TILECHG (R20, R21).
`byStart`: it is one of the 24 of START (R20). `stopped`: no write follows the one under way (R171, R174). `area` is the
status area it is made in. -/
structure Rewrite where
  area : Word
  stage : RewriteStage
  joins : Bool
  byStart : Bool
  stopped : Bool
  deriving DecidableEq, Repr

/-- A status record: marked for a rewrite by a record change (R18), marked by START (R20), and the rewrite in progress. -/
structure RecordCtl where
  markChange : Bool
  markStart : Bool
  rewrite : Option Rewrite
  deriving DecidableEq, Repr

def RecordCtl.reset : RecordCtl := ⟨false, false, none⟩

/-! ## Chain ports (R131, R147) -/

/-- R80, R147. -/
inductive Owner where
  | job (slot : SlotNum) (step : Nat)
  | autoSleep
  | enumeration
  deriving DecidableEq, Repr

/-- A destination write (R152): where, the bytes, and for READ STATE the reported status word. -/
structure DestWrite where
  addr : Word
  bytes : List Byte
  report : Option Word
  deriving DecidableEq, Repr

inductive EntryPhase where
  | awaiting
  | writing (w : DestWrite)
  deriving DecidableEq, Repr

/-- An in-flight entry (R147), with what its reply is taken with: the operands the packet carried, and for a segment the index
of its first pixel, its pixels and its format. -/
structure Entry where
  tag : Tag
  tile : TileNum
  owner : Owner
  kind : PacketKind
  issueTime : Word
  deadline : Option Word
  phase : EntryPhase
  x : Word
  y : Word
  first : Nat
  pixels : Nat
  format : PixelFormat
  deriving DecidableEq, Repr

/-- A downstream packet (R141). `hop` is 15 in the chain reset only (R140). -/
structure Packet where
  kind : PacketKind
  hop : BitVec 4
  tag : BitVec 4
  onFrame : Bool
  payload : List Word
  deriving DecidableEq, Repr

/-- A destination write that outlives its entry: a WRITING entry ended by another cause than its write (R147). -/
structure CutWrite where
  tag : Tag
  write : DestWrite
  deriving DecidableEq, Repr

/-- R131. `attempt` is 0 when no attempt runs. `cutWrites` are in the order they were begun. -/
structure Port where
  state : PortState
  attempt : Nat
  attemptDue : Option Word
  rxLock : Bool
  tileLock : Bool
  waitDue : Option Word
  probing : Option Position
  inFlight : List Entry
  quarantined : BitVec 16
  cutWrites : List CutWrite
  transmitting : Option Packet
  deriving DecidableEq, Repr

def Port.reset : Port where
  state := .down
  attempt := 0
  attemptDue := none
  rxLock := false
  tileLock := false
  waitDue := none
  probing := none
  inFlight := []
  quarantined := 0
  cutWrites := []
  transmitting := none

/-! ## Staging reads that outlive their staging (R109) -/

/-- A staging read begun for the tile part of a job slot on a tile, whose staging has stopped: it runs to its end, and its
words are not used. -/
structure StoppedRead where
  slot : SlotNum
  tile : TileNum
  addr : Word
  len : Nat
  deriving DecidableEq, Repr

/-! ## Shared-memory accesses that outlive what they were begun for (R178) -/

/-- What a shared-memory access is made for, as the rows of its end name it. -/
inductive AccessId where
  | controlBlock
  | record (t : TileNum)
  | header (c : Chain)
  | stepRecords (c : Chain)
  | rescan (c : Chain)
  | taken (c : Chain)
  | directRetirement (c : Chain)
  | results (slot : SlotNum)
  | stateWord (slot : SlotNum)
  | staging (slot : SlotNum) (t : TileNum)
  | destination (p : PortId) (tag : Tag)
  deriving DecidableEq, Repr

/-- A read of some bytes at an address of shared memory, or a write of bytes there. -/
inductive MemAccess where
  | read (addr : Word) (len : Nat)
  | write (addr : Word) (bytes : List Byte)
  deriving DecidableEq, Repr

/-- A shared-memory access under way. -/
structure Access where
  id : AccessId
  access : MemAccess
  deriving DecidableEq, Repr

/-! ## Trigger inputs (R162) -/

/-- The pin, the filtered level (none until the first level is taken), and whether the 4 µs interval runs. -/
structure TrigFilter where
  pin : Bool
  level : Option Bool
  running : Bool
  deriving DecidableEq, Repr

/-- R162: after a reset the filter takes the level its pin then holds. Its 4 µs are counted from the reset, however long the
pin has stood at its level before (DESIGN CHOICE, log 7). -/
def TrigFilter.afterReset (pin : Bool) : TrigFilter := ⟨pin, none, true⟩

/-! ## The whole part -/

structure State where
  /-- commands waiting, first in first out -/
  pending : List Instr
  /-- RESET_N held low (R178) -/
  resetLow : Bool
  /-- bytes the last register read with an effect returned (R182; log 8) -/
  readBytes : List Byte
  cbaddr : Word
  notice : NoticeSet
  noticeEn : NoticeSet
  tileChg : TileSet
  now : Word
  engine : EngineState
  fault : EngineFault
  cbRead : Bool
  settings : Settings
  walkerN : Walker
  walkerP : Walker
  slots : Vector Slot 8
  nextOrder : Nat
  tiles : Vector TileEntry 24
  records : Vector RecordCtl 24
  wakeHistory : List Word
  /-- the WAKE_WINDOW_MS the history is aged by: the held one from the first tick after its START on (R87) -/
  historyWindowMs : Nat
  wakePresented : Option TileNum
  portA : Port
  portB : Port
  waitList : List WaitEntry
  /-- in the order they were begun -/
  stoppedReads : List StoppedRead
  /-- accesses whose results are not used: those a reset cut (R178), a walker's read that an earlier stop left running (R67), a
  control-block read that START's failure left running (log 39); in the order they were begun -/
  cutAccesses : List Access
  trig0 : TrigFilter
  trig1 : TrigFilter
  sync0 : Bool
  sync1 : Bool
  choices : Nat
  deriving DecidableEq, Repr

/-- Reasons a step ends in a fault. There is none: no command stops this part; bus errors, tile faults, timeouts and refused
commands are states of the part (R172, R174). Safe: nothing raises it. -/
inductive Fault where
  deriving DecidableEq, Repr

/-- Reasons a command is refused. -/
inductive Refusal where
  /-- Raised by `exec` alone, for a row that has no meaning yet. Safe: the model says nothing of that row. -/
  | notModelled (mnemonic : String)
  deriving DecidableEq, Repr

/-- The part right after reset, with RESET_N released: the values of R178 and of the rules it cites (logs 4, 7, 8, 9, 22 name
the others). -/
def State.reset : State where
  pending := []
  resetLow := false
  readBytes := []
  cbaddr := 0
  notice := NoticeSet.clear
  noticeEn := NoticeSet.clear
  tileChg := 0
  now := 0
  engine := .off
  fault := .none
  cbRead := false
  settings := Settings.reset
  walkerN := Walker.reset
  walkerP := Walker.reset
  slots := Vector.replicate 8 .free
  nextOrder := 1
  tiles := Vector.replicate 24 TileEntry.reset
  records := Vector.replicate 24 RecordCtl.reset
  wakeHistory := []
  historyWindowMs := 1000
  wakePresented := none
  portA := Port.reset
  portB := Port.reset
  waitList := []
  stoppedReads := []
  cutAccesses := []
  trig0 := TrigFilter.afterReset false
  trig1 := TrigFilter.afterReset false
  sync0 := false
  sync1 := false
  choices := 0

abbrev Outcome := Host.Outcome State Fault Refusal

end Sys2Proof.Machine
end

