-- ==== Sys2Proof/Machine/Operands.lean ====
section
/-! DEFINITION. Operand forms: the code values of 12.8, the fields of step records and of the pixel control word, and the
records of shared memory read from and written to bytes (R23, R26, R47, R48, R106, R152, R179 to R181). -/

namespace Sys2Proof.Machine

/-! ## Codes (12.8) -/

def TileState.code : TileState → Nat
  | .absent => 0 | .asleep => 1 | .waking => 2 | .awake => 3 | .dozing => 4 | .faulted => 5 | .lost => 6

def EngineState.code : EngineState → Nat
  | .off => 0 | .starting _ => 1 | .running => 2 | .stopping => 3 | .halted => 4

def EngineFault.code : EngineFault → Nat
  | .none => 0 | .cbInvalid => 1 | .cbBusError => 2 | .statusWriteError => 3 | .resultWriteError => 4

def WalkerState.code : WalkerState → Nat
  | .idle => 0 | .fetching => 1 | .blocked => 2 | .parked => 3 | .halted => 4

def HaltCause.code : HaltCause → Nat
  | .none => 0 | .jobFailed => 1 | .aborted => 2 | .access => 3 | .busError => 4 | .check => 5

def PortState.code : PortState → Nat
  | .down => 0 | .training => 1 | .enumerating => 2 | .up => 3 | .failed => 4

def ErrorCode.code : ErrorCode → Nat
  | .badStep => 1 | .check => 2 | .access => 3 | .busError => 4 | .noTile => 5 | .tileLost => 6 | .notAwake => 7
  | .tileFault => 8 | .badOperand => 9 | .timeout => 10 | .tileReject => 11 | .linkLost => 12 | .windowChanged => 13
  | .waitTimeout => 14 | .aborted => 15 | .mirrorMismatch => 16 | .strayReply => 17 | .badIdentity => 18

/-- The error code byte; NONE when absent. -/
def errorByte : Option ErrorCode → Byte
  | none => 0
  | some e => BitVec.ofNat 8 e.code

/-- Descriptor state words; READY is 1 and TAKEN is 2. -/
def Terminal.code : Terminal → Nat
  | .done => 3 | .partly => 4 | .failed => 5 | .aborted => 6 | .skipped => 7

def StepKind.ofCode : Nat → Option StepKind
  | 0x01 => some .wake | 0x02 => some .sleep | 0x03 => some .show | 0x04 => some .blank | 0x05 => some .invert
  | 0x06 => some .window | 0x07 => some .band | 0x08 => some .rollArea | 0x09 => some .rollTo | 0x0A => some .put
  | 0x0B => some .get | 0x0C => some .readId | 0x0D => some .readState | 0x0E => some .wait | 0x0F => some .pause
  | 0x10 => some .mark | _ => none

def PacketKind.code : PacketKind → Nat
  | .reset => 0x01 | .probe => 0x02 | .wake => 0x03 | .sleep => 0x04 | .show => 0x05 | .blank => 0x06 | .invert => 0x07
  | .window => 0x08 | .band => 0x09 | .rollArea => 0x0A | .rollTo => 0x0B | .pixStart => 0x0C | .pixMore => 0x0D
  | .pixSeek => 0x0E | .pixRead => 0x0F | .readId => 0x10 | .readState => 0x11

/-- Event source codes (12.8); NONE, 0xFF, is no source. -/
def EventSource.ofCode (n : Nat) : Option EventSource :=
  if h : n < 24 then some (.frame ⟨n, h⟩)
  else match n with
    | 0x20 => some (.trig .zero) | 0x21 => some (.trig .one)
    | 0x30 => some (.mark 0) | 0x31 => some (.mark 1) | 0x32 => some (.mark 2) | 0x33 => some (.mark 3)
    | _ => none

/-! ## Step kinds and operands (R24 to R26, 12.3) -/

namespace StepKind

def isConfig : StepKind → Bool
  | .window | .band | .rollArea => true | _ => false

def isDisplay : StepKind → Bool
  | .show | .blank | .invert | .rollTo => true | _ => false

def isStream : StepKind → Bool
  | .put | .get => true | _ => false

def isQuery : StepKind → Bool
  | .readId | .readState => true | _ => false

def isPower : StepKind → Bool
  | .wake | .sleep => true | _ => false

/-- The three kinds without tile parts. -/
def isEngine : StepKind → Bool
  | .wait | .pause | .mark => true | _ => false

/-- Work a FAULTED tile accepts (R12, R30). -/
def allowedOnFaulted : StepKind → Bool
  | .sleep | .readId | .readState => true | _ => false

/-- The packet of a non-stream tile kind (R24). -/
def packet : StepKind → PacketKind
  | .wake => .wake | .sleep => .sleep | .show => .show | .blank => .blank | .invert => .invert | .window => .window
  | .band => .band | .rollArea => .rollArea | .rollTo => .rollTo | .readId => .readId | .readState => .readState
  | .put => .pixMore | .get => .pixRead
  | .wait | .pause | .mark => .reset

end StepKind

namespace PacketKind

def isConfig : PacketKind → Bool
  | .window | .band | .rollArea => true | _ => false

def isPower : PacketKind → Bool
  | .wake | .sleep => true | _ => false

/-- The three kinds that write pixels (R95). -/
def isPixelWrite : PacketKind → Bool
  | .pixStart | .pixMore | .pixSeek => true | _ => false

/-- The kinds answered with DATA (R2, R150). -/
def wantsData : PacketKind → Bool
  | .probe | .readId | .readState | .pixRead => true | _ => false

end PacketKind

def lowHalf (w : Word) : Half := w.setWidth 16
def highHalf (w : Word) : Half := (w >>> 16).setWidth 16

namespace Step

def isTile (st : Step) : Bool := !st.kind.isEngine

/-- Pixel count of a PUT or GET: bits 0 to 23 of Y. -/
def pixelCount (st : Step) : Nat := st.y.toNat % 2 ^ 24

def format (st : Step) : PixelFormat := if st.y.toNat / 2 ^ 24 = 0 then .rgb16 else .rgb24

end Step

/-- Words that `n` pixels span (R107). -/
def wordsOf : PixelFormat → Nat → Nat
  | .rgb16, n => (n + 1) / 2
  | .rgb24, n => n

/-- Pixels of a full segment of 128 words (R107). -/
def fullSegment : PixelFormat → Nat
  | .rgb16 => 256
  | .rgb24 => 128

/-- Pixels of the segment that begins at pixel `first` of `n` (R107). -/
def segmentPixels (f : PixelFormat) (n first : Nat) : Nat := min (fullSegment f) (n - first)

/-- Index of the word that holds pixel `i` (R106). -/
def wordIndex : PixelFormat → Nat → Nat
  | .rgb16, i => i / 2
  | .rgb24, i => i

/-- The pixel control word (12.6): offset in units of 128 pixels, count, format. -/
def pixelControl (f : PixelFormat) (offset pixels : Nat) : Word :=
  BitVec.ofNat 32 (offset / 128 % 2 ^ 17 + 2 ^ 17 * (pixels % 2 ^ 9) + 2 ^ 26 * (if f = .rgb24 then 1 else 0))

/-- The payload of a packet that is not a pixel packet: the operands, spare halfwords sent as zero (R141, R180). -/
def settingPayload (k : PacketKind) (x y : Word) : List Word :=
  match k with
  | .invert => [x]
  | .window => [x, y]
  | .band => [x, y]
  | .rollArea => [(lowHalf x).setWidth 32, (lowHalf y).setWidth 32]
  | .rollTo => [(lowHalf x).setWidth 32]
  | _ => []

/-- The buffer of a step, as address and length in bytes (R26). -/
def Step.buffer (st : Step) : Option (Nat × Nat) :=
  match st.kind with
  | .put | .get => some (st.x.toNat, 4 * wordsOf st.format st.pixelCount)
  | .readId => some (st.x.toNat, 16)
  | .readState => some (st.x.toNat, 8)
  | _ => none

/-- Flags R25 allows: bit 0 ON_FRAME, bit 1 SLEEP_AFTER, bit 2 TOLERANT, bit 3 PASS; bits 4 to 7 are spare (R180). -/
def flagsAllowed (k : StepKind) (flags : Byte) : Bool :=
  (!flags.getLsbD 0 || k.isDisplay || k.isConfig) &&
  (!flags.getLsbD 1 || !(k.isPower || k.isQuery || k.isEngine)) &&
  (!flags.getLsbD 2 || !k.isEngine) &&
  (!flags.getLsbD 3 || k == .wait)

/-- The operand tests of R26. -/
def operandsOk (k : StepKind) (x y : Word) : Bool :=
  match k with
  | .invert => x == 0 || x == 1
  | .band => x == 0 || x == 1
  | .put | .get => y.toNat % 2 ^ 24 != 0 && decide (y.toNat / 2 ^ 24 ≤ 1) && x.toNat % 4 == 0
  | .readId | .readState => x.toNat % 4 == 0
  | .mark => decide (x.toNat ≤ 3)
  | .wait => (EventSource.ofCode x.toNat).isSome && lowHalf y != 0
  | .pause => lowHalf x != 0
  | _ => true

def countTiles (ts : TileSet) : Nat := ((List.finRange 24).filter (fun t => ts.getLsbD t.val)).length

/-- The tile set tests of R26: none above 23, empty exactly for engine kinds, one tile for the queries. -/
def tileSetOk (k : StepKind) (raw : Word) : Bool :=
  let ts : TileSet := raw.setWidth 24
  raw.toNat / 2 ^ 24 == 0 && ((ts == 0) == k.isEngine) && (!k.isQuery || countTiles ts == 1)

/-- A step record at byte `i`, or none when it is malformed (R26, R181). -/
def parseStep (bs : List Byte) (i : Nat) : Option Step :=
  match StepKind.ofCode (byteAt bs i).toNat with
  | none => none
  | some k =>
    let flags := byteAt bs (i + 1)
    let raw := wordAt bs (i + 4)
    let x := wordAt bs (i + 8)
    let y := wordAt bs (i + 12)
    if flagsAllowed k flags && tileSetOk k raw && operandsOk k x y then
      some { kind := k, onFrame := flags.getLsbD 0, sleepAfter := flags.getLsbD 1, tolerant := flags.getLsbD 2,
             pass := flags.getLsbD 3, tiles := raw.setWidth 24, x := x, y := y }
    else none

/-! ## Apertures (R48, R49) -/

def Rights.canRead : Rights → Bool
  | .read | .readWrite => true | _ => false

def Rights.canWrite : Rights → Bool
  | .write | .readWrite => true | _ => false

/-- R48: a window of size 0 is unused and not judged. -/
def Aperture.valid (a : Aperture) : Bool :=
  a.size == 0 || (a.base.toNat % 16 == 0 && a.size.toNat % 16 == 0 && decide (a.base.toNat + a.size.toNat ≤ 2 ^ 32))

/-- The extent lies wholly inside this window, and its rights permit the access. -/
def Aperture.permits (a : Aperture) (addr len : Nat) (rd wr : Bool) : Bool :=
  a.size != 0 && decide (a.base.toNat ≤ addr) && decide (addr + len ≤ a.base.toNat + a.size.toNat) &&
    (!rd || a.rights.canRead) && (!wr || a.rights.canWrite)

/-- The aperture test of R49: one window contains the whole extent. -/
def Settings.permits (st : Settings) (addr len : Nat) (rd wr : Bool) : Bool :=
  (List.finRange 4).any (fun i => st.apertures[i].permits addr len rd wr)

/-- The aperture test of a step's buffer (R26). -/
def Settings.permitsStep (st : Settings) (p : Step) : Bool :=
  match p.buffer with
  | none => true
  | some (a, n) => if p.kind = .put then st.permits a n true false else st.permits a n false true

/-! ## Descriptor header and check sum (R23, 12.3) -/

def headerLink (h : List Byte) : Word := wordAt h 0
def headerState (h : List Byte) : Word := wordAt h 4
def headerCount (h : List Byte) : Nat := (byteAt h 8).toNat
def headerNotify (h : List Byte) : Bool := (byteAt h 9).getLsbD 0
def headerHaltOnFail (h : List Byte) : Bool := (byteAt h 9).getLsbD 1
def headerCheck (h : List Byte) : Half := halfAt h 10

def sumHalves (bs : List Byte) (i : Nat) : Nat → Half
  | 0 => 0
  | n + 1 => halfAt bs i + sumHalves bs (i + 2) n

/-- The check sum of R23: of the header only step count, flags and label count, the other fields are summed as zero. -/
def checkSum (header steps : List Byte) : Half :=
  halfAt header 8 + halfAt header 12 + halfAt header 14 + sumHalves steps 0 (8 * headerCount header)

/-- Check 6 (R54): the steps, or the index of the first that fails and its code. -/
def checkSteps (st : Settings) (bs : List Byte) (k : Nat) : Nat → Except (ErrorCode × Nat) (List Step)
  | 0 => .ok []
  | n + 1 =>
    match parseStep bs (16 * k) with
    | none => .error (.badStep, k)
    | some p =>
      if st.permitsStep p then
        match checkSteps st bs (k + 1) n with
        | .ok ps => .ok (p :: ps)
        | .error e => .error e
      else .error (.access, k)

/-- Union of the steps' tile sets (R22). -/
def unionTiles (ps : List Step) : TileSet := ps.foldl (fun a p => a ||| p.tiles) 0

/-! ## The control block (R46, R47, 12.2) -/

def parseRights : Nat → Option Rights
  | 0 => some .none | 1 => some .read | 2 => some .write | 3 => some .readWrite | _ => none

/-- Window `a` of the control block; none when its rights code is unlisted and its size is not 0 (R181). -/
def parseAperture (bs : List Byte) (a : Nat) : Option Aperture :=
  let base := wordAt bs (0x10 + 12 * a)
  let size := wordAt bs (0x14 + 12 * a)
  match parseRights (byteAt bs (0x18 + 12 * a)).toNat with
  | some r => some ⟨base, size, r⟩
  | none => if size = 0 then some ⟨base, size, .none⟩ else none

/-- A sync source byte: NONE, a source, or unlisted. -/
def parseSync (b : Byte) : Option (Option EventSource) :=
  if b = 0xFF#8 then some none
  else match EventSource.ofCode b.toNat with
    | some e => some (some e)
    | none => none

def inRange (lo n hi : Nat) : Bool := decide (lo ≤ n) && decide (n ≤ hi)

/-- The ranges of R47 over a parsed block at address `cb`. -/
def Settings.valid (st : Settings) (cb : Word) (area : Word) : Bool :=
  st.normalHead.toNat % 16 == 0 && st.priorityHead.toNat % 16 == 0 &&
  (List.finRange 4).all (fun i => st.apertures[i].valid) &&
  st.permits cb.toNat 128 true false &&
  area.toNat % 64 == 0 && st.permits area.toNat 1536 false true &&
  inRange 0 st.pollMs 1000 && inRange 1 st.replyMs 255 && inRange 1 st.wakeLimit 8 &&
  inRange 10 st.wakeWindowMs 5000 && inRange 0 st.wakeGapMs 1000 && decide (st.wakeGapMs ≤ st.wakeWindowMs) &&
  inRange 1 st.settleMs 1000 && inRange st.settleMs st.readyMs 2000 && inRange 0 st.restMs 2000 &&
  inRange 0 st.minAwakeMs 10000 && inRange 0 st.holdMs 1000

/-- The control block read at START: its settings, or none when it breaks a range of R47. -/
def parseSettings (cb : Word) (bs : List Byte) : Option Settings :=
  match parseAperture bs 0, parseAperture bs 1, parseAperture bs 2, parseAperture bs 3,
      parseSync (byteAt bs 0x54), parseSync (byteAt bs 0x55) with
  | some a0, some a1, some a2, some a3, some s0, some s1 =>
    let area := wordAt bs 0x08
    let st : Settings :=
      { normalHead := wordAt bs 0x00, priorityHead := wordAt bs 0x04, statusArea := some area,
        apertures := #v[a0, a1, a2, a3],
        pollMs := (halfAt bs 0x40).toNat, replyMs := (halfAt bs 0x42).toNat, wakeLimit := (halfAt bs 0x44).toNat,
        wakeWindowMs := (halfAt bs 0x46).toNat, wakeGapMs := (halfAt bs 0x48).toNat, settleMs := (halfAt bs 0x4A).toNat,
        readyMs := (halfAt bs 0x4C).toNat, restMs := (halfAt bs 0x4E).toNat, minAwakeMs := (halfAt bs 0x50).toNat,
        holdMs := (halfAt bs 0x52).toNat, sync0 := s0, sync1 := s1 }
    if st.valid cb area then some st else none
  | _, _, _, _, _, _ => none

/-! ## Result fields, status records and query destinations (12.3 to 12.5) -/

/-- Bytes 0x10 to 0x1F of a descriptor header (R42, R55, R180). -/
def Retirement.bytes (r : Retirement) : List Byte :=
  [errorByte r.code, BitVec.ofNat 8 r.failingStep,
   (match r.failingTile with | some t => BitVec.ofNat 8 t.val | none => 255#8),
   BitVec.ofNat 8 r.tolerated, BitVec.ofNat 8 r.stepsDone, 0, 0, 0] ++ wordBytes r.startedAt ++ wordBytes r.endedAt

/-- The port of a tile number (00_scope.md, Terms). -/
def portOf (t : TileNum) : PortId := if t.val < 12 then .A else .B

def positionOf (t : TileNum) : Position :=
  if h : t.val < 12 then ⟨t.val, h⟩ else ⟨t.val - 12, by omega⟩

def tileOf (p : PortId) (d : Position) : TileNum :=
  match p with
  | .A => ⟨d.val, by omega⟩
  | .B => ⟨d.val + 12, by omega⟩

def PortId.code : PortId → Nat
  | .A => 0 | .B => 1

/-- The fields of an entry that its status record shows, the change count apart; an absent field shows as zero (R18). -/
structure RecordView where
  state : TileState
  shown : Bool
  band : Bool
  inverted : Bool
  armed : Bool
  lastError : Option ErrorCode
  lastFault : BitVec 4
  identity : Identity
  geometry : Geometry
  window : Window
  bandRows : Half × Half
  roll : Roll
  changedAt : Word
  deriving DecidableEq, Repr

def TileEntry.view (e : TileEntry) : RecordView where
  state := e.state
  shown := e.shown.getD false
  band := match e.band with | some b => b.band | none => false
  inverted := e.inverted.getD false
  armed := e.armed
  lastError := e.lastError
  lastFault := e.lastFault
  identity := e.identity.getD ⟨0, 0, 0⟩
  geometry := e.geometry.getD ⟨0, 0, 0⟩
  window := e.window.getD ⟨0, 0, 0, 0⟩
  bandRows := match e.band with | some ⟨_, some r⟩ => r | _ => (0, 0)
  roll := e.roll.getD ⟨0, 0, 0⟩
  changedAt := e.changedAt

def bit (b : Bool) (n : Nat) : Nat := if b then 2 ^ n else 0

/-- Bytes 0x02 to 0x3F of the status record of tile `t` (12.4), the second write of R19. -/
def RecordView.bytes (v : RecordView) (t : TileNum) : List Byte :=
  [BitVec.ofNat 8 v.state.code, BitVec.ofNat 8 (bit v.shown 0 + bit v.band 1 + bit v.inverted 2 + bit v.armed 3),
   errorByte v.lastError, v.lastFault.setWidth 8, BitVec.ofNat 8 (PortId.code (portOf t)),
   BitVec.ofNat 8 (positionOf t).val] ++
  halfBytes v.identity.vendor ++ halfBytes v.identity.model ++ halfBytes v.identity.revision ++
  halfBytes v.geometry.framePeriod ++ halfBytes v.geometry.width ++ halfBytes v.geometry.height ++
  halfBytes v.window.colStart ++ halfBytes v.window.colEnd ++ halfBytes v.window.rowStart ++ halfBytes v.window.rowEnd ++
  halfBytes v.bandRows.1 ++ halfBytes v.bandRows.2 ++
  halfBytes v.roll.top ++ halfBytes v.roll.height ++ halfBytes v.roll.start ++ [0, 0] ++
  wordBytes v.changedAt ++ List.replicate 20 0

/-- The READ ID destination (12.5): six codes from the low halfwords, then port and position, then spare zeros. -/
def readIdBytes (t : TileNum) (ws : List Word) : List Byte :=
  ((List.range 6).map (fun i => halfBytes (lowHalf (ws.getD i 0)))).flatten ++
  [BitVec.ofNat 8 (PortId.code (portOf t)), BitVec.ofNat 8 (positionOf t).val, 0, 0]

/-- The READ STATE destination (12.5): the word as the tile sent it, then the Timebase value at its arrival. -/
def readStateBytes (report now : Word) : List Byte := wordBytes report ++ wordBytes now

/-- A GET segment's words as they are written (R106): RGB24 top byte zero; RGB16 the unused high halfword of the last word
of an odd count zero. -/
def storedWords (f : PixelFormat) (pixels : Nat) (ws : List Word) : List Word :=
  match f with
  | .rgb24 => ws.map (fun w => w &&& 0x00FFFFFF#32)
  | .rgb16 =>
    if pixels % 2 = 0 then ws
    else ws.dropLast ++ (match ws.getLast? with | some w => [w &&& 0x0000FFFF#32] | none => [])

def wordsBytes (ws : List Word) : List Byte := (ws.map wordBytes).flatten

/-- The bytes of a downstream packet on the line (R141, R179, 12.6). -/
def Packet.bytes (p : Packet) : List Byte :=
  let body := [BitVec.ofNat 8 p.kind.code, p.tag ++ p.hop, BitVec.ofNat 8 (bit p.onFrame 0),
    BitVec.ofNat 8 p.payload.length] ++ wordsBytes p.payload
  body ++ halfBytes (crc16 body)

end Sys2Proof.Machine
end

