-- ==== Sys2Proof/Machine/Flags.lean ====
section
/-! DEFINITION. Notices and the interrupt line (R176), the changed-tile set (R21), and the register window as reads show it
(R169, R182). -/

namespace Sys2Proof.Machine

inductive Notice where
  | job | chain | tile | port | engine | refused | linkErr
  deriving DecidableEq, Repr

def NoticeSet.raise (n : NoticeSet) : Notice → NoticeSet
  | .job => { n with job := true }
  | .chain => { n with chain := true }
  | .tile => { n with tile := true }
  | .port => { n with port := true }
  | .engine => { n with engine := true }
  | .refused => { n with refused := true }
  | .linkErr => { n with linkErr := true }

/-- NOTICE and NOTICEEN as read: bits 0 to 6 are the notices; the spare bits 7 to 31 read as 0 (12.7; DESIGN CHOICE, log 40).
-/
def NoticeSet.toWord (n : NoticeSet) : Word :=
  BitVec.ofNat 32 (bit n.job 0 + bit n.chain 1 + bit n.tile 2 + bit n.port 3 + bit n.engine 4 + bit n.refused 5 +
    bit n.linkErr 6)

/-- Bits 0 to 6 as members; what is written to the spare bits 7 to 31 is dropped (R180; DESIGN CHOICE, log 40). -/
def NoticeSet.ofWord (w : Word) : NoticeSet :=
  ⟨w.getLsbD 0, w.getLsbD 1, w.getLsbD 2, w.getLsbD 3, w.getLsbD 4, w.getLsbD 5, w.getLsbD 6⟩

/-- Clears each notice written as 1. -/
def NoticeSet.clearBy (n m : NoticeSet) : NoticeSet :=
  ⟨n.job && !m.job, n.chain && !m.chain, n.tile && !m.tile, n.port && !m.port, n.engine && !m.engine,
   n.refused && !m.refused, n.linkErr && !m.linkErr⟩

/-- The IRQ output: at least one notice both pending and enabled (R176). -/
def State.irq (s : State) : Bool :=
  (s.notice.job && s.noticeEn.job) || (s.notice.chain && s.noticeEn.chain) || (s.notice.tile && s.noticeEn.tile) ||
  (s.notice.port && s.noticeEn.port) || (s.notice.engine && s.noticeEn.engine) ||
  (s.notice.refused && s.noticeEn.refused) || (s.notice.linkErr && s.noticeEn.linkErr)

/-- A notice becomes pending. -/
def State.raise (s : State) (n : Notice) : State := { s with notice := s.notice.raise n }

/-- A tile joins TILECHG, and TILE is raised whether or not it was in the set (R21). -/
def State.joinTileChg (s : State) (t : TileNum) : State :=
  { s with tileChg := s.tileChg ||| (1#24 <<< t.val), notice := s.notice.raise .tile }

/-- ENGSTATE (12.7); the bits its table does not name read as 0. -/
def State.engstateWord (s : State) : Word :=
  BitVec.ofNat 32 (s.engine.code + 2 ^ 3 * s.fault.code + 2 ^ 8 * s.walkerN.state.code + 2 ^ 11 * s.walkerN.cause.code +
    2 ^ 16 * s.walkerP.state.code + 2 ^ 19 * s.walkerP.cause.code + 2 ^ 24 * s.portA.state.code +
    2 ^ 28 * s.portB.state.code)

/-- The value of the register whose word stands at byte offset `off`, 0 where none stands (R169, R182). The spare bits 24 to
31 of TILECHG read as 0 (DESIGN CHOICE, log 40). -/
def State.register (s : State) (off : Nat) : Word :=
  match off / 4 with
  | 0 => s.cbaddr
  | 1 => 0
  | 2 => s.engstateWord
  | 3 => s.walkerN.park
  | 4 => s.walkerP.park
  | 5 => s.notice.toWord
  | 6 => s.noticeEn.toWord
  | 7 => s.tileChg.setWidth 32
  | 8 => 0x00024610#32
  | _ => 0

/-- What a read of `len` bytes at byte offset `off` of the window returns (R182); 0 while RESET_N is low (R178). -/
def State.readRegister (s : State) (off len : Nat) : List Byte :=
  if s.resetLow then List.replicate len 0
  else ((wordBytes (s.register off)).drop (off % 4)).take len

end Sys2Proof.Machine
end

