-- ==== Sys2Proof/Machine/Ops.lean ====
section
/-! DEFINITION. The named operations over State that every meaning is built from: reading and writing one port, walker, job
slot, tile entry or status record; time; tile states (R12); in-flight entries; tile parts; retirement, draining and abort of a
job (R36, R39 to R42). -/

namespace Sys2Proof.Machine

/-! ## One place for each read and write -/

def State.port (s : State) : PortId → Port
  | .A => s.portA
  | .B => s.portB

def State.setPort (s : State) (p : PortId) (v : Port) : State :=
  match p with
  | .A => { s with portA := v }
  | .B => { s with portB := v }

def State.modPort (s : State) (p : PortId) (f : Port → Port) : State := s.setPort p (f (s.port p))

def State.walker (s : State) : Chain → Walker
  | .normal => s.walkerN
  | .priority => s.walkerP

def State.setWalker (s : State) (c : Chain) (w : Walker) : State :=
  match c with
  | .normal => { s with walkerN := w }
  | .priority => { s with walkerP := w }

def State.modWalker (s : State) (c : Chain) (f : Walker → Walker) : State := s.setWalker c (f (s.walker c))

def State.tile (s : State) (t : TileNum) : TileEntry := s.tiles[t]

def State.setTile (s : State) (t : TileNum) (e : TileEntry) : State := { s with tiles := s.tiles.set t e }

def State.modTile (s : State) (t : TileNum) (f : TileEntry → TileEntry) : State := s.setTile t (f (s.tile t))

def State.record (s : State) (t : TileNum) : RecordCtl := s.records[t]

def State.setRecord (s : State) (t : TileNum) (r : RecordCtl) : State := { s with records := s.records.set t r }

def State.modRecord (s : State) (t : TileNum) (f : RecordCtl → RecordCtl) : State := s.setRecord t (f (s.record t))

def State.slot (s : State) (i : SlotNum) : Slot := s.slots[i]

def State.setSlot (s : State) (i : SlotNum) (v : Slot) : State := { s with slots := s.slots.set i v }

def Slot.job? : Slot → Option Job
  | .job j => some j
  | _ => none

/-- The job in a slot. -/
def State.job (s : State) (i : SlotNum) : Option Job := (s.slot i).job?

def State.modJob (s : State) (i : SlotNum) (f : Job → Job) : State :=
  match s.job i with
  | some j => s.setSlot i (.job (f j))
  | none => s

def allSlots : List SlotNum := List.finRange 8
def allTiles : List TileNum := List.finRange 24
def portTiles (p : PortId) : List TileNum := (List.finRange 12).map (tileOf p)

/-- The tiles of a set, in increasing order. -/
def tilesIn (ts : TileSet) : List TileNum := allTiles.filter (fun t => ts.getLsbD t.val)

/-! ## Time (R177) -/

/-- `now` has reached `due`, modulo 2^32: every interval is well below 2^31. -/
def reached (now due : Word) : Bool := decide ((now - due).toNat < 2 ^ 31)

def reachedOpt (now : Word) : Option Word → Bool
  | some d => reached now d
  | none => false

/-- The interval test "now ≥ mark + n". -/
def passed (now mark : Word) (n : Nat) : Bool := decide (n ≤ (now - mark).toNat)

def plusMs (t : Word) (n : Nat) : Word := t + BitVec.ofNat 32 n

/-! ## Engine -/

/-- A fatal fault has been recorded and the engine has not yet reached HALTED (R174). -/
def State.fatal (s : State) : Bool := decide (s.engine = .stopping) && decide (s.fault ≠ .none)

def State.inRunning (s : State) : Bool := decide (s.engine = .running)

def EngineState.isOffOrHalted : EngineState → Bool
  | .off => true
  | .halted => true
  | _ => false

/-! ## Tile states (R12) -/

/-- Present: any state other than ABSENT and LOST. -/
def TileState.present : TileState → Bool
  | .absent | .lost => false
  | _ => true

/-- The entry entering a state, with the effects R12 gives to entering it. The time of last state change is set when the
state field changes. -/
def TileEntry.enter (now : Word) (st : TileState) (e : TileEntry) : TileEntry :=
  let e1 := if e.state = st then e
    else { e with changedAt := now, armed := if e.state = .awake then false else e.armed }
  match st with
  | .absent =>
    { e1 with state := .absent, identity := none, geometry := none, shown := none, band := none, inverted := none,
              window := none, roll := none, wakeAck := none, settleDue := none, readyDue := none, restDue := none,
              lastPixelAck := none, stream := none, armed := false, lastFault := 0 }
  | .lost => { e1 with state := .lost, armed := false, stream := none }
  | .asleep =>
    if e.state = .dozing then
      { e1 with state := .asleep, wakeAck := none, settleDue := none, readyDue := none, restDue := none }
    else { e1 with state := .asleep }
  | .waking => { e1 with state := .waking }
  | .awake => { e1 with state := .awake }
  | .dozing => { e1 with state := .dozing }
  | .faulted => { e1 with state := .faulted }

def State.enterTile (s : State) (t : TileNum) (st : TileState) : State := s.modTile t (TileEntry.enter s.now st)

def State.setError (s : State) (t : TileNum) (c : ErrorCode) : State :=
  s.modTile t (fun e => { e with lastError := some c })

/-! ## In-flight entries (R147) -/

def Owner.slot? : Owner → Option SlotNum
  | .job i _ => some i
  | _ => none

def Entry.isWaiting (e : Entry) : Bool :=
  match e.phase with
  | .awaiting => true
  | .writing _ => false

/-- A WAKE or SLEEP is in flight to the tile (R94). -/
def State.powerInFlight (s : State) (t : TileNum) : Bool :=
  (s.port (portOf t)).inFlight.any (fun e => decide (e.tile = t) && e.kind.isPower)

/-- A SLEEP is in flight to the tile (R76). -/
def State.sleepInFlight (s : State) (t : TileNum) : Bool :=
  (s.port (portOf t)).inFlight.any (fun e => decide (e.tile = t) && decide (e.kind = .sleep))

/-- The job in slot `i` has a packet in flight to tile `t`. -/
def State.hasInFlight (s : State) (i : SlotNum) (t : TileNum) : Bool :=
  (s.port (portOf t)).inFlight.any (fun e => decide (e.tile = t) && decide (e.owner.slot? = some i))

/-- The tag is held by no entry and not quarantined (R79). -/
def Port.tagFree (p : Port) (g : Tag) : Bool :=
  !p.quarantined.getLsbD g.val && !p.inFlight.any (fun e => decide (e.tag = g))

/-- The lowest-numbered free tag (R79). -/
def Port.freeTag (p : Port) : Option Tag := (List.finRange 16).find? p.tagFree

/-- The destination write of an entry in WRITING. -/
def Entry.writeUnderWay (e : Entry) : List CutWrite :=
  match e.phase with
  | .writing w => [⟨e.tag, w⟩]
  | .awaiting => []

/-- The destination write of an entry in WRITING runs on when the entry ends by another cause (R147). -/
def Port.keepWrite (p : Port) (e : Entry) : Port :=
  match e.phase with
  | .writing w => { p with cutWrites := p.cutWrites ++ [⟨e.tag, w⟩] }
  | .awaiting => p

def Port.quarantine (p : Port) (g : Tag) : Port := { p with quarantined := p.quarantined ||| (1#16 <<< g.val) }

/-! ## Tile parts (R29) -/

def Phase.isQueued : Phase → Bool
  | .queued => true
  | _ => false

def Phase.isRunning : Phase → Bool
  | .running => true
  | _ => false

def Phase.isDraining : Phase → Bool
  | .draining => true
  | _ => false

def Phase.isRetiring : Phase → Bool
  | .retiring _ => true
  | _ => false

def Job.step? (j : Job) : Option Step := j.steps[j.current]?

/-- The job is RUNNING and its current step is an engine step. -/
def Job.atEngineStep (j : Job) : Bool :=
  j.phase.isRunning && (match j.step? with | some st => st.kind.isEngine | none => false)

/-- The engine step the job is at is over (R37; log 10). -/
def Job.engineStepDone (j : Job) : Job := { j with engineDone := j.engineDone || j.atEngineStep }

/-- A flag of the job's current step. -/
def Job.flag (f : Step → Bool) (j : Job) : Bool := match j.step? with | some st => f st | none => false

def Job.stepCount (j : Job) : Nat := j.steps.length

def Job.part? (j : Job) (t : TileNum) : Option TilePart := j.parts.find? (fun q => decide (q.tile = t))

def Job.setPart (j : Job) (t : TileNum) (f : TilePart → TilePart) : Job :=
  { j with parts := j.parts.map (fun q => if q.tile = t then f q else q) }

def Job.dropPart (j : Job) (t : TileNum) : Job := { j with parts := j.parts.filter (fun q => decide (q.tile ≠ t)) }

/-- Failed already, with or without packets in flight. -/
def PartCond.hasFailed : PartCond → Bool
  | .failing _ | .draining => true
  | _ => false

/-- The error codes that a tile takes as its last error when its tile part fails (R16); NO_TILE is not among them. -/
def ErrorCode.marksTile : ErrorCode → Bool
  | .tileLost | .notAwake | .tileFault | .badOperand | .timeout | .tileReject | .linkLost | .windowChanged | .busError =>
    true
  | _ => false

def State.markError (s : State) (t : TileNum) (c : ErrorCode) : State := if c.marksTile then s.setError t c else s

/-- The stream open on the tile is marked failed when the job in slot `i` owns it (R108). -/
def TileEntry.failStream (i : SlotNum) (e : TileEntry) : TileEntry :=
  match e.stream with
  | some st => if st.owner = i then { e with stream := some { st with failed := true } } else e
  | none => e

/-- A tile part fails with a code (R34): the tile's last error takes it (R16), its stream is marked failed, its staged words
are discarded (R109). A part that has failed before is left as it is. What the failure does to the job is settled once, at the
end of the event, by `resolveSlot`. -/
def State.failPart (s : State) (i : SlotNum) (t : TileNum) (c : ErrorCode) : State :=
  match (s.job i).bind (fun j => j.part? t) with
  | none => s
  | some q =>
    if q.cond.hasFailed then s
    else
      ((s.markError t c).modTile t (TileEntry.failStream i)).modJob i
        (fun j => j.setPart t (fun q => { q with cond := .failing c, staging := .empty }))

/-! ## Retirement (R41, R42) -/

inductive RetireCause where
  | completed | drained | abortedQueued | skipped
  deriving DecidableEq, Repr

/-- The results of a job entering RETIRING at `now`. -/
def Job.results (j : Job) (cause : RetireCause) (now : Word) : Retirement :=
  let terminalCode : Terminal × Option ErrorCode :=
    match cause with
    | .completed => if j.tolerated = 0 then (.done, none) else (.partly, none)
    | .drained =>
      match j.firstFailure with
      | some f => if f.code = .aborted then (.aborted, some .aborted) else (.failed, some f.code)
      | none => (.failed, none)
    | .abortedQueued => (.aborted, some .aborted)
    | .skipped => (.skipped, none)
  { terminal := terminalCode.1, code := terminalCode.2,
    failingStep := match j.firstFailure with | some f => f.step | none => 0,
    failingTile := match j.firstFailure with | some f => f.tile | none => none,
    tolerated := j.tolerated, stepsDone := j.stepsDone, startedAt := j.startedAt, endedAt := now, stage := .results }

/-- A job enters RETIRING and its first result write begins (R41, R43); after a fatal fault it is abandoned instead, and its
slot is free (R44). -/
def State.enterRetiring (s : State) (i : SlotNum) (cause : RetireCause) : State :=
  match s.job i with
  | none => s
  | some j =>
    if s.fatal then s.setSlot i .free
    else s.setSlot i (.job { j with phase := .retiring (j.results cause s.now), parts := [], pauseDue := none,
                                    engineDone := false })

/-! ## Draining and abort (R36, R40, R165) -/

/-- What is left of a tile part when its job issues nothing more (R36): one with packets in flight keeps them, a candidate
without is withdrawn, and both stay pending (R39, R112); one that waits or has joined ends (log 42). -/
def withdrawPart (inFlight : Bool) (q : TilePart) : Option TilePart :=
  match q.cond with
  | .candidate => some { q with cond := if inFlight then .issued else .withdrawn, staging := .empty }
  | .waiting => none
  | .joined => none
  | .issued => some { q with staging := .empty }
  | .failing _ => some q
  | .draining => some q
  | .withdrawn => some { q with staging := .empty }

/-- The job's WAIT leaves the wait list. -/
def State.dropWait (s : State) (i : SlotNum) : State :=
  { s with waitList := s.waitList.filter (fun w => decide (w.slot ≠ i)) }

/-- The job leaves RUNNING for DRAINING: its unissued tile parts are withdrawn, its WAIT or PAUSE ends (R36, R165). -/
def State.enterDraining (s : State) (i : SlotNum) : State :=
  (s.modJob i (fun j =>
    { j with phase := .draining, pauseDue := none, engineDone := false,
             parts := j.parts.filterMap (fun q => withdrawPart (s.hasInFlight i q.tile) q) })).dropWait i

/-- R40. -/
def State.abortJob (s : State) (i : SlotNum) : State :=
  match s.job i with
  | none => s
  | some j =>
    match j.phase with
    | .queued => (s.modJob i (fun j => { j with abortRequested := true })).enterRetiring i .abortedQueued
    | .running =>
      (s.modJob i (fun j => { j with
        abortRequested := true,
        firstFailure := match j.firstFailure with
          | some f => some f
          | none => some ⟨.aborted, j.current, none⟩ })).enterDraining i
    | .draining => s.modJob i (fun j => { j with abortRequested := true })
    | .retiring _ => s

/-! ## How a meaning ends -/

/-- While RESET_N is held low the part stays in its reset state and ignores everything (R178); otherwise the command has its
effect. -/
def outOfReset (s : State) (effect : State → State) : Outcome :=
  .next (if s.resetLow then s else effect s)

/-- An access of this kind, begun before, is under way without a use. -/
def State.accessCut (s : State) (a : AccessId) : Bool := s.cutAccesses.any (fun v => decide (v.id = a))

/-- The first of them has ended. -/
def State.dropCut (s : State) (a : AccessId) : State :=
  { s with cutAccesses := s.cutAccesses.eraseP (fun v => decide (v.id = a)) }

/-- The end of a shared-memory access. The row names what the access was made for: of the accesses under way for that, the
first begun is the one that ended (DESIGN CHOICE, log 35). One whose result is not used ends without further effect, while
RESET_N is low too (R178). -/
def endOfAccess (a : AccessId) (s : State) (effect : State → State) : Outcome :=
  if s.accessCut a then .next (s.dropCut a) else outOfReset s effect

end Sys2Proof.Machine
end

