-- ==== Sys2Proof/Machine/Wake.lean ====
section
/-! DEFINITION. The Wake Budget Unit: the wake waiting list, eligibility, the budget and its examination (R75, R87 to R91).
The list is a view of the WAKE tile parts that are candidates (R88; log 13). -/

namespace Sys2Proof.Machine

/-- Rank of a job: class, PRIORITY first, then fetch order (R84, R88). -/
def Job.rank (j : Job) : Nat × Nat := (match j.chain with | .priority => 0 | .normal => 2, j.order)

def rankLt (a b : Nat × Nat) : Bool := decide (a.1 < b.1) || (decide (a.1 = b.1) && decide (a.2 < b.2))

/-- The job in slot `i` has a WAKE tile part for `t` that is a candidate. -/
def State.wakeCandidate (s : State) (i : SlotNum) (t : TileNum) : Bool :=
  match s.job i with
  | none => false
  | some j =>
    j.phase.isRunning && (match j.step? with | some st => decide (st.kind = .wake) | none => false) &&
    (match j.part? t with | some q => decide (q.cond = .candidate) | none => false)

/-- The better-ranked of two slots that hold jobs. -/
def State.betterSlot (s : State) (a b : SlotNum) : SlotNum :=
  match s.job a, s.job b with
  | some ja, some jb => if rankLt jb.rank ja.rank then b else a
  | _, _ => a

/-- The owner of the tile's entry on the wake waiting list: the higher-ranked of its WAKE tile parts (R88). -/
def State.wakeOwner (s : State) (t : TileNum) : Option SlotNum :=
  match allSlots.filter (fun i => s.wakeCandidate i t) with
  | [] => none
  | i :: rest => some (rest.foldl s.betterSlot i)

/-- One entry of the wake waiting list. -/
structure WakeEntry where
  tile : TileNum
  owner : SlotNum
  deriving DecidableEq, Repr

def State.wakeEntryRank (s : State) (e : WakeEntry) : Nat × Nat :=
  match s.job e.owner with
  | some j => j.rank
  | none => (3, 0)

/-- Ranked before: class, job age, then the lower tile number (R88). -/
def State.wakeBefore (s : State) (a b : WakeEntry) : Bool :=
  let ra := s.wakeEntryRank a
  let rb := s.wakeEntryRank b
  rankLt ra rb || (decide (ra = rb) && decide (a.tile < b.tile))

def State.insertWake (s : State) (e : WakeEntry) : List WakeEntry → List WakeEntry
  | [] => [e]
  | f :: rest => if s.wakeBefore e f then e :: f :: rest else f :: s.insertWake e rest

/-- The wake waiting list in rank order (R88). -/
def State.wakeList (s : State) : List WakeEntry :=
  allTiles.foldr (fun t l =>
    match s.wakeOwner t with
    | some i => s.insertWake ⟨t, i⟩ l
    | none => l) []

/-- Conditions 1 to 6 of R71 for an entry whose tile is `t`. -/
def State.openFor (s : State) (t : TileNum) : Bool :=
  (decide (s.engine = .running) || decide (s.engine = .stopping)) &&
  decide ((s.port (portOf t)).state = .up) &&
  (s.tile t).state.present &&
  (s.port (portOf t)).freeTag.isSome &&
  decide ((s.tile t).credits < 4) &&
  !(s.tile t).configInFlight

def State.txFree (s : State) (p : PortId) : Bool := (s.port p).transmitting.isNone

/-- The budget is open (R89). -/
def State.budgetOpen (s : State) : Bool :=
  decide (s.wakeHistory.length < s.settings.wakeLimit) &&
  (match s.wakeHistory.getLast? with
   | none => true
   | some m => passed s.now m s.settings.wakeGapMs)

/-- An examination of the list: the WAKE it presents (R89). -/
def State.examination (s : State) : Option TileNum :=
  if s.budgetOpen then
    (s.wakeList.find? (fun e => s.openFor e.tile && s.txFree (portOf e.tile))).map (fun e => e.tile)
  else none

def State.examineWakes (s : State) : State := { s with wakePresented := s.examination }

/-- Between two states, an entry has been added or has a new owner, an entry has become eligible, or the transmitter of an
eligible entry's port has become free: the events at which R89 examines the list. -/
def wakeExaminationDue (before s : State) : Bool :=
  allTiles.any (fun t =>
    match s.wakeOwner t with
    | none => false
    | some i =>
      decide (before.wakeOwner t ≠ some i) ||
      (s.openFor t && (!before.openFor t || (s.txFree (portOf t) && !before.txFree (portOf t)))))

end Sys2Proof.Machine
end

