-- ==== Sys2Proof/Machine/Jobs.lean ====
section
/-! DEFINITION. The Job Engine: a step becomes current (R28, R30, R31), tile parts are judged again (R32, R69, R94), complete
(R33, R99) and fail (R35, R36), steps and jobs go on (R37), occurrences are delivered (R161, R163, R167, R168), and what one
event leaves to do is settled (`settle`, `finish`). -/

namespace Sys2Proof.Machine

/-! ## Judgement (R30, R31, R94) -/

inductive Verdict where
  | fail (c : ErrorCode)
  | candidate
  | waits
  | joined
  | completes
  deriving DecidableEq, Repr

/-- Check 4 of R30: the operands fit the tile. -/
def operandsFit (e : TileEntry) (st : Step) : Bool :=
  match st.kind with
  | .window =>
    match e.geometry with
    | none => false
    | some g =>
      decide ((lowHalf st.x).toNat ≤ (highHalf st.x).toNat) && decide ((highHalf st.x).toNat < g.width.toNat) &&
      decide ((lowHalf st.y).toNat ≤ (highHalf st.y).toNat) && decide ((highHalf st.y).toNat < g.height.toNat)
  | .band =>
    if st.x = 0 then true
    else match e.geometry with
      | none => false
      | some g => decide ((lowHalf st.y).toNat < g.height.toNat) && decide ((highHalf st.y).toNat < g.height.toNat)
  | .rollArea =>
    match e.geometry with
    | none => false
    | some g =>
      decide (1 ≤ (lowHalf st.y).toNat) && decide ((lowHalf st.x).toNat + (lowHalf st.y).toNat ≤ g.height.toNat)
  | .rollTo =>
    match e.roll with
    | none => false
    | some r =>
      decide (r.top.toNat ≤ (lowHalf st.x).toNat) && decide ((lowHalf st.x).toNat < r.top.toNat + r.height.toNat)
  | _ => true

/-- The checks of R30 in their order; none when all pass. -/
def entryCheck (e : TileEntry) (st : Step) : Option ErrorCode :=
  if e.state = .absent then some .noTile
  else if e.state = .lost then some .tileLost
  else if e.state = .faulted ∧ st.kind.allowedOnFaulted = false then some .tileFault
  else if operandsFit e st = false then some .badOperand
  else none

/-- The table of R31, for a tile that passed R30. -/
def disposition (k : StepKind) (ts : TileState) : Verdict :=
  match k with
  | .wake =>
    match ts with
    | .asleep => .candidate
    | .waking => .joined
    | .awake => .completes
    | _ => .waits
  | .sleep =>
    match ts with
    | .asleep => .completes
    | .waking => .waits
    | .dozing => .completes
    | _ => .candidate
  | .put | .get =>
    match ts with
    | .asleep => .fail .notAwake
    | .waking => .waits
    | .dozing => .fail .notAwake
    | _ => .candidate
  | .readId | .readState => .candidate
  | _ =>
    match ts with
    | .waking => .waits
    | .dozing => .waits
    | _ => .candidate

/-- Judgement of a tile part: R30, then R94's hold behind a power packet in flight, then R31. -/
def State.judge (s : State) (st : Step) (t : TileNum) : Verdict :=
  match entryCheck (s.tile t) st with
  | some c => .fail c
  | none => if st.kind.isPower && s.powerInFlight t then .waits else disposition st.kind (s.tile t).state

/-- Staging starts when a PUT tile part becomes a candidate (R109). -/
def stagingFor (k : StepKind) : Staging := if k = .put then .reading else .empty

/-! ## Completion and failure (R33 to R36, R99) -/

/-- No other job has a tile part for the tile among its pending tile parts (R99). A part that fails at the event itself counts
as pending still (R33, R113; DESIGN CHOICE, log 36). -/
def State.noOtherPart (s : State) (i : SlotNum) (t : TileNum) : Bool :=
  allSlots.all (fun k => decide (k = i) ||
    (match s.job k with | some j => (j.part? t).isNone | none => true))

/-- The conditions of R99 under which the completed tile part arms its tile's auto-sleep. -/
def State.armsAutoSleep (s : State) (i : SlotNum) (j : Job) (t : TileNum) : Bool :=
  j.flag Step.sleepAfter &&
  s.inRunning && !j.abortRequested && decide ((s.tile t).state = .awake) && s.noOtherPart i t

/-- A tile part completes successfully: it leaves the pending tile parts (R33) and may arm the auto-sleep (R99). -/
def State.completePart (s : State) (i : SlotNum) (t : TileNum) : State :=
  match s.job i with
  | none => s
  | some j =>
    match j.part? t with
    | none => s
    | some q =>
      if q.cond.hasFailed then s
      else
        let s1 := s.modJob i (fun j => j.dropPart t)
        if s.armsAutoSleep i j t then s1.modTile t (fun e => { e with armed := true }) else s1

/-- Of the parts that failed at this event, the one with the lowest tile number (R36). -/
def lowestFailing : List TilePart → Option (TileNum × ErrorCode)
  | [] => none
  | q :: rest =>
    match q.cond, lowestFailing rest with
    | .failing c, some (t, c') => if q.tile < t then some (q.tile, c) else some (t, c')
    | .failing c, none => some (q.tile, c)
    | _, r => r

def countFailing (ps : List TilePart) : Nat :=
  (ps.filter (fun q => match q.cond with | .failing _ => true | _ => false)).length

/-- A failed part at the event's end: draining while it has packets in flight, gone when it has none (R34). -/
def settlePart (inFlight : Bool) (q : TilePart) : Option TilePart :=
  if q.cond.hasFailed then (if inFlight then some { q with cond := .draining, staging := .empty } else none)
  else some q

/-- The job's part in the failures of one event (R35, R36): a TOLERANT step counts each, any other records the lowest tile's
failure and drains. A job that is no longer RUNNING records nothing. -/
def State.resolveSlot (s : State) (i : SlotNum) : State :=
  match s.job i with
  | none => s
  | some j =>
    let tidy (s : State) : State :=
      s.modJob i (fun j => { j with parts := j.parts.filterMap (fun q => settlePart (s.hasInFlight i q.tile) q) })
    match j.phase.isRunning, lowestFailing j.parts with
    | true, some (t, c) =>
      if j.flag Step.tolerant then
        tidy (s.modJob i (fun j => { j with tolerated := min 255 (j.tolerated + countFailing j.parts) }))
      else
        tidy ((s.modJob i (fun j => { j with firstFailure := some ⟨c, j.current, some t⟩ })).enterDraining i)
    | _, _ => tidy s

def State.resolveAll (s : State) : State := allSlots.foldl State.resolveSlot s

/-- An engine step fails its job, with failing tile 255 (R36). -/
def State.failEngineStep (s : State) (i : SlotNum) (c : ErrorCode) : State :=
  (s.modJob i (fun j => { j with firstFailure := some ⟨c, j.current, none⟩ })).enterDraining i

/-! ## Judging again (R32, R69, R94) -/

/-- One tile part of a RUNNING job judged again at a change of its tile's state. A stream whose segments have all issued can
only fail by it (R69, R115); an issued packet of another kind is not judged. -/
def State.rejudgePart (s : State) (i : SlotNum) (t : TileNum) : State :=
  match s.job i with
  | none => s
  | some j =>
    match j.phase.isRunning, j.step?, j.part? t with
    | true, some st, some q =>
      let put (c : PartCond) (g : Staging) : State :=
        s.modJob i (fun j => j.setPart t (fun q => { q with cond := c, staging := g }))
      match q.cond with
      | .candidate =>
        match s.judge st t with
        | .fail c => s.failPart i t c
        | .candidate => s
        | .waits => put .waiting .empty
        | .joined => put .joined .empty
        | .completes => s.completePart i t
      | .waiting | .joined =>
        match s.judge st t with
        | .fail c => s.failPart i t c
        | .candidate => put .candidate (stagingFor st.kind)
        | .waits => put .waiting .empty
        | .joined => put .joined .empty
        | .completes => s.completePart i t
      | .issued =>
        if st.kind.isStream then
          match s.judge st t with
          | .fail c => s.failPart i t c
          | _ => s
        else s
      | .failing _ => s
      | .draining => s
      | .withdrawn => s
    | _, _, _ => s

def State.rejudgeTile (s : State) (t : TileNum) : State := allSlots.foldl (fun s i => s.rejudgePart i t) s

/-- At each event that changes the state of a tile, its tile parts are judged again (R32, R69). -/
def State.rejudgeChanged (before s : State) : State :=
  allTiles.foldl (fun s t => if (before.tile t).state = (s.tile t).state then s else s.rejudgeTile t) s

/-- At the end of a WAKE or SLEEP transaction the power tile parts that wait for its tile are judged again, whether or not the
tile's state changed (R94). -/
def State.rejudgePowerWaits (s : State) (t : TileNum) : State :=
  allSlots.foldl (fun s i =>
    match s.job i with
    | none => s
    | some j =>
      match j.step?, j.part? t with
      | some st, some q => if st.kind.isPower ∧ q.cond = .waiting then s.rejudgePart i t else s
      | _, _ => s) s

/-! ## Occurrences (R161, R163, R168) -/

/-- Delivers an occurrence: to the sync outputs that select the source, while the engine is RUNNING or STOPPING, and to every
WAIT in the list for it; those WAITs leave the list and their steps are over. -/
def State.occur (s : State) (src : EventSource) : State :=
  let pulses := decide (s.engine = .running) || decide (s.engine = .stopping)
  let listening := s.waitList.filter (fun w => decide (w.source = src))
  let s1 : State :=
    { s with
      sync0 := s.sync0 || (pulses && decide (s.settings.sync0 = some src)),
      sync1 := s.sync1 || (pulses && decide (s.settings.sync1 = some src)),
      waitList := s.waitList.filter (fun w => decide (w.source ≠ src)) }
  listening.foldl (fun s w => s.modJob w.slot Job.engineStepDone) s1

/-! ## A step becomes current (R28) -/

/-- One tile part of a step that becomes current: the auto-sleep of its tile is disarmed (R100) and the part is judged. -/
def State.startPart (s : State) (i : SlotNum) (st : Step) (t : TileNum) : State :=
  let s0 := s.modTile t (fun e => { e with armed := false })
  let add (s : State) (c : PartCond) (g : Staging) : State :=
    s.modJob i (fun j => { j with parts := j.parts ++ [⟨t, c, g⟩] })
  match s0.judge st t with
  | .fail c => add (s0.markError t c) (.failing c) .empty
  | .candidate => add s0 .candidate (stagingFor st.kind)
  | .waits => add s0 .waiting .empty
  | .joined => add s0 .joined .empty
  | .completes => s0

/-- The job's current step becomes current: tile parts in increasing tile order, or the engine step is begun (R163, R166,
R167). -/
def State.stepCurrent (s : State) (i : SlotNum) : State :=
  match (s.job i).bind Job.step? with
  | none => s
  | some st =>
    match st.kind with
    | .wait =>
      match EventSource.ofCode st.x.toNat with
      | some src => { s with waitList := s.waitList ++ [⟨i, src, plusMs s.now (lowHalf st.y).toNat⟩] }
      | none => s
    | .pause => s.modJob i (fun j => { j with pauseDue := some (plusMs s.now (lowHalf st.x).toNat) })
    | .mark => (s.occur (.mark (Fin.ofNat 4 st.x.toNat))).modJob i Job.engineStepDone
    | _ => ((tilesIn st.tiles).foldl (fun s t => s.startPart i st t) s).resolveSlot i

/-- The current step is over: every tile part has left, or the engine step has completed (R37). -/
def Job.stepOver (j : Job) : Bool :=
  j.phase.isRunning &&
  (match j.step? with
   | none => false
   | some st => if st.kind.isEngine then j.engineDone else j.parts.isEmpty)

/-- A step completes: steps done rises, and the next step becomes current or the job enters RETIRING (R37). -/
def State.completeStep (s : State) (i : SlotNum) : State :=
  match s.job i with
  | none => s
  | some j =>
    let s1 := s.modJob i (fun j => { j with stepsDone := j.stepsDone + 1, engineDone := false })
    if j.current + 1 < j.stepCount then
      (s1.modJob i (fun j => { j with current := j.current + 1 })).stepCurrent i
    else s1.enterRetiring i .completed

def State.readySlots (s : State) : List SlotNum :=
  allSlots.filter (fun i => match s.job i with | some j => j.stepOver | none => false)

/-- The current step of the job in slot `i` is a WAIT. -/
def State.atWait (s : State) (i : SlotNum) : Bool :=
  match (s.job i).bind Job.step? with
  | some st => decide (st.kind = .wait)
  | none => false

/-- The jobs that can go on next: an occurrence completes every WAIT that listens for it, and their jobs go on, before the
MARK that brought it about completes, or any other step does (R161, R163, R167). -/
def State.nextSlots (s : State) : List SlotNum :=
  match s.readySlots.filter s.atWait with
  | [] => s.readySlots
  | waits => waits

/-- Steps still to complete, over all slots: how often `advance` can go round. -/
def State.stepsLeft (s : State) : Nat :=
  (allSlots.map (fun i => match s.job i with | some j => j.stepCount - j.current | none => 0)).sum

/-- Jobs whose step is over go on, one at a time, until none is left; where several can go on next, which goes first is a free
value (log 10). -/
def State.advance : Nat → State → State
  | 0, s => s
  | n + 1, s =>
    match s.nextSlots with
    | [] => s
    | [i] => State.advance n (s.completeStep i)
    | i :: j :: rest =>
      let l := i :: j :: rest
      let k := l.getD (Config.completionOrder s.choices % l.length) i
      State.advance n (({ s with choices := s.choices + 1 }).completeStep k)

/-! ## Streams close (R108, R112) -/

/-- The stream's tile part may still send or be acknowledged: its job is RUNNING and the part has not failed. -/
def State.streamLive (s : State) (i : SlotNum) (t : TileNum) : Bool :=
  match s.job i with
  | none => false
  | some j =>
    j.phase.isRunning &&
    (match j.part? t with | some q => decide (q.cond = .candidate) || decide (q.cond = .issued) | none => false)

/-- A stream that has stopped or completed closes when none of its segments is in flight. -/
def State.closeStream (s : State) (t : TileNum) : State :=
  match (s.tile t).stream with
  | none => s
  | some st =>
    if s.streamLive st.owner t || s.hasInFlight st.owner t then s
    else s.modTile t (fun e => { e with stream := none })

def State.closeStreams (s : State) : State := allTiles.foldl State.closeStream s

/-! ## Staging reads (R109) -/

/-- The stream of the job in slot `i` is open on the tile. -/
def State.ownStream (s : State) (i : SlotNum) (t : TileNum) : Option Stream :=
  match (s.tile t).stream with
  | none => none
  | some st => if st.owner = i then some st else none

/-- The words of the segment that slot `i` stages next for tile `t` (R109). -/
def State.nextSegmentWords (s : State) (i : SlotNum) (t : TileNum) (st : Step) : Nat :=
  let sent := match s.ownStream i t with | some r => r.sent | none => 0
  wordsOf st.format (segmentPixels st.format st.pixelCount sent)

/-- The staging read of slot `i` for tile `t` in step `st`: the words of the segment to be sent next. -/
def State.stagingRead (s : State) (i : SlotNum) (t : TileNum) (st : Step) : StoppedRead :=
  let sent := match s.ownStream i t with | some r => r.sent | none => 0
  { slot := i, tile := t, addr := st.x + BitVec.ofNat 32 (4 * wordIndex st.format sent),
    len := 4 * s.nextSegmentWords i t st }

/-- The staging reads of the job in slot `i`. -/
def State.stagingReads (s : State) (i : SlotNum) : List StoppedRead :=
  match s.job i with
  | none => []
  | some j =>
    match j.step? with
    | none => []
    | some st => (j.parts.filter (fun q => decide (q.staging = .reading))).map (fun q => s.stagingRead i q.tile st)

/-- The job in the slot is still the same job at the same step, and the tile's part is still reading. -/
def State.stillReading (before s : State) (r : StoppedRead) : Bool :=
  match before.job r.slot, s.job r.slot with
  | some j, some k =>
    decide (k.order = j.order) && decide (k.current = j.current) &&
    (match k.part? r.tile with | some q => decide (q.staging = .reading) | none => false)
  | _, _ => false

/-- The staging reads that the event has stopped run on to their end (R109). -/
def State.keepStoppedReads (before s : State) : State :=
  { s with stoppedReads := s.stoppedReads ++
      ((allSlots.map before.stagingReads).flatten.filter (fun r => !State.stillReading before s r)) }

/-! ## The end of an event -/

/-- What an event leaves to the Job Engine: tile parts of tiles whose state changed are judged again, failures are counted or
recorded, streams close, and steps that are over go on. -/
def settle (before s : State) : State :=
  let s1 := (State.rejudgeChanged before s).resolveAll.closeStreams
  State.advance s1.stepsLeft s1

/-- Record changes mark a rewrite at these times (R18): RUNNING or STOPPING, or STARTING once its status-record phase has
begun, with a status area held and no fatal fault. -/
def State.marksRewrites (s : State) : Bool :=
  s.settings.statusArea.isSome && !s.fatal &&
  (match s.engine with
   | .running => true
   | .stopping => true
   | .starting .statusRecords => true
   | .starting .ports => true
   | _ => false)

/-- A record change of the tile: the record is marked, or the tile joins TILECHG at once (R18, R21). -/
def State.recordChange (s : State) (t : TileNum) : State :=
  if s.marksRewrites then s.modRecord t (fun r => { r with markChange := true }) else s.joinTileChg t

/-- Every tile whose record shows other values than before the event (R18). -/
def State.noteRecordChanges (before s : State) : State :=
  allTiles.foldl (fun s t => if (before.tile t).view = (s.tile t).view then s else s.recordChange t) s

/-- The System Port's, the Tile Manager's and the Wake Budget Unit's part in the end of an event. -/
def commit (before s : State) : State :=
  let s1 := State.noteRecordChanges before (State.keepStoppedReads before s)
  if wakeExaminationDue before s1 then s1.examineWakes else s1

def finish (before s : State) : State := commit before (settle before s)

end Sys2Proof.Machine
end

