-- ==== Sys2Proof/Machine/Accesses.lean ====
section
/-! DEFINITION. The shared-memory accesses under way (R19, R43, R52 to R56, R59, R109, R147, R152, R171), each with what it is
made for, and those that run on when that is over (R178). Shared memory is the host's and lies outside State (log 5). -/

namespace Sys2Proof.Machine

def takenWord : Word := 2

/-- The head field of the chain in the control block (12.2). -/
def headField : Chain → Word
  | .normal => 0x00
  | .priority => 0x04

/-- A retirement's write under way: the result fields at 0x10 to 0x1F, or the state word at 0x04 (R43, R55, 12.3). -/
def Retirement.write (at_ : Word) (r : Retirement) : MemAccess :=
  match r.stage with
  | .results => .write (at_ + 0x10) r.bytes
  | .stateWord => .write (at_ + 0x04) (wordBytes (BitVec.ofNat 32 r.terminal.code))

def WalkerWork.accesses (c : Chain) : WalkerWork → List Access
  | .readHeader a => [⟨.header c, .read a 32⟩]
  | .readSteps a h => [⟨.stepRecords c, .read (a + 32) (16 * headerCount h)⟩]
  | .rescanLink a => [⟨.rescan c, .read a 4⟩]
  | .rescanHeader a => [⟨.header c, .read a 32⟩]
  | .takenWrite d _ => [⟨.taken c, .write (d.addr + 0x04) (wordBytes takenWord)⟩]
  | .retire d => [⟨.directRetirement c, d.results.write d.addr⟩]
  | .none => []
  | .held _ _ => []

def Slot.accesses (i : SlotNum) : Slot → List Access
  | .job j =>
    (match j.phase with
     | .retiring r => [⟨match r.stage with | .results => .results i | .stateWord => .stateWord i, r.write j.addr⟩]
     | _ => [])
  | _ => []

/-- The record of tile `t` begins 64 t bytes into the status area (R18, 12.4). -/
def State.recordAccesses (s : State) (t : TileNum) : List Access :=
  match (s.record t).rewrite with
  | none => []
  | some w =>
    let base := w.area + BitVec.ofNat 32 (64 * t.val)
    match w.stage with
    | .fields bs => [⟨.record t, .write (base + 2) bs⟩]
    | _ => [⟨.record t, .write base (halfBytes (s.tile t).changeCount)⟩]

def StoppedRead.access (r : StoppedRead) : Access := ⟨.staging r.slot r.tile, .read r.addr r.len⟩

def CutWrite.access (p : PortId) (w : CutWrite) : Access := ⟨.destination p w.tag, .write w.write.addr w.write.bytes⟩

def Entry.accesses (p : PortId) (e : Entry) : List Access :=
  match e.phase with
  | .writing w => [CutWrite.access p ⟨e.tag, w⟩]
  | .awaiting => []

def State.portAccesses (s : State) (p : PortId) : List Access :=
  (s.port p).cutWrites.map (CutWrite.access p) ++ ((s.port p).inFlight.map (Entry.accesses p)).flatten

/-- The accesses under way but for `cutAccesses`. -/
def State.ownAccesses (s : State) : List Access :=
  (if s.cbRead then [⟨.controlBlock, .read s.cbaddr 128⟩] else []) ++
  s.walkerN.work.accesses .normal ++ s.walkerP.work.accesses .priority ++
  (allSlots.map (fun i => (s.slot i).accesses i)).flatten ++ (allTiles.map s.recordAccesses).flatten ++
  (s.stoppedReads ++ (allSlots.map s.stagingReads).flatten).map StoppedRead.access ++
  s.portAccesses .A ++ s.portAccesses .B

/-- Every shared-memory access under way; of those made for one thing, in the order they were begun. -/
def State.accesses (s : State) : List Access := s.cutAccesses ++ s.ownAccesses

/-- A control-block read under way, whose result is then not used. -/
def State.cutControlBlockRead (s : State) : State :=
  if s.cbRead then
    { s with cbRead := false, cutAccesses := s.cutAccesses ++ [⟨.controlBlock, .read s.cbaddr 128⟩] }
  else s

/-- The walker's access under way, whose result is then not used. -/
def State.cutWalkerAccess (s : State) (c : Chain) : State :=
  { s with cutAccesses := s.cutAccesses ++ (s.walker c).work.accesses c }

end Sys2Proof.Machine
end

