-- ==== Sys2Proof/Machine/Scheduler.lean ====
section
/-! DEFINITION. The Transaction Scheduler of a port: candidates, gates, ranking and issue (R68 to R86, R90, R109, R110), and
the meanings of PACKET_ISSUE, TRANSMISSION_END, STAGING_READ_DONE, SLEEP_GATE_OPEN and READY_GATE_OPEN. -/

namespace Sys2Proof.Machine

/-- An entry of the candidate set (R68). No slot stands for owner AUTOSLEEP. `cls` is 0 for PRIORITY, 1 for AUTOSLEEP, 2 for
NORMAL, as R84 ranks them. -/
structure Cand where
  slot : Option SlotNum
  tile : TileNum
  kind : StepKind
  cls : Nat
  order : Nat
  deriving DecidableEq, Repr

/-- The candidates of the job in slot `i` on port `p`. -/
def State.jobCandidates (s : State) (p : PortId) (i : SlotNum) : List Cand :=
  match s.job i with
  | none => []
  | some j =>
    match j.phase.isRunning, j.step? with
    | true, some st =>
      (j.parts.filter (fun q => decide (q.cond = .candidate) && decide (portOf q.tile = p))).map
        (fun q => ⟨some i, q.tile, st.kind, j.rank.1, j.order⟩)
    | _, _ => []

/-- The auto-sleep offers of port `p` (R70). -/
def State.offers (s : State) (p : PortId) : List Cand :=
  ((portTiles p).filter (fun t => (s.tile t).armed)).map (fun t => ⟨none, t, .sleep, 1, 0⟩)

/-- The candidate set of port `p` (R68; log 13). -/
def State.candidates (s : State) (p : PortId) : List Cand :=
  (allSlots.map (s.jobCandidates p)).flatten ++ s.offers p

/-! ## Gates -/

/-- Minimum-awake gate (R74, R95, R98). -/
def State.minAwakeGate (s : State) (t : TileNum) : Bool :=
  let e := s.tile t
  decide (e.state = .faulted) ||
  (match e.wakeAck with
   | none => true
   | some m => e.minAwakeOpen || passed s.now m s.settings.minAwakeMs)

/-- Hold gate (R74, R95, R98). -/
def State.holdGate (s : State) (t : TileNum) : Bool :=
  let e := s.tile t
  match e.lastPixelAck with
  | none => true
  | some m => e.holdOpen || passed s.now m s.settings.holdMs

/-- The PIXREAD gate (R76, R95). -/
def State.readyGate (s : State) (t : TileNum) : Bool :=
  let e := s.tile t
  match e.readyDue with
  | none => false
  | some d => e.readyOpen || reached s.now d

/-- The three SLEEP gates of R74. -/
def State.sleepGates (s : State) (t : TileNum) : Bool :=
  decide ((s.tile t).credits = 0) && s.minAwakeGate t && s.holdGate t

def State.chainOf (s : State) (i : SlotNum) : Option Chain := (s.job i).map (fun j => j.chain)

/-- A priority-chain stream is open on the tile (R77). -/
def State.priorityStreamOpen (s : State) (t : TileNum) : Bool :=
  match (s.tile t).stream with
  | none => false
  | some st => decide (s.chainOf st.owner = some .priority)

/-- A normal-chain stream entry for the tile yields (R78). -/
def State.yields (s : State) (t : TileNum) : Bool :=
  (s.candidates (portOf t)).any (fun c => decide (c.tile = t) && decide (c.cls = 0) && !c.kind.isStream) ||
  (s.port (portOf t)).inFlight.any (fun e => decide (e.tile = t) && e.kind.isConfig &&
    (match e.owner.slot? with | some i => decide (s.chainOf i = some .priority) | none => false))

/-- The stream gates of R77 and R78, for the stream of slot `i`. -/
def State.streamGates (s : State) (i : SlotNum) (c : Cand) : Bool :=
  decide ((s.tile c.tile).state = .awake) && !s.sleepInFlight c.tile &&
  ((s.tile c.tile).stream.isNone || (s.ownStream i c.tile).isSome) &&
  !(decide (c.cls = 2) && s.yields c.tile)

/-- The next segment of slot `i` on the tile is staged (R109). -/
def State.staged (s : State) (i : SlotNum) (t : TileNum) : Option (List Word) :=
  match (s.job i).bind (fun j => j.part? t) with
  | none => none
  | some q => match q.staging with | .staged ws => some ws | _ => none

/-- The packets of the current step of the job in slot `i` carry ON_FRAME (R126). -/
def State.onFrameStep (s : State) (i : SlotNum) : Bool :=
  match (s.job i).bind Job.step? with | some st => st.onFrame | none => false

/-- An ON_FRAME display entry is held behind a SLEEP in flight to its tile. R71 gives it no gate, and by R128 "A WAKE is the one
power packet that may be in flight with an ON_FRAME display packet": whether it is held is a free value (log 37). -/
def State.heldBehindSleep (s : State) (c : Cand) : Bool :=
  match c.slot with
  | none => false
  | some i => c.kind.isDisplay && s.onFrameStep i && s.sleepInFlight c.tile && Config.onFrameWaitsForSleep

/-- The gates of its kind (R71's table). -/
def State.kindGates (s : State) (c : Cand) : Bool :=
  match c.slot with
  | none => s.sleepGates c.tile && (s.tile c.tile).stream.isNone
  | some i =>
    match c.kind with
    | .wake => decide (s.wakePresented = some c.tile) && s.budgetOpen && decide (s.wakeOwner c.tile = some i)
    | .sleep => s.sleepGates c.tile
    | .window | .band | .rollArea => decide ((s.tile c.tile).credits = 0)
    | .put => s.streamGates i c && (s.staged i c.tile).isSome
    | .get => s.streamGates i c && s.readyGate c.tile
    | _ => true

/-- R71, with R77's bar on NORMAL and AUTOSLEEP work behind a priority stream. -/
def State.issuable (s : State) (c : Cand) : Bool :=
  s.openFor c.tile && (decide (c.cls = 0) || !s.priorityStreamOpen c.tile) && s.kindGates c

/-! ## The arbiter (R83, R84) -/

/-- The keys of R84 but for the tile number: class, a presented WAKE first in its class, job age. -/
def Cand.rank (c : Cand) : Nat × Nat := (2 * c.cls + (if c.kind = .wake then 0 else 1), c.order)

/-- Ranked before, by R84. -/
def Cand.before (a b : Cand) : Bool :=
  rankLt a.rank b.rank || (decide (a.rank = b.rank) && decide (a.tile < b.tile))

def bestCand : List Cand → Option Cand
  | [] => none
  | c :: rest =>
    match bestCand rest with
    | none => some c
    | some d => if d.before c then some d else some c

/-- The entry the arbiter of port `p` picks: the highest-ranked of those issuable (R83, R84), less what R128 may hold. -/
def State.arbiterPick (s : State) (p : PortId) : Option Cand :=
  bestCand ((s.candidates p).filter (fun c => s.issuable c && !s.heldBehindSleep c))

/-! ## The issue (R80, R81) -/

/-- What one packet carries. -/
structure Shape where
  kind : PacketKind
  onFrame : Bool
  payload : List Word
  x : Word
  y : Word
  first : Nat
  pixels : Nat
  format : PixelFormat
  deriving DecidableEq, Repr

/-- The packet of a step kind that is not a stream. -/
def settingShape (st : Step) : Shape :=
  let k := st.kind.packet
  { kind := k, onFrame := st.onFrame, payload := settingPayload k st.x st.y, x := st.x, y := st.y, first := 0, pixels := 0,
    format := .rgb16 }

/-- The next segment of a stream (R107, R110, R116): PIXSTART opens, PIXMORE continues, PIXSEEK resumes a broken stream, and a
GET sends PIXREAD. -/
def segmentShape (st : Step) (own : Option Stream) (words : List Word) : Shape :=
  let sent := match own with | some r => r.sent | none => 0
  let px := segmentPixels st.format st.pixelCount sent
  let kind : PacketKind :=
    if st.kind = .get then .pixRead
    else match own with
      | none => .pixStart
      | some r => if r.broken then .pixSeek else .pixMore
  let offset := if kind = .pixSeek ∨ kind = .pixRead then sent else 0
  let control := pixelControl st.format offset px
  { kind := kind, onFrame := false, payload := control :: (if kind = .pixRead then [] else words), x := st.x, y := st.y,
    first := sent, pixels := px, format := st.format }

/-- The stream field after a segment of `px` pixels has issued (R108, R110). -/
def streamAfterIssue (i : SlotNum) (k : StepKind) (own : Option Stream) (px : Nat) : Stream :=
  match own with
  | none => { owner := i, kind := if k = .put then .put else .get, sent := px, acked := 0, broken := false, failed := false }
  | some r => { r with sent := r.sent + px, broken := false }

/-- An open PUT stream that another owner's packet passes is broken (R110). -/
def TileEntry.breakStream (owner : Option SlotNum) (e : TileEntry) : TileEntry :=
  match e.stream with
  | some st =>
    if st.kind = .put ∧ owner ≠ some st.owner then { e with stream := some { st with broken := true } } else e
  | none => e

/-- The port and tile side of an issue (R80): tag, in-flight entry, credit, config in flight, and the transmitter. -/
def State.issuePacket (s : State) (p : PortId) (t : TileNum) (tag : Tag) (owner : Owner) (sh : Shape) : State :=
  let extra := if sh.onFrame then
      (match (s.tile t).geometry with | some g => g.framePeriod.toNat | none => 0) else 0
  let entry : Entry :=
    { tag := tag, tile := t, owner := owner, kind := sh.kind, issueTime := s.now,
      deadline := some (plusMs s.now (s.settings.replyMs + extra)), phase := .awaiting, x := sh.x, y := sh.y,
      first := sh.first, pixels := sh.pixels, format := sh.format }
  let packet : Packet :=
    { kind := sh.kind, hop := BitVec.ofNat 4 (positionOf t).val, tag := BitVec.ofNat 4 tag.val, onFrame := sh.onFrame,
      payload := sh.payload }
  let s1 := s.modPort p (fun v => { v with inFlight := v.inFlight ++ [entry], transmitting := some packet })
  s1.modTile t (fun e =>
    ({ e with credits := e.credits + 1, configInFlight := e.configInFlight || sh.kind.isConfig }).breakStream owner.slot?)

/-- The owner's side for a stream segment (R81, R108, R109): the last segment takes the part out of the candidate set, an
earlier one starts the staging of the next. -/
def State.segmentIssued (s : State) (i : SlotNum) (t : TileNum) (st : Step) (own : Option Stream) (px : Nat) : State :=
  let after := streamAfterIssue i st.kind own px
  let isLast := decide (st.pixelCount ≤ after.sent)
  (s.modTile t (fun e => { e with stream := some after })).modJob i (fun j =>
    j.setPart t (fun q =>
      if q.cond ≠ .candidate then q
      else if isLast then { q with cond := .issued, staging := .empty }
      else { q with staging := stagingFor st.kind }))

/-- The second tile part of a granted WAKE waits behind it (R90, R94). -/
def State.holdRiders (s : State) (t : TileNum) : State :=
  allSlots.foldl (fun s i =>
    if s.wakeCandidate i t then s.modJob i (fun j => j.setPart t (fun q => { q with cond := .waiting })) else s) s

/-- A WAKE is granted: the wake history takes now (R87, R90). -/
def State.recordGrant (s : State) : State := { s with wakeHistory := s.wakeHistory ++ [s.now] }

/-- The issue of a candidate's packet, as one event (R80, R81, R90). -/
def State.issue (s : State) (p : PortId) (c : Cand) (tag : Tag) : State :=
  match c.slot with
  | none =>
    let sh : Shape := { kind := .sleep, onFrame := false, payload := [], x := 0, y := 0, first := 0, pixels := 0,
                        format := .rgb16 }
    (s.issuePacket p c.tile tag .autoSleep sh).modTile c.tile (fun e => { e with armed := false })
  | some i =>
    match s.job i with
    | none => s
    | some j =>
      match j.step? with
      | none => s
      | some st =>
        let own := s.ownStream i c.tile
        let sh := if st.kind.isStream then segmentShape st own ((s.staged i c.tile).getD []) else settingShape st
        let s1 := (s.issuePacket p c.tile tag (.job i j.current) sh).modJob i
          (fun j => { j with outstanding := j.outstanding + 1 })
        if st.kind.isStream then s1.segmentIssued i c.tile st own sh.pixels
        else
          let s2 := s1.modJob i (fun j => j.setPart c.tile (fun q => { q with cond := .issued }))
          if st.kind = .wake then (s2.recordGrant).holdRiders c.tile else s2

/-- What the Wake Budget Unit presents after an issue on port `p` (R90): after a grant it examines again at once; a WAKE
passed over on this port is presented again only at the next examination. -/
def State.presentAfterIssue (s : State) (p : PortId) (c : Cand) : State :=
  if c.kind = .wake then s.examineWakes
  else match s.wakePresented with
    | some t => if portOf t = p then { s with wakePresented := none } else s
    | none => s

/-- PACKET_ISSUE: the arbiter of the port decides (R83). -/
def packetIssueEffect (p : PortId) (s : State) : State :=
  if s.txFree p then
    match s.arbiterPick p, (s.port p).freeTag with
    | some c, some tag => (commit s (s.issue p c tag)).presentAfterIssue p c
    | _, _ => s
  else s

def execPacketIssue (p : PortId) (s : State) : Outcome := outOfReset s (packetIssueEffect p)

/-- TRANSMISSION_END: the transmitter is free from this event (R82). -/
def transmissionEndEffect (p : PortId) (s : State) : State :=
  if s.txFree p then s else commit s (s.modPort p (fun v => { v with transmitting := none }))

def execTransmissionEnd (p : PortId) (s : State) : Outcome := outOfReset s (transmissionEndEffect p)

/-- A stopped staging read of the tile part's is under way (R109). -/
def State.readStopped (s : State) (i : SlotNum) (t : TileNum) : Bool :=
  s.stoppedReads.any (fun r => decide (r.slot = i) && decide (r.tile = t))

/-- The first of them has ended. -/
def State.dropStoppedRead (s : State) (i : SlotNum) (t : TileNum) : State :=
  { s with stoppedReads := s.stoppedReads.eraseP (fun r => decide (r.slot = i) && decide (r.tile = t)) }

/-- The read a tile part's staging made is over. -/
def State.endStagingRead (s : State) (i : SlotNum) (t : TileNum) (g : Staging) : State :=
  s.modJob i (fun j => j.setPart t (fun q => if q.staging = .reading then { q with staging := g } else q))

/-- The read of the tile part's staging has ended: the segment is staged, or the part fails with BUS_ERROR (R109). -/
def State.stagingReadEnds (s : State) (i : SlotNum) (t : TileNum) (r : ReadResult) : State :=
  match (s.job i).bind Job.step?, (s.job i).bind (fun j => j.part? t) with
  | some st, some q =>
    if q.staging = .reading then
      match r with
      | .bytes bs => s.endStagingRead i t (.staged (wordsAt bs 0 (s.nextSegmentWords i t st)))
      | .busError =>
        let s1 := s.endStagingRead i t .empty
        finish s1 (s1.failPart i t .busError)
    else s
  | _, _ => s

/-- STAGING_READ_DONE. The row names a slot and a tile: of the reads under way with them, the first begun is the one that
ended (DESIGN CHOICE, log 35). A read whose staging has stopped ends without effect (R109). -/
def stagingReadDoneEffect (i : SlotNum) (t : TileNum) (r : ReadResult) (s : State) : State :=
  if s.readStopped i t then s.dropStoppedRead i t else s.stagingReadEnds i t r

def execStagingReadDone (i : SlotNum) (t : TileNum) (r : ReadResult) (s : State) : Outcome :=
  endOfAccess (.staging i t) s (stagingReadDoneEffect i t r)

/-- The minimum-awake interval has passed, with its mark set. -/
def State.minAwakePassed (s : State) (t : TileNum) : Bool :=
  match (s.tile t).wakeAck with | some m => passed s.now m s.settings.minAwakeMs | none => false

/-- The hold interval has passed, with its mark set. -/
def State.holdPassed (s : State) (t : TileNum) : Bool :=
  match (s.tile t).lastPixelAck with | some m => passed s.now m s.settings.holdMs | none => false

/-- SLEEP_GATE_OPEN: an interval of the tile's SLEEP gates has passed, and the gate stays open (R74, R95). -/
def sleepGateOpenEffect (t : TileNum) (s : State) : State :=
  if s.minAwakePassed t || s.holdPassed t then
    s.modTile t (fun e => { e with
      minAwakeOpen := e.minAwakeOpen || s.minAwakePassed t, holdOpen := e.holdOpen || s.holdPassed t })
  else s

def execSleepGateOpen (t : TileNum) (s : State) : Outcome := outOfReset s (sleepGateOpenEffect t)

/-- READY_GATE_OPEN: the tile's ready due is reached, and the PIXREAD gate stays open (R76, R95). -/
def readyGateOpenEffect (t : TileNum) (s : State) : State :=
  if reachedOpt s.now (s.tile t).readyDue then s.modTile t (fun e => { e with readyOpen := true }) else s

def execReadyGateOpen (t : TileNum) (s : State) : Outcome := outOfReset s (readyGateOpenEffect t)

end Sys2Proof.Machine
end

