-- ==== Sys2Proof/Machine/Transactions.lean ====
section
/-! DEFINITION. Transactions: how one ends (R85, R151, R157), what an acknowledgement does to the tile table (R13, R14, R92 to
R95, R111, R113, R122 to R124), the READ STATE report (R153), and telling the owner (R33, R34, R151). -/

namespace Sys2Proof.Machine

/-! ## The end of an entry -/

/-- The entry leaves the table: its tag is freed, or quarantined while a destination write of its own runs on; the tile's
credit returns, a configuration packet's flag clears, and the owning job's outstanding count falls (R72, R73, R85, R147,
R157). -/
def State.endEntry (s : State) (p : PortId) (e : Entry) (quarantine : Bool) : State :=
  let s1 := s.modPort p (fun v =>
    let v1 := { v with inFlight := v.inFlight.filter (fun f => decide (f.tag ≠ e.tag)) }
    if quarantine then (v1.quarantine e.tag).keepWrite e else v1)
  let s2 := s1.modTile e.tile (fun r =>
    { r with credits := r.credits - 1, configInFlight := if e.kind.isConfig then false else r.configInFlight })
  match e.owner.slot? with
  | some i => s2.modJob i (fun j => { j with outstanding := j.outstanding - 1 })
  | none => s2

/-! ## Acknowledgements and the tile table -/

/-- Panel height less one, as a row number; a height of 0 has none, and R123 states none: a free value (log 11). -/
def lastRow (h : Half) : Half := if h = 0 then Config.rowBelowZero else h - 1

/-- Geometry within the ranges of R137. -/
def Geometry.inRange (g : Geometry) : Bool :=
  Machine.inRange 8 g.width.toNat 1024 && Machine.inRange 8 g.height.toNat 1024 &&
  Machine.inRange 5 g.framePeriod.toNat 100

/-- The entry's geometry is present and in range. -/
def TileEntry.geometryGood (e : TileEntry) : Bool := match e.geometry with | some g => g.inRange | none => false

def TileEntry.mismatch (e : TileEntry) (b : Bool) : TileEntry :=
  if b then { e with lastError := some .mirrorMismatch } else e

/-- A WAKE acknowledged with success (R92, R95). -/
def TileEntry.wakeAcked (now : Word) (st : Settings) (nochange : Bool) (e : TileEntry) : TileEntry :=
  if e.state = .asleep then
    ({ e.enter now .waking with
        wakeAck := some now, settleDue := some (plusMs now st.settleMs), readyDue := some (plusMs now st.readyMs),
        minAwakeOpen := false, readyOpen := false }).mismatch nochange
  else e

/-- A SLEEP acknowledged with success (R93, R95). -/
def TileEntry.sleepAcked (now : Word) (st : Settings) (nochange : Bool) (e : TileEntry) : TileEntry :=
  match e.state with
  | .awake => ({ e.enter now .dozing with restDue := some (plusMs now st.restMs) }).mismatch nochange
  | .faulted =>
    if e.geometryGood then
      ({ e.enter now .dozing with restDue := some (plusMs now st.restMs), lastFault := 0 }).mismatch nochange
    else ({ e with lastFault := 0 }).mismatch nochange
  | _ => e

/-- SHOW or BLANK confirmed (R13). -/
def TileEntry.displayAcked (v nochange : Bool) (e : TileEntry) : TileEntry :=
  ({ e with shown := some v }).mismatch (nochange && decide (e.shown ≠ some v))

/-- INVERT confirmed (R13). -/
def TileEntry.invertAcked (v nochange : Bool) (e : TileEntry) : TileEntry :=
  ({ e with inverted := some v }).mismatch (nochange && decide (e.inverted ≠ some v))

def TileEntry.fullRows (e : TileEntry) : Option (Half × Half) := e.geometry.map (fun g => (0, lastRow g.height))

/-- BAND confirmed (R14, R123): mode FULL takes rows 0 to height − 1 whatever the packet carried. -/
def TileEntry.bandAcked (x y : Word) (e : TileEntry) : TileEntry :=
  if x = 0 then { e with band := some ⟨false, e.fullRows⟩ }
  else { e with band := some ⟨true, some (lowHalf y, highHalf y)⟩ }

/-- ROLLTO confirmed (R14, R124). -/
def TileEntry.rollToAcked (x : Word) (e : TileEntry) : TileEntry :=
  { e with roll := e.roll.map (fun r => { r with start := lowHalf x }) }

/-- A pixel-write packet acknowledged with OK sets the last pixel-write ack time (R95, R111). -/
def TileEntry.pixelsWritten (now : Word) (e : TileEntry) : TileEntry :=
  { e with lastPixelAck := some now, holdOpen := false }

/-- A segment of the stream of slot `i` has succeeded: pixels acknowledged rises (R108, R111, R117). -/
def TileEntry.streamAcked (owner : Option SlotNum) (px : Nat) (e : TileEntry) : TileEntry :=
  match e.stream with
  | some st => if owner = some st.owner then { e with stream := some { st with acked := st.acked + px } } else e
  | none => e

/-- A WINDOW of another job accepted while a stream is open fails the stream's tile part (R113). -/
def State.windowChanged (s : State) (t : TileNum) (owner : Option SlotNum) : State :=
  match (s.tile t).stream with
  | some st => if owner = some st.owner then s else s.failPart st.owner t .windowChanged
  | none => s

/-- A successful ACK applied to the tile table (R151, step 2). NOCHANGE to a kind R3 does not answer with it is taken as OK.
-/
def State.applyAck (s : State) (e : Entry) (nochange : Bool) : State :=
  let t := e.tile
  match e.kind with
  | .wake => s.modTile t (TileEntry.wakeAcked s.now s.settings nochange)
  | .sleep => s.modTile t (TileEntry.sleepAcked s.now s.settings nochange)
  | .show => s.modTile t (TileEntry.displayAcked true nochange)
  | .blank => s.modTile t (TileEntry.displayAcked false nochange)
  | .invert => s.modTile t (TileEntry.invertAcked (decide (e.x = 1)) nochange)
  | .window =>
    (s.modTile t (fun r =>
      { r with window := some ⟨lowHalf e.x, highHalf e.x, lowHalf e.y, highHalf e.y⟩ })).windowChanged t e.owner.slot?
  | .band => s.modTile t (TileEntry.bandAcked e.x e.y)
  | .rollArea => s.modTile t (fun r => { r with roll := some ⟨lowHalf e.x, lowHalf e.y, lowHalf e.x⟩ })
  | .rollTo => s.modTile t (TileEntry.rollToAcked e.x)
  | .pixStart | .pixMore | .pixSeek =>
    s.modTile t (fun r => (r.pixelsWritten s.now).streamAcked e.owner.slot? e.pixels)
  | .reset | .probe | .pixRead | .readId | .readState => s

/-- What an ACK means to its owner (R150, R151): none for success. An ACK to READID, READSTATE or PIXREAD is a reply of the
other kind, or a REJECT; either way TILE_REJECT. -/
def ackFailure (k : PacketKind) (st : AckStatus) : Option ErrorCode :=
  if k.wantsData then some .tileReject
  else match st with
    | .reject => some .tileReject
    | _ => none

/-! ## READ STATE (R153, 12.5) -/

/-- The band mirror is present with this mode. -/
def TileEntry.bandIs (m : Bool) (e : TileEntry) : Bool := match e.band with | some b => decide (b.band = m) | none => false

/-- The mirrors take the reported settings; a difference sets MIRROR_MISMATCH (R123, R153). -/
def TileEntry.reportMirrors (w : Word) (e : TileEntry) : TileEntry :=
  let shown := w.getLsbD 1
  let band := w.getLsbD 2
  let inverted := w.getLsbD 3
  let same := e.bandIs band
  let e1 : TileEntry :=
    { e with
      shown := some shown, inverted := some inverted,
      band := if same then e.band else some ⟨band, if band then none else e.fullRows⟩ }
  e1.mismatch (decide (e.shown ≠ some shown) || decide (e.inverted ≠ some inverted) || !same)

/-- The reported power condition disagrees with the tile's state (R153). -/
def TileState.disagrees (awake : Bool) : TileState → Bool
  | .asleep | .dozing => awake
  | .waking | .awake => !awake
  | .absent | .lost | .faulted => false

/-- A disagreement of the reported power condition makes the tile FAULTED (R153). -/
def TileEntry.reportPower (now : Word) (w : Word) (e : TileEntry) : TileEntry :=
  if e.state.disagrees (w.getLsbD 0) then (e.enter now .faulted).mismatch true else e

def State.applyReport (s : State) (t : TileNum) (w : Word) : State :=
  s.modTile t (fun e => (e.reportMirrors w).reportPower s.now w)

/-! ## The owner is told (R151, step 3) -/

/-- A WAKE acknowledged with success waits for its tile to become AWAKE (R33, R92); a job that is draining holds no waiting
part (R32). -/
def State.wakeTold (s : State) (i : SlotNum) (t : TileNum) : State :=
  match s.job i with
  | none => s
  | some j =>
    match j.part? t with
    | none => s
    | some q =>
      if q.cond.hasFailed then s
      else if j.phase.isRunning then
        s.modJob i (fun j => j.setPart t (fun q =>
          { q with cond := if (s.tile t).state = .waking then .joined else .waiting }))
      else s.modJob i (fun j => j.dropPart t)

/-- A stream's tile part completes once its last segment has issued and every pixel is acknowledged (R33, R111, R117). -/
def State.streamTold (s : State) (i : SlotNum) (t : TileNum) : State :=
  match s.job i, s.ownStream i t with
  | some j, some st =>
    match j.step?, j.part? t with
    | some sp, some q =>
      if q.cond = .issued ∧ sp.pixelCount ≤ st.acked then s.completePart i t else s
    | _, _ => s
  | _, _ => s

/-- The job's tile part completes or fails with its transaction; AUTOSLEEP and ENUMERATION own no tile part. -/
def State.tellOwner (s : State) (e : Entry) (failure : Option ErrorCode) : State :=
  match e.owner.slot? with
  | none => s
  | some i =>
    match failure with
    | some c => s.failPart i e.tile c
    | none =>
      match e.kind with
      | .wake => s.wakeTold i e.tile
      | .pixStart | .pixMore | .pixSeek | .pixRead => s.streamTold i e.tile
      | _ => s.completePart i e.tile

/-- Entries ended together by a loss of the port or its entry into ENUMERATING (R135, R143, R144): every tag quarantined, no
credit or configuration left, job parts fail LINK_LOST, and an auto-sleep's tile takes LINK_LOST as its last error (R101). -/
def State.cutEntry (p : PortId) (s : State) (e : Entry) : State :=
  let s1 := (s.endEntry p e true).modTile e.tile (fun r => { r with credits := 0, configInFlight := false })
  match e.owner with
  | .job i _ => s1.failPart i e.tile .linkLost
  | .autoSleep => s1.setError e.tile .linkLost
  | .enumeration => s1

def State.cutEntries (s : State) (p : PortId) : State := (s.port p).inFlight.foldl (State.cutEntry p) s

end Sys2Proof.Machine
end

