-- ==== Sys2Proof/Machine/Link.lean ====
section
/-! DEFINITION. The Chain Link: training, chain reset, enumeration and hard errors (R131 to R146), and the meanings of
RECEIVER_LOCK, TILE_LOCK, HARD_ERROR, ATTEMPT_TIMER_EXPIRY, CHAIN_RESET_WAIT_EXPIRY, PROBE_DEADLINE_EXPIRY and
LINK_ERROR_PACKET. -/

namespace Sys2Proof.Machine

def attemptMs : Nat := 50
def chainResetMs : Nat := 10

/-! ## Bring-up -/

/-- The port enters TRAINING with attempt 1 of a fresh 3 (R132, R143). -/
def State.enterTraining (s : State) (p : PortId) : State :=
  (s.modPort p (fun v => { v with state := .training, attempt := 1, attemptDue := some (plusMs s.now attemptMs),
                                  rxLock := false, tileLock := false, waitDue := none, probing := none })).raise .port

/-- The chain reset: hop 15, tag 0, no payload (R135, R140). -/
def chainResetPacket : Packet := { kind := .reset, hop := 15, tag := 0, onFrame := false, payload := [] }

/-- The port enters ENUMERATING: it ends what is still in flight, transmits the chain reset and starts the wait (R135). -/
def State.enterEnumerating (s : State) (p : PortId) : State :=
  ((s.cutEntries p).modPort p (fun v =>
    { v with state := .enumerating, attempt := 0, attemptDue := none, waitDue := some (plusMs s.now chainResetMs),
             probing := none, transmitting := some chainResetPacket })).raise .port

/-- The port enters UP (R138, R139). -/
def State.portUp (s : State) (p : PortId) : State :=
  (s.modPort p (fun v => { v with state := .up, probing := none, waitDue := none })).raise .port

/-- The probe of a position issues, with the lowest free tag (R137). -/
def State.issueProbe (s : State) (p : PortId) (d : Position) : State :=
  match (s.port p).freeTag with
  | none => s
  | some g =>
    let entry : Entry :=
      { tag := g, tile := tileOf p d, owner := .enumeration, kind := .probe, issueTime := s.now,
        deadline := some (plusMs s.now s.settings.replyMs), phase := .awaiting, x := 0, y := 0, first := 0, pixels := 0,
        format := .rgb16 }
    let packet : Packet :=
      { kind := .probe, hop := BitVec.ofNat 4 d.val, tag := BitVec.ofNat 4 g.val, onFrame := false, payload := [] }
    (s.modPort p (fun v =>
      { v with probing := some d, inFlight := v.inFlight ++ [entry], transmitting := some packet })).modTile (tileOf p d)
      (fun e => { e with credits := e.credits + 1 })

/-- The position being probed is silent: it and every later one become ABSENT, and the port enters UP (R138). -/
def State.silence (s : State) (p : PortId) : State :=
  match (s.port p).probing with
  | none => s
  | some d =>
    (((portTiles p).filter (fun t => decide (d ≤ positionOf t))).foldl (fun s t => s.enterTile t .absent) s).portUp p

/-- The entry filled from an identity (R15, R137): ASLEEP with the chain-reset defaults of its geometry, or FAULTED with
BAD_IDENTITY. -/
def TileEntry.probed (now : Word) (ws : List Word) (e : TileEntry) : TileEntry :=
  let code (i : Nat) : Half := lowHalf (ws.getD i 0)
  let g : Geometry := { width := code 4, height := code 5, framePeriod := code 3 }
  let id : Identity := { vendor := code 0, model := code 1, revision := code 2 }
  if g.inRange then
    { e.enter now .asleep with
      identity := some id, geometry := some g, changedAt := now, lastError := none, lastFault := 0,
      band := some ⟨(match e.band with | some b => b.band | none => false), some (0, g.height - 1)⟩,
      window := some ⟨0, g.width - 1, 0, g.height - 1⟩, roll := some ⟨0, g.height, 0⟩ }
  else
    { e.enter now .faulted with
      identity := some id, geometry := some g, changedAt := now, lastError := some .badIdentity, lastFault := 0 }

/-- A probe answered with an identity: the tile is filled in, and the next position is probed or the port enters UP (R137). -/
def State.probeAnswered (s : State) (p : PortId) (ws : List Word) : State :=
  match (s.port p).probing with
  | none => s
  | some d =>
    let s1 := s.modTile (tileOf p d) (TileEntry.probed s.now ws)
    if h : d.val + 1 < 12 then s1.issueProbe p ⟨d.val + 1, h⟩ else s1.portUp p

/-- The third attempt has failed: the port is FAILED and all its positions are ABSENT (R134). -/
def State.portFailed (s : State) (p : PortId) : State :=
  ((portTiles p).foldl (fun s t => s.enterTile t .absent)
    (s.modPort p (fun v => { v with state := .failed, attempt := 0, attemptDue := none, rxLock := false,
                                    tileLock := false }))).raise .port

/-- The current training attempt has failed (R132). -/
def State.attemptFailed (s : State) (p : PortId) : State :=
  if (s.port p).attempt < 3 then
    s.modPort p (fun v => { v with attempt := v.attempt + 1, attemptDue := some (plusMs s.now attemptMs) })
  else s.portFailed p

/-! ## Meanings -/

/-- RECEIVER_LOCK: ignored while the port is DOWN or FAILED (R131); the attempt succeeds when tile lock already holds
(R132). -/
def receiverLockEffect (p : PortId) (s : State) : State :=
  match (s.port p).state with
  | .training =>
    let s1 := s.modPort p (fun v => { v with rxLock := true })
    if (s.port p).tileLock then finish s (s1.enterEnumerating p) else s1
  | .enumerating | .up => s.modPort p (fun v => { v with rxLock := true })
  | .down | .failed => s

def execReceiverLock (p : PortId) (s : State) : Outcome := outOfReset s (receiverLockEffect p)

/-- TILE_LOCK: the attempt succeeds when receiver lock already holds (R132). -/
def tileLockEffect (p : PortId) (s : State) : State :=
  match (s.port p).state with
  | .training =>
    let s1 := s.modPort p (fun v => { v with tileLock := true })
    if (s.port p).rxLock then finish s (s1.enterEnumerating p) else s1
  | .enumerating | .up => s.modPort p (fun v => { v with tileLock := true })
  | .down | .failed => s

def execTileLock (p : PortId) (s : State) : Outcome := outOfReset s (tileLockEffect p)

/-- Every present tile of the port becomes LOST (R143, R144). -/
def State.losePort (s : State) (p : PortId) : State :=
  (portTiles p).foldl (fun s t => if (s.tile t).state.present then s.enterTile t .lost else s) s

/-- HARD_ERROR: loss of receiver lock (R143, R144). -/
def hardErrorEffect (p : PortId) (s : State) : State :=
  match (s.port p).state with
  | .training =>
    if (s.port p).rxLock then
      finish s ((s.modPort p (fun v => { v with rxLock := false, tileLock := false })).attemptFailed p)
    else s
  | .enumerating | .up =>
    let s1 := (s.modPort p (fun v => { v with transmitting := none })).cutEntries p
    finish s ((s1.losePort p).enterTraining p)
  | .down | .failed => s

def execHardError (p : PortId) (s : State) : Outcome := outOfReset s (hardErrorEffect p)

/-- ATTEMPT_TIMER_EXPIRY (R132). -/
def attemptTimerExpiryEffect (p : PortId) (s : State) : State :=
  if (s.port p).state = .training ∧ reachedOpt s.now (s.port p).attemptDue = true then finish s (s.attemptFailed p) else s

def execAttemptTimerExpiry (p : PortId) (s : State) : Outcome := outOfReset s (attemptTimerExpiryEffect p)

/-- The values of R15 at the end of a chain reset wait. -/
def TileEntry.chainReset (e : TileEntry) : TileEntry :=
  { e with shown := some false, inverted := some false, band := some ⟨false, none⟩, window := none, roll := none,
           wakeAck := none, settleDue := none, readyDue := none, restDue := none, lastError := none, lastFault := 0 }

/-- CHAIN_RESET_WAIT_EXPIRY: tags released, the entries of all 12 positions reset, position 0 probed (R135). -/
def chainResetWaitExpiryEffect (p : PortId) (s : State) : State :=
  if (s.port p).state = .enumerating ∧ reachedOpt s.now (s.port p).waitDue = true then
    let s1 := s.modPort p (fun v => { v with waitDue := none, quarantined := 0 })
    let s2 := (portTiles p).foldl (fun s t => s.modTile t TileEntry.chainReset) s1
    finish s (s2.issueProbe p 0)
  else s

def execChainResetWaitExpiry (p : PortId) (s : State) : Outcome := outOfReset s (chainResetWaitExpiryEffect p)

/-- PROBE_DEADLINE_EXPIRY: the probe's tag is quarantined and its position is silent (R138). -/
def probeDeadlineExpiryEffect (p : PortId) (s : State) : State :=
  match (s.port p).inFlight.find? (fun e => decide (e.owner = .enumeration) && reachedOpt s.now e.deadline) with
  | some e => finish s ((s.endEntry p e true).silence p)
  | none => s

def execProbeDeadlineExpiry (p : PortId) (s : State) : Outcome := outOfReset s (probeDeadlineExpiryEffect p)

/-- The port takes upstream packets: UP, or probing in ENUMERATING (R142, R149). -/
def Port.receives (v : Port) : Bool :=
  match v.state with
  | .up => true
  | .enumerating => v.probing.isSome
  | _ => false

/-- The position has answered at the current enumeration: always once the port is UP. -/
def Port.answered (v : Port) (d : Position) : Bool :=
  match v.state with
  | .up => true
  | .enumerating => (match v.probing with | some q => decide (d < q) | none => false)
  | _ => false

/-- LINK_ERROR_PACKET: a packet that R142 finds faulty is discarded and raises LINKERR, once; in any other port state it is
ignored without judgement. -/
def linkErrorPacketEffect (p : PortId) (bs : List Byte) (s : State) : State :=
  if (s.port p).receives then
    match judgeUpstream bs with
    | .framingError => s.raise .linkErr
    | .softError => s.raise .linkErr
    | _ => s
  else s

def execLinkErrorPacket (p : PortId) (bs : List Byte) (s : State) : Outcome := outOfReset s (linkErrorPacketEffect p bs)

end Sys2Proof.Machine
end

