-- ==== Sys2Proof/Machine/Replies.lean ====
section
/-! DEFINITION. Replies, timeouts and tile faults (R147 to R160), and the meanings of ACK_RECEIVED, DATA_RECEIVED,
DESTINATION_WRITE_DONE, REPLY_DEADLINE_EXPIRY, FAULT_NOTICE and FRAME_NOTICE. -/

namespace Sys2Proof.Machine

/-! ## Matching (R149) -/

/-- The entry a reply matches: its tag is held by an entry whose tile is the tile at the reply's distance. -/
def Port.matching (v : Port) (tag : Tag) (t : TileNum) : Option Entry :=
  v.inFlight.find? (fun e => decide (e.tag = tag) && decide (e.tile = t))

/-- A further reply has matched an entry in WRITING: the destination write under way runs to its end, and its result is not
used, as with every other end of such an entry (R147; DESIGN CHOICE, log 16). -/
def State.keepOlderWrite (s : State) (p : PortId) (e : Entry) : State :=
  match e.phase with
  | .awaiting => s
  | .writing _ => s.modPort p (fun v => v.keepWrite e)

/-- A reply that matches no entry is discarded; a present tile, answered at the current enumeration, takes STRAY_REPLY. -/
def State.stray (s : State) (p : PortId) (d : Position) : State :=
  if (s.tile (tileOf p d)).state.present && (s.port p).answered d then s.setError (tileOf p d) .strayReply else s

/-! ## ACK (R150, R151) -/

/-- The transaction of `e` ends with an ACK, or with a reply of the other kind. -/
def State.endWithAck (s : State) (p : PortId) (e : Entry) (failure : Option ErrorCode) (nochange : Bool) : State :=
  let s1 := s.endEntry p e false
  let s2 := match failure with
    | some c => s1.setError e.tile c
    | none => s1.applyAck e nochange
  let s3 := if e.kind.isPower then s2.rejudgePowerWaits e.tile else s2
  s3.tellOwner e failure

/-- A PROBE answered by an ACK, or by DATA of another length: the tile's last error is TILE_REJECT, and the position is silent
(R137, R150). -/
def State.probeRefused (s : State) (p : PortId) (e : Entry) : State :=
  ((s.endEntry p e false).setError e.tile .tileReject).silence p

def ackReceivedEffect (p : PortId) (d : Position) (tag : Tag) (st : AckStatus) (s : State) : State :=
  if (s.port p).receives then
    match (s.port p).matching tag (tileOf p d) with
    | none => finish s (s.stray p d)
    | some e =>
      let s1 := s.keepOlderWrite p e
      if e.kind = .probe then finish s (s1.probeRefused p e)
      else finish s (s1.endWithAck p e (ackFailure e.kind st) (decide (st = .nochange)))
  else s

def execAckReceived (p : PortId) (d : Position) (tag : Tag) (st : AckStatus) (s : State) : Outcome :=
  outOfReset s (ackReceivedEffect p d tag st)

/-! ## DATA (R150, R152) -/

/-- The DATA words the packet asked for: an identity is 6 words, a status word 1, a PIXREAD as many as its segment covers. -/
def Entry.dataWords (e : Entry) : Option Nat :=
  match e.kind with
  | .probe | .readId => some 6
  | .readState => some 1
  | .pixRead => some (wordsOf e.format e.pixels)
  | _ => none

/-- The destination write of a DATA reply (R117, R152). -/
def Entry.destWrite (e : Entry) (now : Word) (ws : List Word) : DestWrite :=
  match e.kind with
  | .readId => { addr := e.x, bytes := readIdBytes e.tile ws, report := none }
  | .readState => { addr := e.x, bytes := readStateBytes (ws.getD 0 0) now, report := some (ws.getD 0 0) }
  | _ =>
    { addr := e.x + BitVec.ofNat 32 (4 * wordIndex e.format e.first),
      bytes := wordsBytes (storedWords e.format e.pixels ws), report := none }

/-- The DATA of a PIXREAD whose tile part has failed is discarded (R118). -/
def State.partFailed (s : State) (e : Entry) : Bool :=
  match e.owner.slot? with
  | none => false
  | some i =>
    match (s.job i).bind (fun j => j.part? e.tile) with
    | some q => q.cond.hasFailed
    | none => false

def State.discardsData (s : State) (e : Entry) : Bool := s.fatal || (decide (e.kind = .pixRead) && s.partFailed e)

/-- A discarded DATA reply ends its transaction at its arrival; a READ STATE report is judged all the same (R152, R153). -/
def State.discardData (s : State) (p : PortId) (e : Entry) (ws : List Word) : State :=
  let s1 := s.endEntry p e false
  if e.kind = .readState then s1.applyReport e.tile (ws.getD 0 0) else s1

/-- The entry enters WRITING, and its deadline stops. -/
def State.startDestWrite (s : State) (p : PortId) (e : Entry) (w : DestWrite) : State :=
  s.modPort p (fun v => { v with inFlight := v.inFlight.map (fun f =>
    if f.tag = e.tag then { f with deadline := none, phase := .writing w } else f) })

def dataReceivedEffect (p : PortId) (d : Position) (tag : Tag) (ws : List Word) (s : State) : State :=
  if (s.port p).receives then
    match (s.port p).matching tag (tileOf p d) with
    | none => finish s (s.stray p d)
    | some e =>
      let s1 := s.keepOlderWrite p e
      if e.kind = .probe then
        if ws.length = 6 then finish s ((s1.endEntry p e false).probeAnswered p ws)
        else finish s (s1.probeRefused p e)
      else if e.dataWords = some ws.length then
        if s1.discardsData e then finish s (s1.discardData p e ws)
        else s1.startDestWrite p e (e.destWrite s1.now ws)
      else finish s (s1.endWithAck p e (some .tileReject) false)
  else s

def execDataReceived (p : PortId) (d : Position) (tag : Tag) (ws : List Word) (s : State) : Outcome :=
  outOfReset s (dataReceivedEffect p d tag ws)

/-! ## Destination writes (R117, R118, R152) -/

/-- The entry in WRITING that holds the tag, with its write. -/
def Port.writingEntry (v : Port) (tag : Tag) : Option (Entry × DestWrite) :=
  v.inFlight.findSome? (fun e =>
    if e.tag = tag then (match e.phase with | .writing w => some (e, w) | .awaiting => none) else none)

/-- The transaction ends with its destination write. After a fatal fault the result is not used (R118). -/
def State.endDestWrite (s : State) (p : PortId) (e : Entry) (w : DestWrite) (ok : Bool) : State :=
  let s1 := s.endEntry p e false
  let s2 := match w.report with
    | some r => s1.applyReport e.tile r
    | none => s1
  if s.fatal then s2
  else
    let s3 := if e.kind = .pixRead ∧ ok = true then s2.modTile e.tile (TileEntry.streamAcked e.owner.slot? e.pixels) else s2
    s3.tellOwner e (if ok then none else some .busError)

/-- A destination write that outlived its entry is under way with the tag (R147). -/
def Port.cutWriting (v : Port) (tag : Tag) : Bool := v.cutWrites.any (fun w => decide (w.tag = tag))

/-- The first such write has ended. -/
def Port.dropCutWrite (tag : Tag) (v : Port) : Port :=
  { v with cutWrites := v.cutWrites.eraseP (fun w => decide (w.tag = tag)) }

/-- DESTINATION_WRITE_DONE. The row names a tag alone: of the writes under way with it, the first begun is the one that ended
(DESIGN CHOICE, log 35). One that outlived its entry ends without further effect (R147). -/
def destinationWriteDoneEffect (p : PortId) (tag : Tag) (ok : Bool) (s : State) : State :=
  if (s.port p).cutWriting tag then s.modPort p (Port.dropCutWrite tag)
  else match (s.port p).writingEntry tag with
  | some (e, w) => finish s (s.endDestWrite p e w ok)
  | none => s

def execDestinationWriteDone (p : PortId) (tag : Tag) (ok : Bool) (s : State) : Outcome :=
  endOfAccess (.destination p tag) s (destinationWriteDoneEffect p tag ok)

/-! ## Timeouts (R155) -/

/-- Every other entry to the tile ends with the expired one (R155, step 2). -/
def State.endTileEntries (s : State) (p : PortId) (t : TileNum) : State :=
  (((s.port p).inFlight.filter (fun e => decide (e.tile = t))).foldl (fun s e => s.endEntry p e true) s).modTile t
    (fun r => { r with credits := 0, configInFlight := false })

/-- Steps 1 to 4 of R155: entries ended, tile LOST, the expired entry's owner fails TIMEOUT and the others TILE_LOST. -/
def State.timeoutTile (s : State) (p : PortId) (e : Entry) : State :=
  let others := (s.port p).inFlight.filter (fun f => decide (f.tile = e.tile) && decide (f.tag ≠ e.tag))
  let s1 := (s.endTileEntries p e.tile).enterTile e.tile .lost
  others.foldl (fun s f => s.tellOwner f (some .tileLost)) (s1.tellOwner e (some .timeout))

def replyDeadlineExpiryEffect (p : PortId) (tag : Tag) (s : State) : State :=
  match (s.port p).inFlight.find? (fun e =>
      decide (e.tag = tag) && e.isWaiting && decide (e.kind ≠ .probe) && reachedOpt s.now e.deadline) with
  | some e => commit s ((settle s (s.timeoutTile p e)).setError e.tile .timeout)
  | none => s

def execReplyDeadlineExpiry (p : PortId) (tag : Tag) (s : State) : Outcome :=
  outOfReset s (replyDeadlineExpiryEffect p tag)

/-! ## Tile notices (R159, R160) -/

/-- A tile part with packets in flight fails at the notice unless a FAULTED tile accepts its kind (R160). -/
def State.faultIssuedPart (s : State) (t : TileNum) (i : SlotNum) : State :=
  match s.job i with
  | none => s
  | some j =>
    match j.step?, j.part? t with
    | some st, some q =>
      if q.cond = .issued ∧ st.kind.allowedOnFaulted = false ∧ s.hasInFlight i t = true then s.failPart i t .tileFault
      else s
    | _, _ => s

/-- The notice taken: fault code, display BLANK, and FAULTED when the tile was not (R159). The display mirror becomes BLANK
for a tile already FAULTED too (DESIGN CHOICE, log 38). -/
def State.takeFault (s : State) (t : TileNum) (code : BitVec 4) : State :=
  let s1 := s.modTile t (fun e => { e with lastFault := code, shown := some false })
  if (s.tile t).state = .faulted then s1
  else allSlots.foldl (fun s i => s.faultIssuedPart t i) (s1.enterTile t .faulted)

def faultNoticeEffect (p : PortId) (d : Position) (code : BitVec 4) (s : State) : State :=
  if (s.tile (tileOf p d)).state.present && (s.port p).answered d then finish s (s.takeFault (tileOf p d) code) else s

def execFaultNotice (p : PortId) (d : Position) (code : BitVec 4) (s : State) : Outcome :=
  outOfReset s (faultNoticeEffect p d code)

/-- FRAME_NOTICE: an occurrence of FRAME for a present tile of an UP port (R160, R161). -/
def frameNoticeEffect (p : PortId) (d : Position) (s : State) : State :=
  if (s.tile (tileOf p d)).state.present && decide ((s.port p).state = .up) then
    finish s (s.occur (.frame (tileOf p d)))
  else s

def execFrameNotice (p : PortId) (d : Position) (s : State) : Outcome := outOfReset s (frameNoticeEffect p d)

end Sys2Proof.Machine
end

