-- ==== Sys2Proof/Machine/Timers.lean ====
section
/-! DEFINITION. The Timebase, power timers, WAIT and PAUSE timers, the wake history, triggers and sync outputs (R87, R96, R97,
R162, R164, R166, R168, R177), and the meanings of their rows. -/

namespace Sys2Proof.Machine

/-- TIMEBASE_TICK: the counter rises by one, wrapping (R177); the WAKE_WINDOW_MS in force ages the wake history from this tick
on (R87), and the wake waiting list is examined (R89). -/
def timebaseTickEffect (s : State) : State :=
  ({ s with now := s.now + 1, historyWindowMs := s.settings.wakeWindowMs }).examineWakes

def execTimebaseTick (s : State) : Outcome := outOfReset s timebaseTickEffect

/-- WAKE_HISTORY_AGE_OUT: the oldest entry leaves once its time is at most now − WAKE_WINDOW_MS (R87); the list is examined
after it (R89). -/
def wakeHistoryAgeOutEffect (s : State) : State :=
  match s.wakeHistory with
  | [] => s
  | m :: rest =>
    if passed s.now m s.historyWindowMs then ({ s with wakeHistory := rest }).examineWakes else s

def execWakeHistoryAgeOut (s : State) : Outcome := outOfReset s wakeHistoryAgeOutEffect

/-- Expiries have no effect on a tile whose port is enumerating, until its probe has ended (R135). -/
def State.pictureHeld (s : State) (t : TileNum) : Bool :=
  let v := s.port (portOf t)
  decide (v.state = .enumerating) && !v.answered (positionOf t)

/-- SETTLE_TIMER_EXPIRY: a WAKING tile becomes AWAKE (R96). -/
def settleTimerExpiryEffect (t : TileNum) (s : State) : State :=
  if (s.tile t).state = .waking ∧ reachedOpt s.now (s.tile t).settleDue = true ∧ s.pictureHeld t = false then
    finish s (s.enterTile t .awake)
  else s

def execSettleTimerExpiry (t : TileNum) (s : State) : Outcome := outOfReset s (settleTimerExpiryEffect t)

/-- REST_TIMER_EXPIRY: a DOZING tile becomes ASLEEP (R97). A rest of 0 ms ends at the first tick after the acknowledgement,
so never at the Timebase value of the change to DOZING. -/
def restTimerExpiryEffect (t : TileNum) (s : State) : State :=
  if (s.tile t).state = .dozing ∧ reachedOpt s.now (s.tile t).restDue = true ∧ s.now ≠ (s.tile t).changedAt ∧
      s.pictureHeld t = false then
    finish s (s.enterTile t .asleep)
  else s

def execRestTimerExpiry (t : TileNum) (s : State) : Outcome := outOfReset s (restTimerExpiryEffect t)

/-- WAIT_TIMEOUT: with PASS the WAIT completes, without it the job fails (R164). -/
def waitTimeoutEffect (i : SlotNum) (s : State) : State :=
  if s.waitList.any (fun w => decide (w.slot = i) && reached s.now w.due) then
    if (match s.job i with | some j => j.flag Step.pass | none => false) then
      finish s ((s.dropWait i).modJob i Job.engineStepDone)
    else finish s ((s.dropWait i).failEngineStep i .waitTimeout)
  else s

def execWaitTimeout (i : SlotNum) (s : State) : Outcome := outOfReset s (waitTimeoutEffect i)

/-- PAUSE_EXPIRY: the step completes (R166). -/
def pauseExpiryEffect (i : SlotNum) (s : State) : State :=
  match s.job i with
  | none => s
  | some j =>
    if reachedOpt s.now j.pauseDue then
      finish s (s.modJob i (fun j => { j with pauseDue := none }.engineStepDone))
    else s

def execPauseExpiry (i : SlotNum) (s : State) : Outcome := outOfReset s (pauseExpiryEffect i)

/-! ## Trigger inputs and sync outputs -/

def State.trig (s : State) : Line → TrigFilter
  | .zero => s.trig0
  | .one => s.trig1

def State.setTrig (s : State) (i : Line) (f : TrigFilter) : State :=
  match i with
  | .zero => { s with trig0 := f }
  | .one => { s with trig1 := f }

/-- TRIG_PIN_CHANGE: the pin takes the level, and the 4 µs begin afresh (R162). While RESET_N is low the pin is still a pin,
and no interval runs (R178; log 7). -/
def trigPinChangeEffect (i : Line) (level : Bool) (s : State) : State :=
  if (s.trig i).pin = level then s
  else s.setTrig i { s.trig i with pin := level, running := !s.resetLow }

def execTrigPinChange (i : Line) (level : Bool) (s : State) : Outcome := .next (trigPinChangeEffect i level s)

/-- TRIG_FILTER_EXPIRY: the filtered level takes the pin's level; its rise is an occurrence, its first level is not (R162). -/
def trigFilterExpiryEffect (i : Line) (s : State) : State :=
  let f := s.trig i
  if f.running then
    let s1 := s.setTrig i { f with level := some f.pin, running := false }
    if f.level = some false ∧ f.pin = true then finish s (s1.occur (.trig i)) else s1
  else s

def execTrigFilterExpiry (i : Line) (s : State) : Outcome := outOfReset s (trigFilterExpiryEffect i)

/-- SYNC_PULSE_EXPIRY: the output goes low (R168). -/
def syncPulseExpiryEffect (o : Line) (s : State) : State :=
  match o with
  | .zero => { s with sync0 := false }
  | .one => { s with sync1 := false }

def execSyncPulseExpiry (o : Line) (s : State) : Outcome := outOfReset s (syncPulseExpiryEffect o)

end Sys2Proof.Machine
end

