-- ==== Sys2Proof/Machine/Engine.lean ====
section
/-! DEFINITION. The engine: leaving for STOPPING (R173), fatal faults (R174), failure of START (R171), status record rewrites
(R18 to R21), and the meanings of STATUS_REWRITE_START, STATUS_WRITE_DONE, CONTROL_BLOCK_READ_DONE and ENGINE_STOPPED. -/

namespace Sys2Proof.Machine

/-! ## Leaving RUNNING or STARTING (R67, R173) -/

/-- A walker becomes IDLE: poll timer, rescan-pending mark and deferred resume end, a held descriptor is dropped; accesses it
has begun run to their end (R67). -/
def Walker.toIdle (w : Walker) : Walker :=
  { w with state := .idle, pollDue := none, rescanPending := false, resumePending := false,
           work := match w.work with | .held _ _ => .none | x => x }

def State.idleWalkers (s : State) : State :=
  { s with walkerN := s.walkerN.toIdle, walkerP := s.walkerP.toIdle }

def State.abortAll (s : State) : State := allSlots.foldl State.abortJob s

def State.disarmAll (s : State) : State := allTiles.foldl (fun s t => s.modTile t (fun e => { e with armed := false })) s

/-- The engine enters STOPPING: walkers IDLE, every active job aborted, every auto-sleep disarmed (R173). The candidate sets
and the wake waiting list, views of what the jobs and tiles hold, are empty with that (R86, R102). -/
def State.enterStopping (s : State) : State :=
  ((({ s with engine := .stopping }).idleWalkers).abortAll).disarmAll

/-! ## Fatal faults (R174) and failure of START (R171) -/

def RewriteStage.isThird : RewriteStage → Bool
  | .countEven => true
  | _ => false

/-- No write follows the one under way, unless that is the third. -/
def Rewrite.stop (w : Rewrite) : Rewrite :=
  if w.stage.isThird then w else { w with stopped := true, joins := false }

/-- The rewrite was to add its tile to TILECHG and is stopped before its third write. -/
def RecordCtl.stoppedJoin (r : RecordCtl) : Bool :=
  match r.rewrite with
  | some w => w.joins && !w.stage.isThird
  | none => false

/-- A record at a fatal fault: its mark is lost and its rewrite stopped, and the tile joins TILECHG then (R21, R174). -/
def State.faultRecord (s : State) (t : TileNum) : State :=
  let r := s.record t
  let s1 := s.setRecord t { markChange := false, markStart := false, rewrite := r.rewrite.map Rewrite.stop }
  if r.markChange || r.stoppedJoin then s1.joinTileChg t else s1

/-- A fatal fault, in RUNNING and STOPPING. A second fault while one is recorded changes nothing (R172, R174). -/
def State.fatalFault (s : State) (f : EngineFault) : State :=
  if s.fault = .none ∧ (s.engine = .running ∨ s.engine = .stopping) then
    let s1 := ({ s with fault := f }).raise .engine
    let s2 := if s.engine = .running then s1.enterStopping else s1
    allTiles.foldl State.faultRecord s2
  else s

/-- A record when START fails: no further write is begun, and a record change not yet written stays marked for the rewrite
that follows, the next START's (R171, R21; log 19). -/
def State.failRecord (s : State) (t : TileNum) : State :=
  let r := s.record t
  s.setRecord t { markChange := r.markChange || r.stoppedJoin, markStart := false, rewrite := r.rewrite.map Rewrite.stop }

/-- START fails: HALTED with the fault code, and ENGINE is raised (R171). -/
def State.startFails (s : State) (f : EngineFault) : State :=
  allTiles.foldl State.failRecord (({ s with engine := .halted, fault := f }).raise .engine)

/-! ## Status record rewrites (R19, R20) -/

def RecordCtl.marked (r : RecordCtl) : Bool := r.markChange || r.markStart

/-- STATUS_REWRITE_START: the change count rises and its write begins; the marks clear (R19). The count rises by one whatever
it was: after a rewrite that a bus error stopped halfway it is even while the record is written (DESIGN CHOICE, log 34). -/
def statusRewriteStartEffect (t : TileNum) (s : State) : State :=
  let r := s.record t
  if r.marked && r.rewrite.isNone && s.marksRewrites then
    (s.modTile t (fun e => { e with changeCount := e.changeCount + 1 })).setRecord t
      { markChange := false, markStart := false,
        rewrite := some { area := s.settings.statusArea.getD 0, stage := .countOdd, joins := r.markChange,
                          byStart := r.markStart, stopped := false } }
  else s

def execStatusRewriteStart (t : TileNum) (s : State) : Outcome := outOfReset s (statusRewriteStartEffect t)

/-- All 24 rewrites of START have ended (R20, R171). -/
def State.startRewritesDone (s : State) : Bool :=
  allTiles.all (fun t => !(s.record t).markStart &&
    (match (s.record t).rewrite with | some w => !w.byStart | none => true))

/-- Bring-up begins on a port that is DOWN or FAILED (R145). -/
def State.bringUp (s : State) (p : PortId) : State :=
  match (s.port p).state with
  | .down | .failed => s.enterTraining p
  | .training | .enumerating | .up => s

/-- The ports phase of START begins once the status-record phase has ended (R171). -/
def State.portsPhaseIfDone (s : State) : State :=
  if s.engine = .starting .statusRecords ∧ s.startRewritesDone = true then
    (({ s with engine := .starting .ports }).bringUp .A).bringUp .B
  else s

/-- The rewrite ends; a tile whose record change caused it joins TILECHG (R20, R21). -/
def State.endRewrite (s : State) (t : TileNum) (joins : Bool) : State :=
  let s1 := s.modRecord t (fun r => { r with rewrite := none })
  if joins then s1.joinTileChg t else s1

/-- A status write failed on the bus while writes are still begun: a failure of START in STARTING, a fatal fault in RUNNING
and STOPPING (R19, R171, R174). A control-block read still under way at such a failure of START runs on without a use (DESIGN
CHOICE, log 39). -/
def State.statusWriteFailed (s : State) (t : TileNum) (w : Rewrite) : State :=
  match s.engine with
  | .starting _ =>
    ((s.modRecord t (fun r => { r with rewrite := none, markChange := r.markChange || w.joins })).startFails
      .statusWriteError).cutControlBlockRead
  | .running => (s.endRewrite t w.joins).fatalFault .statusWriteError
  | .stopping => (s.endRewrite t w.joins).fatalFault .statusWriteError
  | .off => s.endRewrite t w.joins
  | .halted => s.endRewrite t w.joins

/-- The next of the three writes begins, or the rewrite ends (R19). -/
def State.nextStatusWrite (s : State) (t : TileNum) (w : Rewrite) : State :=
  match w.stage with
  | .countOdd =>
    s.modRecord t (fun r => { r with rewrite := some { w with stage := .fields ((s.tile t).view.bytes t) } })
  | .fields _ =>
    (s.modTile t (fun e => { e with changeCount := e.changeCount + 1 })).modRecord t
      (fun r => { r with rewrite := some { w with stage := .countEven } })
  | .countEven => (s.endRewrite t w.joins).portsPhaseIfDone

def statusWriteDoneEffect (t : TileNum) (ok : Bool) (s : State) : State :=
  match (s.record t).rewrite with
  | none => s
  | some w =>
    if s.fatal then s.endRewrite t w.joins
    else if ok then (if w.stopped then s.endRewrite t w.joins else finish s (s.nextStatusWrite t w))
    else finish s (s.statusWriteFailed t w)

def execStatusWriteDone (t : TileNum) (ok : Bool) (s : State) : Outcome :=
  endOfAccess (.record t) s (statusWriteDoneEffect t ok)

/-! ## The control block (R46, R47, R87, R95, R102) -/

/-- Gates that are open stay open when a START brings in new settings (R95). -/
def State.latchGates (s : State) : State :=
  allTiles.foldl (fun s t => readyGateOpenEffect t (sleepGateOpenEffect t s)) s

/-- The oldest entries leave until the history holds at most `limit` (R87). -/
def trimHistory (limit : Nat) (h : List Word) : List Word := h.drop (h.length - limit)

/-- All 24 records are marked for START's rewrites (R20). -/
def State.markAllRecords (s : State) : State :=
  allTiles.foldl (fun s t => s.modRecord t (fun r => { r with markStart := true })) s

/-- A valid block replaces every held setting, the history is trimmed, and the status-record phase begins (R46, R171). -/
def State.takeSettings (s : State) (st : Settings) : State :=
  let s1 := s.latchGates
  ({ s1 with settings := st, wakeHistory := trimHistory st.wakeLimit s1.wakeHistory,
             engine := .starting .statusRecords }).markAllRecords

/-- CONTROL_BLOCK_READ_DONE: judged in STARTING; after a STOP its result is discarded (R173). -/
def controlBlockReadDoneEffect (r : ReadResult) (s : State) : State :=
  if s.cbRead then
    let s1 : State := { s with cbRead := false }
    if s.engine = .starting .controlBlock then
      match r with
      | .busError => s1.startFails .cbBusError
      | .bytes bs =>
        match parseSettings s.cbaddr bs with
        | none => s1.startFails .cbInvalid
        | some st => s1.takeSettings st
    else s1
  else s

def execControlBlockReadDone (r : ReadResult) (s : State) : Outcome :=
  endOfAccess .controlBlock s (controlBlockReadDoneEffect r)

/-! ## ENGINE_STOPPED (R173, R174) -/

def State.portBringingUp (s : State) (p : PortId) : Bool :=
  match (s.port p).state with
  | .training | .enumerating => true
  | _ => false

def State.allSlotsFree (s : State) : Bool := allSlots.all (fun i => decide (s.slot i = .free))

def WalkerWork.isRetiring : WalkerWork → Bool
  | .retire _ => true
  | _ => false

def State.noRewrites (s : State) : Bool :=
  allTiles.all (fun t => (s.record t).rewrite.isNone && !(s.record t).marked)

/-- The conditions under which STOPPING ends (R173). A control-block read whose result is not used is one under way. -/
def State.stopped (s : State) : Bool :=
  s.allSlotsFree && !s.portBringingUp .A && !s.portBringingUp .B && !s.walkerN.work.isRetiring &&
  !s.walkerP.work.isRetiring && !s.cbRead && !s.accessCut .controlBlock && s.noRewrites

def engineStoppedEffect (s : State) : State :=
  if s.engine = .stopping ∧ s.stopped = true then
    ({ s with engine := if s.fault = EngineFault.none then .off else .halted }).raise .engine
  else s

def execEngineStopped (s : State) : Outcome := outOfReset s engineStoppedEffect

end Sys2Proof.Machine
end

