-- ==== Sys2Proof/Machine/Walkers.lean ====
section
/-! DEFINITION. The List Walkers, admission and retirement (R22, R43, R44, R50 to R67), and the meanings of the walkers' rows,
SLOT_OFFER, JOB_ADMISSION, JOB_DRAINED, RESULT_WRITE_DONE, STATE_WORD_WRITE_DONE and ENGINE_ENTERS_RUNNING. -/

namespace Sys2Proof.Machine

def readyWord : Word := 1

/-! ## Halt and park (R57, R60, R63, R64) -/

/-- The results of a descriptor retired directly when its walker has halted: SKIPPED, or ABORTED after ABORT_x (R55, R64,
R65). -/
def haltedResults (cause : HaltCause) (at_ : Word) : Retirement :=
  { terminal := if cause = .aborted then .aborted else .skipped,
    code := if cause = .aborted then some .aborted else none,
    failingStep := 0, failingTile := none, tolerated := 0, stepsDone := 0, startedAt := 0, endedAt := at_,
    stage := .results }

def Fetched.retire (d : Fetched) (r : Retirement) : DirectRetire :=
  { addr := d.addr, link := d.link, notify := d.notify, haltOnFail := d.haltOnFail, results := r }

/-- The walker's own part of a halt (R63); a held descriptor is retired under R55 (R64). -/
def Walker.halt (now : Word) (cause : HaltCause) (w : Walker) : Walker :=
  { w with state := .halted, cause := cause, pollDue := none, rescanPending := false, haltTime := now,
           work := match w.work with
             | .held d _ => .retire (d.retire (haltedResults cause now))
             | x => x }

/-- Each QUEUED job of the chain enters RETIRING, to end SKIPPED (R64). -/
def State.skipQueued (s : State) (c : Chain) : State :=
  allSlots.foldl (fun s i =>
    match s.job i with
    | some j => if j.chain = c ∧ j.phase.isQueued = true then s.enterRetiring i .skipped else s
    | none => s) s

/-- A halting event for the walker of chain `c` while the engine is RUNNING. A walker already HALTED keeps its cause and
raises nothing (R63). The jobs of an ABORT_x halt are aborted by the command itself (R65). -/
def State.haltWalker (s : State) (c : Chain) (cause : HaltCause) : State :=
  if s.inRunning && decide ((s.walker c).state ≠ .halted) then
    let s1 := (s.modWalker c (Walker.halt s.now cause)).raise .chain
    if cause = .aborted then s1 else s1.skipQueued c
  else s

def pollStart (s : State) : Option Word :=
  if s.settings.pollMs = 0 then none else some (plusMs s.now s.settings.pollMs)

/-- The walker becomes PARKED, and its poll timer starts (R57, R60). -/
def State.parkWalker (s : State) (c : Chain) : State :=
  s.modWalker c (fun w => { w with state := .parked, work := .none, pollDue := pollStart s })

def State.endWork (s : State) (c : Chain) : State := s.modWalker c (fun w => { w with work := .none })

/-! ## Fetch (R52 to R55) -/

/-- Check 1: aligned, and the header extent inside a window for reading and writing (R52). -/
def State.check1 (s : State) (addr : Word) : Bool :=
  addr.toNat % 16 == 0 && s.settings.permits addr.toNat 32 true true

/-- The walker begins FETCHING at an address (R51, R57). -/
def State.beginFetch (s : State) (c : Chain) (addr : Word) : State :=
  if s.check1 addr then
    s.modWalker c (fun w => { w with state := .fetching, pollDue := none, work := .readHeader addr })
  else (s.endWork c).haltWalker c .access

/-- The walker follows the link of the descriptor it has taken (R57). -/
def State.followLink (s : State) (c : Chain) (link : Word) : State :=
  if link = 0 then s.parkWalker c else s.beginFetch c link

/-- A descriptor fails at fetch: the walker retires it directly (R53 to R55). -/
def State.failAtFetch (s : State) (c : Chain) (addr : Word) (h : List Byte) (code : ErrorCode) (step : Nat) : State :=
  let r : Retirement :=
    { terminal := .failed, code := some code, failingStep := step, failingTile := none, tolerated := 0, stepsDone := 0,
      startedAt := 0, endedAt := s.now, stage := .results }
  let d : DirectRetire :=
    { addr := addr, link := headerLink h, notify := headerNotify h, haltOnFail := headerHaltOnFail h, results := r }
  s.modWalker c (fun w => { w with work := .retire d })

/-- Check 4 (R53), on a header that is READY. -/
def State.check4 (s : State) (c : Chain) (addr : Word) (h : List Byte) : State :=
  if 1 ≤ headerCount h ∧ headerCount h ≤ 32 ∧ s.settings.permits addr.toNat (32 + 16 * headerCount h) true true = true then
    s.modWalker c (fun w => { w with work := .readSteps addr h })
  else s.failAtFetch c addr h .badStep 255

/-- Checks 2 and 3 on the header of a fetch (R52); in HALTED the fetch runs on (R64), in IDLE it ends (R67). -/
def State.fetchHeader (s : State) (c : Chain) (addr : Word) (r : ReadResult) : State :=
  match (s.walker c).state with
  | .idle => s.endWork c
  | st =>
    match r with
    | .busError => (s.endWork c).haltWalker c .busError
    | .bytes h =>
      if headerState h = readyWord then s.check4 c addr h
      else if st = .halted then s.endWork c else s.parkWalker c

/-- Checks 2 and 3 on a rescan's target (R59); only a PARKED walker goes on to fetch. -/
def State.rescanHeader (s : State) (c : Chain) (addr : Word) (r : ReadResult) : State :=
  match (s.walker c).state with
  | .idle => s.endWork c
  | st =>
    match r with
    | .busError => (s.endWork c).haltWalker c .busError
    | .bytes h =>
      if headerState h = readyWord ∧ st ≠ .halted then
        (s.modWalker c (fun w => { w with state := .fetching, pollDue := none })).check4 c addr h
      else s.endWork c

def headerReadDoneEffect (c : Chain) (r : ReadResult) (s : State) : State :=
  match (s.walker c).work with
  | .readHeader a => finish s (s.fetchHeader c a r)
  | .rescanHeader a => finish s (s.rescanHeader c a r)
  | _ => s

def execHeaderReadDone (c : Chain) (r : ReadResult) (s : State) : Outcome :=
  endOfAccess (.header c) s (headerReadDoneEffect c r)

/-! ## Slots (R56, R61) -/

/-- Slots that hold a normal-chain job, or are claimed for one. -/
def State.normalSlots (s : State) : Nat :=
  (allSlots.filter (fun i => match s.slot i with
    | .job j => decide (j.chain = .normal)
    | .claimed c => decide (c = .normal)
    | .free => false)).length

/-- The chain may use a free slot (R61). -/
def State.mayUse (s : State) (c : Chain) : Bool :=
  match c with
  | .priority => true
  | .normal => decide (s.normalSlots < 6)

/-- The lowest free slot (log 14). -/
def State.freeSlot (s : State) : Option SlotNum := allSlots.find? (fun i => decide (s.slot i = .free))

def otherChain : Chain → Chain
  | .normal => .priority
  | .priority => .normal

/-- A walker claims a slot and begins its TAKEN write (R56). -/
def State.claim (s : State) (c : Chain) (d : Fetched) (i : SlotNum) : State :=
  (s.setSlot i (.claimed c)).modWalker c (fun w => { w with state := .fetching, work := .takenWrite d i })

/-- The slots on offer to the walker: none unless it is BLOCKED (R61). -/
def State.slotOffers (s : State) (c : Chain) : List SlotNum :=
  match (s.walker c).work with
  | .held _ o => o
  | _ => []

/-- The walker's offers changed, when it holds a descriptor. -/
def Walker.modOffers (f : List SlotNum → List SlotNum) (w : Walker) : Walker :=
  match w.work with
  | .held d o => { w with work := .held d (f o) }
  | _ => w

/-- A slot that became free is on offer to each BLOCKED walker that may use it (R61). -/
def State.offerSlot (s : State) (i : SlotNum) : State :=
  let offer (s : State) (c : Chain) : State :=
    if s.mayUse c then s.modWalker c (Walker.modOffers (· ++ [i])) else s
  offer (offer s .priority) .normal

/-- A descriptor that passed its fetch: retired directly when the walker has halted (R64, R65), else taken once a slot is
claimed (R56, R61). While a freed slot is on offer to the other walker, the fetch passes at the moment of that offer: the
walker is BLOCKED and counted among those the slot is offered to. -/
def State.fetchPassed (s : State) (c : Chain) (d : Fetched) : State :=
  let w := s.walker c
  if w.state = .halted then
    s.modWalker c (fun w => { w with work := .retire (d.retire (haltedResults w.cause w.haltTime)) })
  else
    let pending := s.slotOffers (otherChain c)
    let blocked (o : List SlotNum) := s.modWalker c (fun w => { w with state := .blocked, work := .held d o })
    if s.mayUse c then
      if pending = [] then
        match s.freeSlot with
        | some i => s.claim c d i
        | none => blocked []
      else blocked pending
    else blocked []

/-- Checks 5 and 6 on the step records (R53, R54). -/
def State.fetchSteps (s : State) (c : Chain) (addr : Word) (h : List Byte) (r : ReadResult) : State :=
  match (s.walker c).state with
  | .idle => s.endWork c
  | _ =>
    match r with
    | .busError => (s.endWork c).haltWalker c .busError
    | .bytes bs =>
      if checkSum h bs ≠ headerCheck h then s.failAtFetch c addr h .check 255
      else match checkSteps s.settings bs 0 (headerCount h) with
        | .error (code, k) => s.failAtFetch c addr h code k
        | .ok ps =>
          s.fetchPassed c { addr := addr, link := headerLink h, notify := headerNotify h,
                            haltOnFail := headerHaltOnFail h, steps := ps }

def stepReadDoneEffect (c : Chain) (r : ReadResult) (s : State) : State :=
  match (s.walker c).work with
  | .readSteps a h => finish s (s.fetchSteps c a h r)
  | _ => s

def execStepReadDone (c : Chain) (r : ReadResult) (s : State) : Outcome :=
  endOfAccess (.stepRecords c) s (stepReadDoneEffect c r)

/-- The slot is free, on offer to the walker, and its chain may use it. -/
def State.offeredTo (s : State) (i : SlotNum) (c : Chain) : Option Fetched :=
  match (s.walker c).work with
  | .held d o => if s.slot i = .free ∧ i ∈ o ∧ s.mayUse c = true then some d else none
  | _ => none

/-- The walker that takes the slot, with its descriptor: Priority first (R61). -/
def State.offerTaker (s : State) (i : SlotNum) : Option (Chain × Fetched) :=
  match s.offeredTo i .priority with
  | some d => some (.priority, d)
  | none => (s.offeredTo i .normal).map (fun d => (.normal, d))

/-- SLOT_OFFER: a freed slot goes to the BLOCKED Priority walker, else to the BLOCKED Normal walker; the one that does not
receive it stays BLOCKED, and the slot is on offer no more (R61). -/
def slotOfferEffect (i : SlotNum) (s : State) : State :=
  match s.offerTaker i with
  | some (c, d) => (s.claim c d i).modWalker (otherChain c) (Walker.modOffers (fun o => o.filter (fun k => decide (k ≠ i))))
  | none => s

def execSlotOffer (i : SlotNum) (s : State) : Outcome := outOfReset s (slotOfferEffect i)

/-! ## Admission (R62) -/

/-- An older job of the same chain that is QUEUED, RUNNING or DRAINING shares a tile with `j`. -/
def Job.blockedBy (j k : Job) : Bool :=
  decide (k.chain = j.chain) && decide (k.order < j.order) && !k.phase.isRetiring && decide (k.tiles &&& j.tiles ≠ 0)

def State.admissible (s : State) (i : SlotNum) : Bool :=
  match s.job i with
  | none => false
  | some j =>
    s.inRunning && j.phase.isQueued &&
    allSlots.all (fun k => match s.job k with | some m => !j.blockedBy m | none => true)

/-- Admission: RUNNING, started at now, and step 0 becomes current (R62). -/
def State.admitJob (s : State) (i : SlotNum) : State :=
  (s.modJob i (fun j => { j with phase := .running, startedAt := s.now })).stepCurrent i

def jobAdmissionEffect (i : SlotNum) (s : State) : State :=
  if s.admissible i then finish s (s.admitJob i) else s

def execJobAdmission (i : SlotNum) (s : State) : Outcome := outOfReset s (jobAdmissionEffect i)

/-! ## TAKEN (R22, R27, R56) -/

/-- The job as it enters its slot (R22, R27). -/
def Fetched.job (d : Fetched) (c : Chain) (order : Nat) : Job :=
  { chain := c, addr := d.addr, order := order, notify := d.notify, haltOnFail := d.haltOnFail, steps := d.steps,
    tiles := unionTiles d.steps, phase := .queued, current := 0, parts := [], outstanding := 0, firstFailure := none,
    tolerated := 0, stepsDone := 0, startedAt := 0, abortRequested := false, pauseDue := none, engineDone := false }

/-- The job enters its slot with the next fetch order (R22, R27). -/
def State.enterSlot (s : State) (c : Chain) (d : Fetched) (i : SlotNum) : State :=
  { s.setSlot i (.job (d.job c s.nextOrder)) with nextOrder := s.nextOrder + 1 }

/-- The TAKEN write has completed: E is taken (R56). What follows depends on what became of the walker meanwhile: it follows
the link, or the job is skipped or aborted (R64, R65, R67), or abandoned after a fatal fault (R44, R67). -/
def State.taken (s : State) (c : Chain) (d : Fetched) (i : SlotNum) : State :=
  let w := s.walker c
  let s1 := s.modWalker c (fun w => { w with park := d.addr, link := d.link, work := .none })
  if s.fatal then s1.setSlot i .free
  else
    let s2 := s1.enterSlot c d i
    match w.state with
    | .halted => if w.cause = .aborted then s2.abortJob i else s2.enterRetiring i .skipped
    | .idle => s2.abortJob i
    | _ => (if s2.admissible i then s2.admitJob i else s2).followLink c d.link

def takenWriteDoneEffect (c : Chain) (ok : Bool) (s : State) : State :=
  match (s.walker c).work with
  | .takenWrite d i =>
    if ok then finish s (s.taken c d i)
    else finish s (((s.endWork c).setSlot i .free).fatalFault .resultWriteError)
  | _ => s

def execTakenWriteDone (c : Chain) (ok : Bool) (s : State) : Outcome := endOfAccess (.taken c) s (takenWriteDoneEffect c ok)

/-! ## Direct retirement (R55) -/

/-- The state word of a directly retired descriptor has been written: it is taken, JOB is raised with NOTIFY, and the walker
halts, follows the link, or stays as it is (R55, R63). -/
def State.directlyRetired (s : State) (c : Chain) (d : DirectRetire) : State :=
  let w := s.walker c
  let s1 := s.modWalker c (fun w => { w with park := d.addr, link := d.link, work := .none })
  let s2 := if d.notify then s1.raise .job else s1
  if w.state = .halted ∨ w.state = .idle then s2
  else if d.results.code = some .check then s2.haltWalker c .check
  else if d.haltOnFail then s2.haltWalker c .jobFailed
  else s2.followLink c d.link

def fetchFailWriteDoneEffect (c : Chain) (last ok : Bool) (s : State) : State :=
  match (s.walker c).work with
  | .retire d =>
    if ok then
      match d.results.stage with
      | .results =>
        if s.fatal then s.endWork c
        else if last then
          s.modWalker c (fun w => { w with work := .retire { d with results := { d.results with stage := .stateWord } } })
        else s
      | .stateWord => finish s (s.directlyRetired c d)
    else finish s ((s.endWork c).fatalFault .resultWriteError)
  | _ => s

def execFetchFailWriteDone (c : Chain) (last ok : Bool) (s : State) : Outcome :=
  endOfAccess (.directRetirement c) s (fetchFailWriteDoneEffect c last ok)

/-! ## Rescan, poll and resume (R59, R60, R66) -/

def WalkerWork.isNone : WalkerWork → Bool
  | .none => true
  | _ => false

/-- Where a rescan reads: the link at PARKx, or the head field with PARKx 0 (R59). -/
def State.rescanAddr (s : State) (c : Chain) : Word :=
  if (s.walker c).park = 0 then s.cbaddr + headField c else (s.walker c).park

/-- The rescan begins with its read (R59). -/
def State.beginRescan (s : State) (c : Chain) : State :=
  s.modWalker c (fun w => { w with work := .rescanLink (s.rescanAddr c) })

/-- A rescan cause (R59). -/
def State.rescanCause (s : State) (c : Chain) : State :=
  let w := s.walker c
  match w.state with
  | .parked => if w.work.isNone then s.beginRescan c else s.modWalker c (fun w => { w with rescanPending := true })
  | .fetching | .blocked => s.modWalker c (fun w => { w with rescanPending := true })
  | .idle | .halted => s

/-- POLL_TIMER_EXPIRY (R60). -/
def pollTimerExpiryEffect (c : Chain) (s : State) : State :=
  let w := s.walker c
  if w.state = .parked ∧ reachedOpt s.now w.pollDue = true then
    (s.modWalker c (fun w => { w with pollDue := pollStart s })).rescanCause c
  else s

def execPollTimerExpiry (c : Chain) (s : State) : Outcome := outOfReset s (pollTimerExpiryEffect c)

/-- The value a rescan read (R59): 0 ends it, any other passes check 1 and its header is read, or the walker halts. -/
def State.rescanValue (s : State) (c : Chain) (r : ReadResult) : State :=
  match (s.walker c).state with
  | .idle => s.endWork c
  | _ =>
    match r with
    | .busError => (s.endWork c).haltWalker c .busError
    | .bytes bs =>
      let v := wordAt bs 0
      if v = 0 then s.endWork c
      else if s.check1 v then s.modWalker c (fun w => { w with work := .rescanHeader v })
      else (s.endWork c).haltWalker c .access

def rescanReadDoneEffect (c : Chain) (r : ReadResult) (s : State) : State :=
  match (s.walker c).work with
  | .rescanLink _ => finish s (s.rescanValue c r)
  | _ => s

def execRescanReadDone (c : Chain) (r : ReadResult) (s : State) : Outcome :=
  endOfAccess (.rescan c) s (rescanReadDoneEffect c r)

/-- RESCAN_PENDING: the mark is cleared and a further rescan begins (R59). -/
def rescanPendingEffect (c : Chain) (s : State) : State :=
  let w := s.walker c
  if w.state = .parked ∧ w.work.isNone = true ∧ w.rescanPending = true then
    (s.modWalker c (fun w => { w with rescanPending := false })).beginRescan c
  else s

def execRescanPending (c : Chain) (s : State) : Outcome := outOfReset s (rescanPendingEffect c)

/-- A resume acts: cause NONE, PARKED, poll timer started, and a rescan begins at once (R66). -/
def State.resumeWalker (s : State) (c : Chain) : State :=
  ((s.modWalker c (fun w => { w with cause := .none, resumePending := false })).parkWalker c).beginRescan c

/-- RESUME_DEFERRED: the last of the work under way from the halt has ended (R66). -/
def resumeDeferredEffect (c : Chain) (s : State) : State :=
  let w := s.walker c
  if w.state = .halted ∧ w.work.isNone = true ∧ w.resumePending = true then s.resumeWalker c else s

def execResumeDeferred (c : Chain) (s : State) : Outcome := outOfReset s (resumeDeferredEffect c)

/-! ## Retirement from a slot (R39, R43, R44) -/

/-- JOB_DRAINED: outstanding is 0, and the job enters RETIRING (R39). -/
def jobDrainedEffect (i : SlotNum) (s : State) : State :=
  match s.job i with
  | none => s
  | some j =>
    if j.phase.isDraining = true ∧ j.outstanding = 0 then finish s (s.enterRetiring i .drained) else s

def execJobDrained (i : SlotNum) (s : State) : Outcome := outOfReset s (jobDrainedEffect i)

/-- A bus error on a write of a retirement: the slot is free, and RESULT_WRITE_ERROR is the fatal fault (R44). -/
def State.retireFailed (s : State) (i : SlotNum) : State := (s.setSlot i .free).fatalFault .resultWriteError

/-- The state word has been written: JOB with NOTIFY, the slot free and on offer, and a FAILED job with HALT_ON_FAIL halts its
walker (R43, R61, R63). The halt comes at this event and the slot's offer after it: a descriptor that the halted walker holds
is retired SKIPPED (R64) and never claims this slot (DESIGN CHOICE, log 43). -/
def State.retired (s : State) (i : SlotNum) (j : Job) (r : Retirement) : State :=
  let s1 := (s.setSlot i .free).offerSlot i
  let s2 := if j.notify then s1.raise .job else s1
  if r.terminal = .failed ∧ j.haltOnFail = true then s2.haltWalker j.chain .jobFailed else s2

def resultWriteDoneEffect (i : SlotNum) (last ok : Bool) (s : State) : State :=
  match s.job i with
  | none => s
  | some j =>
    match j.phase with
    | .retiring r =>
      match r.stage with
      | .results =>
        if ok then
          if s.fatal then s.setSlot i .free
          else if last then s.setSlot i (.job { j with phase := .retiring { r with stage := .stateWord } })
          else s
        else finish s (s.retireFailed i)
      | .stateWord => s
    | _ => s

def execResultWriteDone (i : SlotNum) (last ok : Bool) (s : State) : Outcome :=
  endOfAccess (.results i) s (resultWriteDoneEffect i last ok)

def stateWordWriteDoneEffect (i : SlotNum) (ok : Bool) (s : State) : State :=
  match s.job i with
  | none => s
  | some j =>
    match j.phase with
    | .retiring r =>
      match r.stage with
      | .results => s
      | .stateWord => if ok then finish s (s.retired i j r) else finish s (s.retireFailed i)
    | _ => s

def execStateWordWriteDone (i : SlotNum) (ok : Bool) (s : State) : Outcome :=
  endOfAccess (.stateWord i) s (stateWordWriteDoneEffect i ok)

/-! ## ENGINE_ENTERS_RUNNING (R51, R171) -/

/-- The walker starts from its chain's head (R51). A read that STOP left running runs on without a use (R67). -/
def State.startWalker (s : State) (c : Chain) (head : Word) : State :=
  ((s.cutWalkerAccess c).modWalker c (fun w => { w with
    cause := .none, park := 0, link := 0, work := .none, rescanPending := false, resumePending := false })).followLink c head

def engineEntersRunningEffect (s : State) : State :=
  if s.engine = .starting .ports ∧ s.portBringingUp .A = false ∧ s.portBringingUp .B = false then
    let s1 := ({ s with engine := .running, nextOrder := 1 }).raise .engine
    finish s ((s1.startWalker .normal s.settings.normalHead).startWalker .priority s.settings.priorityHead)
  else s

def execEngineEntersRunning (s : State) : Outcome := outOfReset s engineEntersRunningEffect

end Sys2Proof.Machine
end

