-- ==== Sys2Proof/Machine/Control.lean ====
section
/-! DEFINITION. The register window's rows (R169, R170, R176, R182), START, STOP, ENUMERATE and the walkers' commands (R65,
R66, R171, R173), and both resets (R178). -/

namespace Sys2Proof.Machine

/-- A command or a CBADDR write that is not taken: REFUSED, and nothing else (R169, R170). -/
def State.refuse (s : State) : State := s.raise .refused

/-! ## START and STOP (R171, R173) -/

/-- CBADDR fails START without being read: 0, or not 64-aligned (R171). -/
def cbaddrBad (a : Word) : Bool := decide (a = 0) || decide (a.toNat % 64 ≠ 0)

/-- START taken: STARTING with fault NONE, and the control block's read begins, or START fails (R171). -/
def startEffect (s : State) : State :=
  if s.engine.isOffOrHalted then
    let s1 : State := { s with engine := .starting .controlBlock, fault := .none }
    if cbaddrBad s.cbaddr then s1.startFails .cbInvalid else { s1 with cbRead := true }
  else s.refuse

def execStart (s : State) : Outcome := outOfReset s startEffect

/-- START's marks on records not yet begun are gone: those records keep their older contents (R173; log 18). -/
def State.dropStartMarks (s : State) : State :=
  allTiles.foldl (fun s t => s.modRecord t (fun r => { r with markStart := false })) s

def EngineState.isStartingOrRunning : EngineState → Bool
  | .starting _ => true
  | .running => true
  | _ => false

def stopEffect (s : State) : State :=
  if s.engine.isStartingOrRunning then finish s (s.dropStartMarks.enterStopping) else s.refuse

def execStop (s : State) : Outcome := outOfReset s stopEffect

/-! ## ENUMERATE (R145, R170) -/

/-- The bring-up of one port: DOWN and FAILED ports train, an UP port enumerates again, a port in bring-up goes on (R145). -/
def State.enumeratePort (s : State) (p : PortId) : State :=
  match (s.port p).state with
  | .down | .failed => s.enterTraining p
  | .up => s.enterEnumerating p
  | .training | .enumerating => s

def enumerateEffect (s : State) : State :=
  if s.engine.isOffOrHalted then finish s ((s.enumeratePort .A).enumeratePort .B) else s.refuse

def execEnumerate (s : State) : Outcome := outOfReset s enumerateEffect

/-! ## RESCAN_x, RESUME_x, ABORT_x (R59, R65, R66) -/

/-- RESCAN_x (R59). -/
def State.rescan (s : State) (c : Chain) : State := if s.inRunning then s.rescanCause c else s.refuse

def rescanNEffect (s : State) : State := s.rescan .normal

def execRescanN (s : State) : Outcome := outOfReset s rescanNEffect

def rescanPEffect (s : State) : State := s.rescan .priority

def execRescanP (s : State) : Outcome := outOfReset s rescanPEffect

/-- RESUME_x: without effect on a walker that is not HALTED; acts at once, or when the last of the work under way from the
halt ends (R66). -/
def State.resume (s : State) (c : Chain) : State :=
  if s.inRunning then
    if (s.walker c).state = .halted then
      if (s.walker c).work.isNone then s.resumeWalker c
      else s.modWalker c (fun w => { w with resumePending := true })
    else s
  else s.refuse

def resumeNEffect (s : State) : State := s.resume .normal

def execResumeN (s : State) : Outcome := outOfReset s resumeNEffect

def resumePEffect (s : State) : State := s.resume .priority

def execResumeP (s : State) : Outcome := outOfReset s resumePEffect

/-- Every active job of the chain is aborted (R40). -/
def State.abortChain (s : State) (c : Chain) : State :=
  allSlots.foldl (fun s i =>
    match s.job i with
    | some j => if j.chain = c then s.abortJob i else s
    | none => s) s

/-- ABORT_x: the walker halts with cause ABORTED, and every active job of its chain is aborted (R65). -/
def State.abortCommand (s : State) (c : Chain) : State :=
  if s.inRunning then finish s ((s.haltWalker c .aborted).abortChain c) else s.refuse

def abortNEffect (s : State) : State := s.abortCommand .normal

def execAbortN (s : State) : Outcome := outOfReset s abortNEffect

def abortPEffect (s : State) : State := s.abortCommand .priority

def execAbortP (s : State) : Outcome := outOfReset s abortPEffect

/-! ## The other rows of the register window -/

/-- A code that names no command (R170). -/
def unknownCommandEffect (code : Word) (s : State) : State :=
  match commandOfCode code with
  | .unknownCommand _ => s.refuse
  | _ => s

def execUnknownCommand (code : Word) (s : State) : Outcome := outOfReset s (unknownCommandEffect code)

/-- CBADDR_WRITE: accepted in OFF and HALTED (R169). -/
def cbaddrWriteEffect (v : Word) (s : State) : State :=
  if s.engine.isOffOrHalted then { s with cbaddr := v } else s.refuse

def execCbaddrWrite (v : Word) (s : State) : Outcome := outOfReset s (cbaddrWriteEffect v)

/-- NOTICE_WRITE: clears each notice written as 1 (R176). -/
def noticeWriteEffect (v : Word) (s : State) : State := { s with notice := s.notice.clearBy (NoticeSet.ofWord v) }

def execNoticeWrite (v : Word) (s : State) : Outcome := outOfReset s (noticeWriteEffect v)

/-- NOTICEEN_WRITE: replaces the enables (R169). -/
def noticeenWriteEffect (v : Word) (s : State) : State := { s with noticeEn := NoticeSet.ofWord v }

def execNoticeenWrite (v : Word) (s : State) : Outcome := outOfReset s (noticeenWriteEffect v)

/-- TILECHG_READ of `len` bytes at byte `off` of the register: the read returns those bytes of the set and empties it (R21,
R169, R182); while RESET_N is low it returns 0 (R178). -/
def tilechgReadEffect (off len : Nat) (s : State) : State :=
  if s.resetLow then { s with readBytes := List.replicate len 0 }
  else { s with readBytes := ((wordBytes (s.tileChg.setWidth 32)).drop off).take len, tileChg := 0 }

def execTilechgRead (off len : Nat) (s : State) : Outcome := .next (tilechgReadEffect off len s)

/-- REGISTER_WRITE_IGNORED: a write that is not a full aligned word of a writable register. On COMMAND and CBADDR it raises
REFUSED, elsewhere it raises nothing (R169, R182). -/
def registerWriteIgnoredEffect (off len : Nat) (s : State) : State :=
  if len ≠ 4 ∧ off < 8 then s.refuse else s

def execRegisterWriteIgnored (off len : Nat) (s : State) : Outcome := outOfReset s (registerWriteIgnoredEffect off len)

/-! ## Resets (R178) -/

/-- The reset values of every block; the pins, the queue and the model's counter of free choices stay. Every shared-memory
access already begun runs to its end, and its result is not used (R118, R178). -/
def State.afterReset (s : State) : State :=
  { State.reset with
    pending := s.pending, resetLow := s.resetLow, readBytes := s.readBytes, cbaddr := s.cbaddr, noticeEn := s.noticeEn,
    cutAccesses := s.accesses, trig0 := TrigFilter.afterReset s.trig0.pin,
    trig1 := TrigFilter.afterReset s.trig1.pin, choices := s.choices }

/-- RESET: the soft reset keeps CBADDR and NOTICEEN. -/
def resetEffect (s : State) : State := s.afterReset

def execReset (s : State) : Outcome := outOfReset s resetEffect

/-- HARD_RESET: RESET_N is asserted. Its timers do not run until the release, and with them the trigger filters' intervals. -/
def hardResetEffect (s : State) : State :=
  { s.afterReset with
    resetLow := true, cbaddr := 0, noticeEn := NoticeSet.clear,
    trig0 := ⟨s.trig0.pin, none, false⟩, trig1 := ⟨s.trig1.pin, none, false⟩ }

def execHardReset (s : State) : Outcome := .next (hardResetEffect s)

/-- RESET_N_RELEASE: the part leaves reset, and the Timebase and the trigger filters start (R162, R177, R178). -/
def resetNReleaseEffect (s : State) : State :=
  if s.resetLow then
    { s with resetLow := false, trig0 := TrigFilter.afterReset s.trig0.pin, trig1 := TrigFilter.afterReset s.trig1.pin }
  else s

def execResetNRelease (s : State) : Outcome := .next (resetNReleaseEffect s)

end Sys2Proof.Machine
end

