-- ==== Sys2Proof/Machine/Dispatch.lean ====
section
/-! DEFINITION. One arm per command: its meaning. -/

namespace Sys2Proof.Machine

def exec (i : Instr) (s : State) : Host.Outcome State Fault Refusal :=
  match i with
  | .start => Sys2Proof.Machine.execStart s
  | .stop => Sys2Proof.Machine.execStop s
  | .reset => Sys2Proof.Machine.execReset s
  | .enumerate => Sys2Proof.Machine.execEnumerate s
  | .rescanN => Sys2Proof.Machine.execRescanN s
  | .rescanP => Sys2Proof.Machine.execRescanP s
  | .resumeN => Sys2Proof.Machine.execResumeN s
  | .resumeP => Sys2Proof.Machine.execResumeP s
  | .abortN => Sys2Proof.Machine.execAbortN s
  | .abortP => Sys2Proof.Machine.execAbortP s
  | .unknownCommand code => Sys2Proof.Machine.execUnknownCommand code s
  | .cbaddrWrite value => Sys2Proof.Machine.execCbaddrWrite value s
  | .noticeWrite value => Sys2Proof.Machine.execNoticeWrite value s
  | .noticeenWrite value => Sys2Proof.Machine.execNoticeenWrite value s
  | .tilechgRead off len => Sys2Proof.Machine.execTilechgRead off len s
  | .registerWriteIgnored off len => Sys2Proof.Machine.execRegisterWriteIgnored off len s
  | .hardReset => Sys2Proof.Machine.execHardReset s
  | .resetNRelease => Sys2Proof.Machine.execResetNRelease s
  | .trigPinChange input level => Sys2Proof.Machine.execTrigPinChange input level s
  | .trigFilterExpiry input => Sys2Proof.Machine.execTrigFilterExpiry input s
  | .syncPulseExpiry output => Sys2Proof.Machine.execSyncPulseExpiry output s
  | .receiverLock p => Sys2Proof.Machine.execReceiverLock p s
  | .tileLock p => Sys2Proof.Machine.execTileLock p s
  | .hardError p => Sys2Proof.Machine.execHardError p s
  | .ackReceived p dist tag status => Sys2Proof.Machine.execAckReceived p dist tag status s
  | .dataReceived p dist tag words => Sys2Proof.Machine.execDataReceived p dist tag words s
  | .faultNotice p dist code => Sys2Proof.Machine.execFaultNotice p dist code s
  | .frameNotice p dist => Sys2Proof.Machine.execFrameNotice p dist s
  | .linkErrorPacket p bs => Sys2Proof.Machine.execLinkErrorPacket p bs s
  | .transmissionEnd p => Sys2Proof.Machine.execTransmissionEnd p s
  | .timebaseTick => Sys2Proof.Machine.execTimebaseTick s
  | .attemptTimerExpiry p => Sys2Proof.Machine.execAttemptTimerExpiry p s
  | .chainResetWaitExpiry p => Sys2Proof.Machine.execChainResetWaitExpiry p s
  | .probeDeadlineExpiry p => Sys2Proof.Machine.execProbeDeadlineExpiry p s
  | .replyDeadlineExpiry p tag => Sys2Proof.Machine.execReplyDeadlineExpiry p tag s
  | .settleTimerExpiry t => Sys2Proof.Machine.execSettleTimerExpiry t s
  | .restTimerExpiry t => Sys2Proof.Machine.execRestTimerExpiry t s
  | .pollTimerExpiry c => Sys2Proof.Machine.execPollTimerExpiry c s
  | .waitTimeout slot => Sys2Proof.Machine.execWaitTimeout slot s
  | .pauseExpiry slot => Sys2Proof.Machine.execPauseExpiry slot s
  | .wakeHistoryAgeOut => Sys2Proof.Machine.execWakeHistoryAgeOut s
  | .sleepGateOpen t => Sys2Proof.Machine.execSleepGateOpen t s
  | .readyGateOpen t => Sys2Proof.Machine.execReadyGateOpen t s
  | .controlBlockReadDone r => Sys2Proof.Machine.execControlBlockReadDone r s
  | .statusWriteDone t ok => Sys2Proof.Machine.execStatusWriteDone t ok s
  | .statusRewriteStart t => Sys2Proof.Machine.execStatusRewriteStart t s
  | .headerReadDone c r => Sys2Proof.Machine.execHeaderReadDone c r s
  | .stepReadDone c r => Sys2Proof.Machine.execStepReadDone c r s
  | .rescanReadDone c r => Sys2Proof.Machine.execRescanReadDone c r s
  | .takenWriteDone c ok => Sys2Proof.Machine.execTakenWriteDone c ok s
  | .fetchFailWriteDone c last ok => Sys2Proof.Machine.execFetchFailWriteDone c last ok s
  | .resultWriteDone slot last ok => Sys2Proof.Machine.execResultWriteDone slot last ok s
  | .stateWordWriteDone slot ok => Sys2Proof.Machine.execStateWordWriteDone slot ok s
  | .stagingReadDone slot t r => Sys2Proof.Machine.execStagingReadDone slot t r s
  | .destinationWriteDone p tag ok => Sys2Proof.Machine.execDestinationWriteDone p tag ok s
  | .packetIssue p => Sys2Proof.Machine.execPacketIssue p s
  | .jobAdmission slot => Sys2Proof.Machine.execJobAdmission slot s
  | .slotOffer slot => Sys2Proof.Machine.execSlotOffer slot s
  | .jobDrained slot => Sys2Proof.Machine.execJobDrained slot s
  | .rescanPending c => Sys2Proof.Machine.execRescanPending c s
  | .resumeDeferred c => Sys2Proof.Machine.execResumeDeferred c s
  | .engineEntersRunning => Sys2Proof.Machine.execEngineEntersRunning s
  | .engineStopped => Sys2Proof.Machine.execEngineStopped s

end Sys2Proof.Machine
end

