-- ==== Sys2Proof/Machine/TileSide.lean ====
section
/-! DEFINITION. The tile's side of the chain protocol (R1 to R9, R120 to R122, R133): a machine of its own, the part's bus
partner. Nothing of it is in `State`; the part sees it through the commands of the chain (log 27). A panel detects its faults
by itself: `detectFault` is an event (R7), as are the millisecond `tick` (R6), `lock` and `loseLock` (R133). -/

namespace Sys2Proof.Machine

/-! ## What a tile holds (01, section 1.1) -/

/-- One pixel of the frame memory, as it was written (R4). -/
structure Pixel where
  format : PixelFormat
  value : Word
  deriving DecidableEq, Repr

/-- A tile. `locked` is its own receiver's lock, and `trainsDown` that it trains its output towards the next tile (R133).
`frame` lists the frame memory row by row, and `toBoundary` is the time in ms to its next frame boundary while it is awake
(R6). -/
structure TileDev where
  identity : Identity
  geometry : Geometry
  locked : Bool
  trainsDown : Bool
  awake : Bool
  inFault : Bool
  faultCode : BitVec 4
  shown : Bool
  bandMode : Bool
  bandStart : Half
  bandEnd : Half
  inverted : Bool
  window : Window
  roll : Roll
  pointer : Nat
  writeOpen : Bool
  held : List Packet
  frameCounter : Half
  toBoundary : Nat
  frame : List Pixel
  deriving DecidableEq, Repr

/-- A tile's frame memory has one place for each pixel of its panel (R4), and its window lies on the panel. -/
def TileDev.Wf (d : TileDev) : Prop :=
  d.frame.length = d.geometry.width.toNat * d.geometry.height.toNat ∧
  d.window.colStart.toNat ≤ d.window.colEnd.toNat ∧ d.window.colEnd.toNat < d.geometry.width.toNat ∧
  d.window.rowStart.toNat ≤ d.window.rowEnd.toNat ∧ d.window.rowEnd.toNat < d.geometry.height.toNat

/-- What a tile sends upstream. -/
inductive TileMsg where
  | ack (tag : BitVec 4) (status : AckStatus)
  | data (tag : BitVec 4) (words : List Word)
  | frameNotice
  | faultNotice (code : BitVec 4)
  deriving DecidableEq, Repr

/-- An upstream packet, with the distance it carries (R1, R140). -/
structure UpPacket where
  distance : Nat
  msg : TileMsg
  deriving DecidableEq, Repr

/-- A tile's own replies and notices leave with distance 0 (R1). -/
def TileMsg.own (m : TileMsg) : UpPacket := ⟨0, m⟩

/-- What one packet or event makes of a tile, and what it sends, in order. -/
abbrev TileResult := TileDev × List UpPacket

/-- The reply to a packet: none to a broadcast, of whatever kind and whenever it is obeyed (R1). -/
def replyTo (p : Packet) (m : TileMsg) : List UpPacket := if p.hop = 15 then [] else [m.own]

/-! ## Defaults (R8) -/

/-- A chain reset. Frame memory and lock stay. -/
def TileDev.chainReset (d : TileDev) : TileDev :=
  { d with
    awake := false, inFault := false, faultCode := 0, shown := false, bandMode := false, bandStart := 0,
    bandEnd := d.geometry.height - 1, inverted := false,
    window := ⟨0, d.geometry.width - 1, 0, d.geometry.height - 1⟩, roll := ⟨0, d.geometry.height, 0⟩, pointer := 0,
    writeOpen := false, held := [], frameCounter := 0 }

/-! ## Validity (R3, R122) -/

def payloadWord (p : Packet) (i : Nat) : Word := p.payload.getD i 0

/-- The operands fit the tile's own geometry and, for ROLLTO, the roll setting it holds. A BAND whose mode word is neither 0
nor 1, which no part sends (R26), is judged as one of mode BAND (DESIGN CHOICE, log 27). -/
def TileDev.valid (d : TileDev) (p : Packet) : Bool :=
  let x := payloadWord p 0
  let y := payloadWord p 1
  match p.kind with
  | .window =>
    decide ((lowHalf x).toNat ≤ (highHalf x).toNat) && decide ((highHalf x).toNat < d.geometry.width.toNat) &&
    decide ((lowHalf y).toNat ≤ (highHalf y).toNat) && decide ((highHalf y).toNat < d.geometry.height.toNat)
  | .band =>
    decide (x = 0) || (decide ((lowHalf y).toNat < d.geometry.height.toNat) &&
      decide ((highHalf y).toNat < d.geometry.height.toNat))
  | .rollArea =>
    decide (1 ≤ (lowHalf y).toNat) && decide ((lowHalf x).toNat + (lowHalf y).toNat ≤ d.geometry.height.toNat)
  | .rollTo =>
    decide (d.roll.top.toNat ≤ (lowHalf x).toNat) &&
      decide ((lowHalf x).toNat < d.roll.top.toNat + d.roll.height.toNat)
  | _ => true

/-! ## The table of R3 -/

/-- Status of the ACK-answered kinds, by kind and condition. An INVERT word that is neither 0 nor 1, which no part sends
(R26), asks for INVERT off (DESIGN CHOICE, log 27). -/
def TileDev.ackStatus (d : TileDev) (p : Packet) : AckStatus :=
  if d.inFault then (if p.kind = .sleep then .ok else .reject)
  else
    match p.kind with
    | .wake => if d.awake then .nochange else .ok
    | .sleep => if d.awake then .ok else .nochange
    | .show => if d.shown then .nochange else .ok
    | .blank => if d.shown then .ok else .nochange
    | .invert => if decide (payloadWord p 0 = 1) = d.inverted then .nochange else .ok
    | .window | .band | .rollArea | .rollTo => if d.valid p then .ok else .reject
    | .pixStart | .pixSeek => if d.awake then .ok else .reject
    | .pixMore => if d.awake && d.writeOpen then .ok else .reject
    | .reset | .probe | .pixRead | .readId | .readState => .reject

/-! ## Frame memory (R4) -/

def Window.columns (w : Window) : Nat := w.colEnd.toNat + 1 - w.colStart.toNat
def Window.rows (w : Window) : Nat := w.rowEnd.toNat + 1 - w.rowStart.toNat

/-- Pixels of the window. -/
def Window.area (w : Window) : Nat := w.columns * w.rows

/-- Place in frame memory of a window offset: columns first within a row, then rows. -/
def TileDev.place (d : TileDev) (off : Nat) : Nat :=
  (d.window.rowStart.toNat + off / d.window.columns) * d.geometry.width.toNat +
    (d.window.colStart.toNat + off % d.window.columns)

/-- The `i`th pixel carried by data words (R106). -/
def carriedPixel (f : PixelFormat) (ws : List Word) (i : Nat) : Pixel :=
  match f with
  | .rgb16 =>
    let w := ws.getD (i / 2) 0
    ⟨f, if i % 2 = 0 then (lowHalf w).setWidth 32 else (highHalf w).setWidth 32⟩
  | .rgb24 => ⟨f, ws.getD i 0 &&& 0x00FFFFFF#32⟩

/-- Pixels `k` on, `n` of them, written one by one at the pointer, which advances and wraps in the window. -/
def TileDev.writePixels (f : PixelFormat) (ws : List Word) (k : Nat) : Nat → TileDev → TileDev
  | 0, d => d
  | n + 1, d =>
    let d1 := { d with frame := d.frame.set (d.place d.pointer) (carriedPixel f ws k),
                       pointer := (d.pointer + 1) % d.window.area }
    TileDev.writePixels f ws (k + 1) n d1

/-! A control word's fields as they stand (12.6). A count of 0, or above 256 in RGB16 or 128 in RGB24, which no part sends
(R107), is taken as carried, with no judgement of it (DESIGN CHOICE, log 27). -/

def controlFormat (c : Word) : PixelFormat := if c.getLsbD 26 then .rgb24 else .rgb16
def controlCount (c : Word) : Nat := c.toNat / 2 ^ 17 % 2 ^ 9
def controlOffset (c : Word) : Nat := 128 * (c.toNat % 2 ^ 17)

/-- The bits of a word that one pixel of the format has (R106). -/
def colourBits : PixelFormat → Word
  | .rgb16 => 0x0000FFFF#32
  | .rgb24 => 0x00FFFFFF#32

/-- The pixel at a window offset, in a format: its colour bits alone. Its value when it was written in the other format is a
free value (log 27). -/
def TileDev.pixelAt (d : TileDev) (f : PixelFormat) (off : Nat) : Word :=
  let p := d.frame.getD (d.place (off % d.window.area)) ⟨f, 0⟩
  (if p.format = f then p.value else Config.otherFormat p.value) &&& colourBits f

/-- The words of a PIXREAD reply: `n` pixels from offset `off` on, packed in the format, `n` the count as carried (log 27).
The manual leaves the bits that hold no pixel to the tile (R106): the top byte in RGB24 and the high halfword of the last
word of an odd RGB16 count are free values (DESIGN CHOICE, log 27). -/
def TileDev.readWords (d : TileDev) (f : PixelFormat) (off n : Nat) : List Word :=
  match f with
  | .rgb24 => (List.range n).map (fun i => d.pixelAt f (off + i) ||| (Config.unusedBits i &&& 0xFF000000#32))
  | .rgb16 => (List.range ((n + 1) / 2)).map (fun k =>
      d.pixelAt f (off + 2 * k) |||
        (if 2 * k + 1 < n then d.pixelAt f (off + 2 * k + 1) <<< 16 else Config.unusedBits k &&& 0xFFFF0000#32))

/-! ## Obeying a packet -/

/-- The status word of READSTATE (R9, 12.5). The manual leaves its spare bits 8 to 15 to the tile: they are a free value
(DESIGN CHOICE, log 27). -/
def TileDev.statusWord (d : TileDev) : Word :=
  let known := BitVec.ofNat 32 ((if d.awake then 1 else 0) + (if d.shown then 2 else 0) + (if d.bandMode then 4 else 0) +
    (if d.inverted then 8 else 0) + 16 * d.faultCode.toNat + 2 ^ 16 * d.frameCounter.toNat)
  known ||| (Config.statusSpare known &&& 0x0000FF00#32)

/-- The identity words of PROBE and READID (R9, 12.5). The manual leaves their spare high halfwords to the tile: they are a
free value (DESIGN CHOICE, log 27). -/
def TileDev.identityWords (d : TileDev) : List Word :=
  [d.identity.vendor, d.identity.model, d.identity.revision, d.geometry.framePeriod, d.geometry.width,
   d.geometry.height].mapIdx (fun i h => h.setWidth 32 ||| (Config.identitySpare i &&& 0xFFFF0000#32))

/-- Only the three pixel-write kinds leave the write as it was (R4), one that the tile answers with REJECT too: R4 closes it
for no packet of these kinds, where R111 speaks of a write that stays closed after one was refused (DESIGN CHOICE, log 27).
-/
def TileDev.closeUnlessPixels (p : Packet) (d : TileDev) : TileDev :=
  match p.kind with
  | .pixStart | .pixMore | .pixSeek => d
  | _ => { d with writeOpen := false }

/-- The effect of an accepted packet (R3, R4, R6, R7, R122). The first frame boundary lies one frame period after the WAKE. Of
operands no part sends, an INVERT word not 0 or 1 is INVERT off, a BAND mode word not 0 or 1 is mode BAND, and a pixel count
out of its range is obeyed as carried (DESIGN CHOICE, log 27). -/
def TileDev.accept (d : TileDev) (p : Packet) : TileDev :=
  let x := payloadWord p 0
  let y := payloadWord p 1
  match p.kind with
  | .wake => { d with awake := true, toBoundary := d.geometry.framePeriod.toNat }
  | .sleep => { d with awake := false, inFault := false, faultCode := 0 }
  | .show => { d with shown := true }
  | .blank => { d with shown := false }
  | .invert => { d with inverted := decide (x = 1) }
  | .window => { d with window := ⟨lowHalf x, highHalf x, lowHalf y, highHalf y⟩, pointer := 0 }
  | .band =>
    if x = 0 then { d with bandMode := false, bandStart := 0, bandEnd := d.geometry.height - 1 }
    else { d with bandMode := true, bandStart := lowHalf y, bandEnd := highHalf y }
  | .rollArea => { d with roll := ⟨lowHalf x, lowHalf y, lowHalf x⟩ }
  | .rollTo => { d with roll := { d.roll with start := lowHalf x } }
  | .pixStart => TileDev.writePixels (controlFormat x) p.payload.tail 0 (controlCount x)
      { d with pointer := 0, writeOpen := true }
  | .pixSeek => TileDev.writePixels (controlFormat x) p.payload.tail 0 (controlCount x)
      { d with pointer := controlOffset x % d.window.area, writeOpen := true }
  | .pixMore => TileDev.writePixels (controlFormat x) p.payload.tail 0 (controlCount x) d
  | .reset | .probe | .pixRead | .readId | .readState => d

/-- A rejected packet changes nothing but that the write closes as R4 gives (R2). -/
def TileDev.obeyAcked (d : TileDev) (p : Packet) : TileResult :=
  let st := d.ackStatus p
  let d1 := match st with
    | .reject => d
    | .nochange => d
    | .ok => d.accept p
  (d1.closeUnlessPixels p, replyTo p (.ack p.tag st))

/-- A packet obeyed now, held packets aside: its one reply (R2), none for a broadcast (R1). -/
def TileDev.obey (d : TileDev) (p : Packet) : TileResult :=
  let closed := d.closeUnlessPixels p
  match p.kind with
  | .reset => (d.chainReset, [])
  | .probe | .readId => (closed, replyTo p (.data p.tag d.identityWords))
  | .readState => (closed, replyTo p (.data p.tag [d.statusWord]))
  | .pixRead =>
    if d.awake && !d.inFault then
      let c := payloadWord p 0
      (closed, replyTo p (.data p.tag (d.readWords (controlFormat c) (controlOffset c) (controlCount c))))
    else (closed, replyTo p (.ack p.tag .reject))
  | _ => d.obeyAcked p

/-- Held packets obeyed in queue order; a held SLEEP comes after those behind it (R5). -/
def TileDev.obeyHeld : List Packet → TileDev → TileResult
  | [], d => (d, [])
  | p :: rest, d =>
    if p.kind = .sleep then
      let r := TileDev.obeyHeld rest d
      let q := r.1.obey p
      (q.1, r.2 ++ q.2)
    else
      let q := d.obey p
      let r := TileDev.obeyHeld rest q.1
      (r.1, q.2 ++ r.2)

/-- An addressed packet: held, or obeyed at once (R5). A RESET is never held: one with the ON_FRAME indication, which no part
sends (R126), is obeyed at once by an awake tile too (DESIGN CHOICE, log 27). -/
def TileDev.take (d : TileDev) (p : Packet) : TileResult :=
  if p.onFrame && d.awake && !d.inFault && decide (p.kind ≠ .reset) then
    if d.held.length < 4 then ({ d with held := d.held ++ [p] }, [])
    else (d.closeUnlessPixels p, replyTo p (.ack p.tag .reject))
  else if p.kind = .sleep then
    let r := TileDev.obeyHeld d.held { d with held := [] }
    let q := r.1.obey p
    (q.1, r.2 ++ q.2)
  else d.obey p

/-- A downstream packet arrives with a good CRC and good framing: what the tile does, what it sends upstream, and the packet
it passes on (R1). A broadcast draws no reply of its own; held packets it makes the tile obey are answered as ever. Hops 12 to
14 are never sent (R140), and the tile drops a packet that carries one (DESIGN CHOICE, log 27). -/
def TileDev.receive (d : TileDev) (p : Packet) : TileDev × List UpPacket × Option Packet :=
  if p.hop = 0 then let r := d.take p; (r.1, r.2, none)
  else if p.hop = 15 then let r := d.take p; (r.1, r.2, some p)
  else if p.hop.toNat ≤ 11 then (d, [], some { p with hop := p.hop - 1 })
  else (d, [], none)

/-- An upstream packet from the next tile is passed on with its distance one higher, while the tile's own receiver is locked
(R1, R133). -/
def TileDev.relayUp (d : TileDev) (u : UpPacket) : Option UpPacket :=
  if d.locked then some { u with distance := u.distance + 1 } else none

/-! ## Packets as bytes (R141, R142, 12.6) -/

/-- The bytes of an upstream packet. A NOTICE's tag is a free value (log 27). -/
def UpPacket.bytes (u : UpPacket) : List Byte :=
  let place (tag : BitVec 4) : Byte := tag ++ BitVec.ofNat 4 u.distance
  let body := match u.msg with
    | .ack tag st => [0x01, place tag, (match st with | .ok => 0x00 | .nochange => 0x01 | .reject => 0x02), 0]
    | .data tag ws => [0x02, place tag, 0x00, BitVec.ofNat 8 ws.length] ++ wordsBytes ws
    | .frameNotice => [0x03, place Config.noticeTag, 0x10, 0]
    | .faultNotice code => [0x03, place Config.noticeTag, 0x20 + code.setWidth 8, 0]
  body ++ halfBytes (crc16 body)

def allPacketKinds : List PacketKind :=
  [.reset, .probe, .wake, .sleep, .show, .blank, .invert, .window, .band, .rollArea, .rollTo, .pixStart, .pixMore, .pixSeek,
   .pixRead, .readId, .readState]

/-- The downstream kind with a code, if there is one. -/
def PacketKind.ofCode (n : Nat) : Option PacketKind := allPacketKinds.find? (fun k => decide (k.code = n))

/-- Payload lengths of a downstream kind: a pixel write is its control word and 1 to 128 data words. How many its pixels fill
is not compared (DEDUCED from R141, log 27). -/
def PacketKind.lengthOk (k : PacketKind) (n : Nat) : Bool :=
  match k with
  | .invert | .rollTo | .pixRead => decide (n = 1)
  | .window | .band | .rollArea => decide (n = 2)
  | .pixStart | .pixMore | .pixSeek => decide (2 ≤ n) && decide (n ≤ 129)
  | _ => decide (n = 0)

/-- The last two bytes of a packet are the CRC of those before them. -/
def crcHolds (bs : List Byte) : Bool := decide (crc16 (bs.take (bs.length - 2)) = halfAt bs (bs.length - 2))

/-- A downstream packet judged by its tile as the part judges an upstream one: length and kind, CRC, then the fields (R142).
None is a packet it does not obey. -/
def judgeDownstream (bs : List Byte) : Option Packet :=
  let len := (byteAt bs 3).toNat
  match PacketKind.ofCode (byteAt bs 0).toNat with
  | none => none
  | some k =>
    if bs.length = 4 + 4 * len + 2 ∧ crcHolds bs = true ∧ k.lengthOk len = true then
      some { kind := k, hop := (byteAt bs 1).setWidth 4, tag := ((byteAt bs 1) >>> 4).setWidth 4,
             onFrame := (byteAt bs 2).getLsbD 0, payload := wordsAt bs 4 len }
    else none

/-- A CRC that fails over a body: by which bits is a free value (log 27). -/
def failingCrc (body : List Byte) : Half :=
  let c := crc16 body
  c ^^^ (if Config.crcError c = 0 then 1 else Config.crcError c)

/-- A packet sent on with another hop or distance: its CRC is computed anew, and fails when the one it came with failed
(R141). -/
def relayed (place : BitVec 4 → BitVec 4) (bs : List Byte) : List Byte :=
  let b := byteAt bs 1
  let body := (bs.take (bs.length - 2)).set 1 (((b >>> 4).setWidth 4) ++ place (b.setWidth 4))
  body ++ halfBytes (if crcHolds bs then crc16 body else failingCrc body)

/-- The bytes of a downstream packet arrive: a packet with a bad CRC or bad framing is not obeyed, draws no reply and leaves
the tile as it was (R142); whatever is addressed further down is sent on (R1, R141). Fewer bytes than a header and a CRC are
no packet and go no further (DESIGN CHOICE, log 27). -/
def TileDev.receiveBytes (d : TileDev) (bs : List Byte) : TileDev × List UpPacket × Option (List Byte) :=
  let hop : BitVec 4 := (byteAt bs 1).setWidth 4
  let r := match judgeDownstream bs with
    | some p => d.take p
    | none => (d, [])
  if bs.length < 6 then (d, [], none)
  else if hop = 0 then (r.1, r.2, none)
  else if hop = 15 then (r.1, r.2, some bs)
  else if hop.toNat ≤ 11 then (d, [], some (relayed (· - 1) bs))
  else (d, [], none)

/-- The bytes of an upstream packet from the next tile, sent on while the tile's own receiver is locked (R1, R133, R141). -/
def TileDev.relayUpBytes (d : TileDev) (bs : List Byte) : Option (List Byte) :=
  if d.locked = true ∧ 6 ≤ bs.length then
    some (relayed (fun k => if k = 15 then Config.distanceBeyond else k + 1) bs)
  else none

/-! ## Frame boundaries and faults (R6, R7) -/

/-- A frame boundary of an awake tile: counter, held queue, FRAME notice; the next one lies a frame period on (R6). -/
def TileDev.boundary (d : TileDev) : TileResult :=
  if d.awake then
    let r := TileDev.obeyHeld d.held
      { d with frameCounter := d.frameCounter + 1, held := [], toBoundary := d.geometry.framePeriod.toNat }
    (r.1, r.2 ++ [TileMsg.frameNotice.own])
  else (d, [])

/-- A millisecond passes. An awake tile reaches a boundary each time its frame period has gone by; an asleep one reaches none
(R6). -/
def TileDev.tick (d : TileDev) : TileResult :=
  if d.awake then
    if d.toBoundary ≤ 1 then d.boundary else ({ d with toBoundary := d.toBoundary - 1 }, [])
  else (d, [])

/-- A fault detected: blank, the fault condition, the FAULT notice, then a REJECT for every held packet (R5, R7). -/
def TileDev.detectFault (d : TileDev) (code : BitVec 4) : TileResult :=
  ({ d with shown := false, inFault := true, faultCode := code, held := [],
            writeOpen := d.writeOpen && d.held.isEmpty },
   (TileMsg.faultNotice code).own :: (d.held.map (fun p => replyTo p (.ack p.tag .reject))).flatten)

/-! ## Training (R133) -/

/-- The training sequence on the tile's input: its receiver locks, and once locked it trains its output towards the next
tile. -/
def TileDev.lock (d : TileDev) : TileDev := { d with locked := true, trainsDown := true }

/-- Lock lost on the input: settings, held queue, frame memory and power condition stay (R133). That the tile's training of the
next pair ends there too is the model's (DESIGN CHOICE, log 27). -/
def TileDev.loseLock (d : TileDev) : TileDev := { d with locked := false, trainsDown := false }

/-- The next tile's lock report arrives: its pair is trained (log 27). -/
def TileDev.nextLocked (d : TileDev) : TileDev := { d with trainsDown := false }

/-- The tile reports tile lock on its upstream output: from its own lock on, whether or not the next tile answers. The model
makes the report at the lock itself, within the 50 ms an attempt has (log 27). -/
def TileDev.reportsLock (d : TileDev) : Bool := d.locked

/-- What the tile drives towards the next one: training, else the packets it passes on while it is locked. R133 does not say
what it drives while its own receiver is not locked: the model has the output idle (DESIGN CHOICE, log 27). -/
inductive DownOutput where
  | idle
  | training
  | packets
  deriving DecidableEq, Repr

def TileDev.downOutput (d : TileDev) : DownOutput :=
  if d.locked then (if d.trainsDown then .training else .packets) else .idle

/-! ## What the panel shows (R120, R121) -/

/-- The frame-memory row shown at panel row `r`. -/
def rowShown (roll : Roll) (r : Nat) : Nat :=
  let t := roll.top.toNat
  let v := roll.height.toNat
  if r < t then r
  else if r < t + v then t + (roll.start.toNat - t + (r - t)) % v
  else r

/-- Panel row `r` lies in the band. -/
def TileDev.inBand (d : TileDev) (r : Nat) : Bool :=
  let s := d.bandStart.toNat
  let e := d.bandEnd.toNat
  !d.bandMode || (if s ≤ e then decide (s ≤ r) && decide (r ≤ e) else decide (s ≤ r) || decide (r ≤ e))

/-- Panel row `r` is lit. -/
def TileDev.lit (d : TileDev) (r : Nat) : Bool :=
  d.awake && d.shown && decide (r < d.geometry.height.toNat) && d.inBand r

/-- One place of the panel: dark, or a pixel of frame memory in its own or in inverted colours. -/
inductive PanelDot where
  | dark
  | shows (p : Option Pixel) (inverted : Bool)
  deriving DecidableEq, Repr

/-- The panel picture at panel row `r`, column `c`, by the order of 7.1: the roll maps the row, the band lights it, inverted
acts on lit rows, and BLANK darkens all (R120, R121). -/
def TileDev.panelDot (d : TileDev) (r c : Nat) : PanelDot :=
  if d.lit r then .shows d.frame[rowShown d.roll r * d.geometry.width.toNat + c]? d.inverted else .dark

end Sys2Proof.Machine
end

