-- ==== Sys2Proof/Machine/Views.lean ====
section
/-! DEFINITION. What the outside sees of a state beside its registers and its shared-memory accesses (`State.accesses`): what
the lines carry, and the sync outputs. -/

namespace Sys2Proof.Machine

/-- What a port's downstream line carries (R131): a packet as its bits, in the order they go (R179). -/
inductive LineCarries where
  | idle
  | training
  | packet (bits : List Bool)
  deriving DecidableEq, Repr

def Port.line (v : Port) : LineCarries :=
  match v.state with
  | .down | .failed => .idle
  | .training => .training
  | .enumerating | .up => (match v.transmitting with | some p => .packet (lineBits p.bytes) | none => .idle)

/-- A sync output is high while its pulse timer runs (R168). -/
def State.syncLevel (s : State) : Line → Bool
  | .zero => s.sync0
  | .one => s.sync1

end Sys2Proof.Machine
end

