-- ==== Sys2Proof/Safety.lean ====
section
/-! DEFINITION. When a command has its occasion, which commands are refused, which of the part's own steps are due (the rules'
"at that event" and "at that tick" say that a due step is taken before anything else; log 1), and what the end of an event
keeps (`EventFrame`). -/

namespace Sys2Proof.Machine

def WalkerWork.isHeaderRead : WalkerWork → Bool
  | .readHeader _ => true
  | .rescanHeader _ => true
  | _ => false

def WalkerWork.isStepRead : WalkerWork → Bool
  | .readSteps _ _ => true
  | _ => false

def WalkerWork.isRescanRead : WalkerWork → Bool
  | .rescanLink _ => true
  | _ => false

def WalkerWork.isTakenWrite : WalkerWork → Bool
  | .takenWrite _ _ => true
  | _ => false

/-- The job in slot `i` is retiring, and the write under way is of this stage. -/
def State.retiresAt (s : State) (i : SlotNum) (st : RetireStage) : Bool :=
  match s.job i with
  | none => false
  | some j => (match j.phase with | .retiring r => decide (r.stage = st) | _ => false)

def State.staging (s : State) (i : SlotNum) (t : TileNum) : Bool :=
  ((s.job i).bind Job.step?).isSome &&
  (match (s.job i).bind (fun j => j.part? t) with | some q => decide (q.staging = .reading) | none => false)

/-- Locks are noted on a port that is neither DOWN nor FAILED (R131). -/
def Port.takesLocks (v : Port) : Bool := match v.state with | .down | .failed => false | _ => true

/-- Receiver lock can be lost: in TRAINING while it holds, in ENUMERATING and UP (R143, R144). -/
def Port.takesHardError (v : Port) : Bool :=
  match v.state with | .down | .failed => false | .training => v.rxLock | _ => true

/-- The oldest entry of the wake history has aged (R87). -/
def State.oldestAged (s : State) : Bool :=
  match s.wakeHistory with | m :: _ => passed s.now m s.historyWindowMs | [] => false

/-- The job in slot `i` is DRAINING with nothing outstanding (R39). -/
def State.drainedOut (s : State) (i : SlotNum) : Bool :=
  match s.job i with | some j => j.phase.isDraining && decide (j.outstanding = 0) | none => false

/-- The command has its occasion: the event its row names can take place in this state. Where it has none it changes
nothing (log 2). -/
def occasion (c : Instr) (s : State) : Bool :=
  match c with
  | .start => !s.resetLow
  | .stop => !s.resetLow
  | .reset => !s.resetLow
  | .enumerate => !s.resetLow
  | .rescanN => !s.resetLow
  | .rescanP => !s.resetLow
  | .resumeN => !s.resetLow
  | .resumeP => !s.resetLow
  | .abortN => !s.resetLow
  | .abortP => !s.resetLow
  | .unknownCommand code => !s.resetLow && decide (commandOfCode code = .unknownCommand code)
  | .cbaddrWrite _ => !s.resetLow
  | .noticeWrite _ => !s.resetLow
  | .noticeenWrite _ => !s.resetLow
  | .tilechgRead _ _ => true
  | .registerWriteIgnored off len => !s.resetLow && decide (len ≠ 4) && decide (off < 8)
  | .hardReset => true
  | .resetNRelease => s.resetLow
  | .trigPinChange i l => decide ((s.trig i).pin ≠ l)
  | .trigFilterExpiry i => !s.resetLow && (s.trig i).running
  | .syncPulseExpiry o => !s.resetLow && s.syncLevel o
  | .receiverLock p => !s.resetLow && (s.port p).takesLocks
  | .tileLock p => !s.resetLow && (s.port p).takesLocks
  | .hardError p => !s.resetLow && (s.port p).takesHardError
  | .ackReceived p _ _ _ => !s.resetLow && (s.port p).receives
  | .dataReceived p _ _ _ => !s.resetLow && (s.port p).receives
  | .faultNotice p d _ => !s.resetLow && ((s.tile (tileOf p d)).state.present && (s.port p).answered d)
  | .frameNotice p d => !s.resetLow && ((s.tile (tileOf p d)).state.present && decide ((s.port p).state = .up))
  | .linkErrorPacket p _ => !s.resetLow && (s.port p).receives
  | .transmissionEnd p => !s.resetLow && !s.txFree p
  | .timebaseTick => !s.resetLow
  | .attemptTimerExpiry p =>
    !s.resetLow && (decide ((s.port p).state = .training) && reachedOpt s.now (s.port p).attemptDue)
  | .chainResetWaitExpiry p =>
    !s.resetLow && (decide ((s.port p).state = .enumerating) && reachedOpt s.now (s.port p).waitDue)
  | .probeDeadlineExpiry p =>
    !s.resetLow && (s.port p).inFlight.any (fun e => decide (e.owner = .enumeration) && reachedOpt s.now e.deadline)
  | .replyDeadlineExpiry p tag =>
    !s.resetLow && (s.port p).inFlight.any (fun e =>
      decide (e.tag = tag) && e.isWaiting && decide (e.kind ≠ .probe) && reachedOpt s.now e.deadline)
  | .settleTimerExpiry t =>
    !s.resetLow && (decide ((s.tile t).state = .waking) && reachedOpt s.now (s.tile t).settleDue && !s.pictureHeld t)
  | .restTimerExpiry t =>
    !s.resetLow && (decide ((s.tile t).state = .dozing) && reachedOpt s.now (s.tile t).restDue &&
      decide (s.now ≠ (s.tile t).changedAt) && !s.pictureHeld t)
  | .pollTimerExpiry c =>
    !s.resetLow && (decide ((s.walker c).state = .parked) && reachedOpt s.now (s.walker c).pollDue)
  | .waitTimeout i => !s.resetLow && s.waitList.any (fun w => decide (w.slot = i) && reached s.now w.due)
  | .pauseExpiry i => !s.resetLow && reachedOpt s.now ((s.job i).bind Job.pauseDue)
  | .wakeHistoryAgeOut => !s.resetLow && s.oldestAged
  | .sleepGateOpen t => !s.resetLow && (s.minAwakePassed t || s.holdPassed t)
  | .readyGateOpen t => !s.resetLow && reachedOpt s.now (s.tile t).readyDue
  | .controlBlockReadDone _ => s.accessCut .controlBlock || !s.resetLow && s.cbRead
  | .statusWriteDone t _ => s.accessCut (.record t) || !s.resetLow && (s.record t).rewrite.isSome
  | .statusRewriteStart t => !s.resetLow && ((s.record t).marked && (s.record t).rewrite.isNone && s.marksRewrites)
  | .headerReadDone c _ => s.accessCut (.header c) || !s.resetLow && (s.walker c).work.isHeaderRead
  | .stepReadDone c _ => s.accessCut (.stepRecords c) || !s.resetLow && (s.walker c).work.isStepRead
  | .rescanReadDone c _ => s.accessCut (.rescan c) || !s.resetLow && (s.walker c).work.isRescanRead
  | .takenWriteDone c _ => s.accessCut (.taken c) || !s.resetLow && (s.walker c).work.isTakenWrite
  | .fetchFailWriteDone c _ _ => s.accessCut (.directRetirement c) || !s.resetLow && (s.walker c).work.isRetiring
  | .resultWriteDone i _ _ => s.accessCut (.results i) || !s.resetLow && s.retiresAt i .results
  | .stateWordWriteDone i _ => s.accessCut (.stateWord i) || !s.resetLow && s.retiresAt i .stateWord
  | .stagingReadDone i t _ => s.accessCut (.staging i t) || !s.resetLow && (s.readStopped i t || s.staging i t)
  | .destinationWriteDone p tag _ => s.accessCut (.destination p tag) ||
    !s.resetLow && ((s.port p).cutWriting tag || ((s.port p).writingEntry tag).isSome)
  | .packetIssue p => !s.resetLow && (s.txFree p && (s.arbiterPick p).isSome && (s.port p).freeTag.isSome)
  | .jobAdmission i => !s.resetLow && s.admissible i
  | .slotOffer i => !s.resetLow && (s.offerTaker i).isSome
  | .jobDrained i => !s.resetLow && s.drainedOut i
  | .rescanPending c =>
    !s.resetLow && (decide ((s.walker c).state = .parked) && (s.walker c).work.isNone && (s.walker c).rescanPending)
  | .resumeDeferred c =>
    !s.resetLow && (decide ((s.walker c).state = .halted) && (s.walker c).work.isNone && (s.walker c).resumePending)
  | .engineEntersRunning =>
    !s.resetLow && (decide (s.engine = .starting .ports) && !s.portBringingUp .A && !s.portBringingUp .B)
  | .engineStopped => !s.resetLow && (decide (s.engine = .stopping) && s.stopped)

/-- What the access was made for whose end the command is. -/
def accessEnded : Instr → Option AccessId
  | .controlBlockReadDone _ => some .controlBlock
  | .statusWriteDone t _ => some (.record t)
  | .headerReadDone c _ => some (.header c)
  | .stepReadDone c _ => some (.stepRecords c)
  | .rescanReadDone c _ => some (.rescan c)
  | .takenWriteDone c _ => some (.taken c)
  | .fetchFailWriteDone c _ _ => some (.directRetirement c)
  | .resultWriteDone i _ _ => some (.results i)
  | .stateWordWriteDone i _ => some (.stateWord i)
  | .stagingReadDone i t _ => some (.staging i t)
  | .destinationWriteDone p tag _ => some (.destination p tag)
  | _ => none

def bothPorts : List PortId := [.A, .B]
def bothChains : List Chain := [.normal, .priority]

/-- The gate rows still to be taken: the interval has passed and the gate is not yet marked open. -/
def State.gateStillShut (s : State) (c : Instr) : Bool :=
  match c with
  | .sleepGateOpen t =>
    (s.minAwakePassed t && !(s.tile t).minAwakeOpen) || (s.holdPassed t && !(s.tile t).holdOpen)
  | .readyGateOpen t => !(s.tile t).readyOpen
  | _ => true

/-- The rows that no agent outside the part brings about, the tick apart: expiries at the tick they fall due, and the part's
own steps. -/
def ownRows : List Instr :=
  bothPorts.map .attemptTimerExpiry ++ bothPorts.map .chainResetWaitExpiry ++ bothPorts.map .probeDeadlineExpiry ++
  (bothPorts.map (fun p => (List.finRange 16).map (Instr.replyDeadlineExpiry p))).flatten ++
  allTiles.map .settleTimerExpiry ++ allTiles.map .restTimerExpiry ++ bothChains.map .pollTimerExpiry ++
  allSlots.map .waitTimeout ++ allSlots.map .pauseExpiry ++ [.wakeHistoryAgeOut] ++ allTiles.map .sleepGateOpen ++
  allTiles.map .readyGateOpen ++ allTiles.map .statusRewriteStart ++ bothPorts.map .packetIssue ++
  allSlots.map .jobAdmission ++ allSlots.map .slotOffer ++ allSlots.map .jobDrained ++ bothChains.map .rescanPending ++
  bothChains.map .resumeDeferred ++ [.engineEntersRunning, .engineStopped]

/-- The part's own steps whose occasion holds now. -/
def State.due (s : State) : List Instr := ownRows.filter (fun c => occasion c s && s.gateStillShut c)

/-- The queue obeys "at that event": while some step of the part's own is due, the command in front is one of those due. -/
def State.prompt (s : State) : Bool :=
  match s.due, s.pending with
  | [], _ => true
  | _, [] => false
  | ds, c :: _ => ds.contains c

/-! ## Refused commands (R169, R170, R182) -/

/-- The ten COMMAND codes (12.7). -/
def knownCodes : List Word := [0x01, 0x02, 0x03, 0x04, 0x10, 0x11, 0x12, 0x13, 0x14, 0x15]

/-- The command is refused in this engine state. -/
def commandRefused (c : Instr) (e : EngineState) : Bool :=
  match c with
  | .start | .enumerate | .cbaddrWrite _ => !e.isOffOrHalted
  | .stop => !e.isStartingOrRunning
  | .rescanN | .rescanP | .resumeN | .resumeP | .abortN | .abortP => decide (e ≠ .running)
  | .unknownCommand code => !knownCodes.contains code
  | .registerWriteIgnored off len => decide (len ≠ 4) && decide (off < 8)
  | _ => false

/-! ## Between two events -/

/-- What holds between two events, whatever the event was: no step is over and waits to go on (R37), a tile part that has
failed is one that drains with its packets still in flight (R34), only a DRAINING job has parts it withdrew (R36, R39), and
jobs run only while the engine is RUNNING (R40, R173). -/
def Quiet (s : State) : Prop :=
  s.readySlots = [] ∧
  (∀ i, ∀ j ∈ s.job i, j.engineDone = false) ∧
  (∀ i, ∀ j ∈ s.job i, ∀ q ∈ j.parts, q.cond.hasFailed = true →
    q.cond = .draining ∧ q.staging = .empty ∧ s.hasInFlight i q.tile = true) ∧
  (∀ i, ∀ j ∈ s.job i, ∀ q ∈ j.parts, q.cond = .withdrawn → j.phase.isDraining = true) ∧
  (s.engine ≠ .running → ∀ i, ∀ j ∈ s.job i, j.phase.isRunning = false)

/-- What a walker fetches, or has fetched and not yet taken, has steps (R22, R53). -/
def WalkerWork.HasSteps : WalkerWork → Prop
  | .readSteps _ h => 1 ≤ headerCount h
  | .held d _ => d.steps ≠ []
  | .takenWrite d _ => d.steps ≠ []
  | _ => True

/-- Every job stands at one of its steps, and no walker brings a job without steps (R22, R37, R53). -/
def State.HasSteps (s : State) : Prop :=
  (∀ i, ∀ j ∈ s.job i, j.current < j.steps.length) ∧ ∀ c, (s.walker c).work.HasSteps

/-- Whatever goes on at this event, nothing but the work of slot `own` on tile `x` itself can fail on `x`: no other RUNNING
job has a tile part on it, and no later step of a RUNNING job names it. -/
def State.Undisturbed (s : State) (x : TileNum) (own : Option SlotNum) : Prop :=
  ∀ k, ∀ j ∈ s.job k, j.phase.isRunning = true →
    (own ≠ some k → ∀ q ∈ j.parts, q.tile ≠ x) ∧
    ∀ st ∈ j.steps.drop (j.current + 1), st.tiles.getLsbD x.val = false

/-- No later step of a RUNNING job names tile `x`. -/
def State.NoLaterStep (s : State) (x : TileNum) : Prop :=
  ∀ k, ∀ j ∈ s.job k, j.phase = .running → ∀ st ∈ j.steps.drop (j.current + 1), st.tiles.getLsbD x.val = false

/-- The job in slot `i` has a packet in flight to tile `x` besides `e` (R34, R112). -/
def State.HasMore (s : State) (e : Entry) (i : SlotNum) (x : TileNum) : Prop :=
  ∃ f ∈ (s.port (portOf x)).inFlight, f.tag ≠ e.tag ∧ f.tile = x ∧ f.owner.slot? = some i

/-- The tile part of an in-flight entry's owner: one of the current step of its job, not failed before, of the entry's kind,
and none that waits. That every job has a current step is an invariant (`State.HasSteps`). -/
def State.OwnPartSound (s : State) (e : Entry) : Prop :=
  ∀ i ∈ e.owner.slot?, ∀ j ∈ s.job i, ∀ q ∈ j.part? e.tile, ∃ st ∈ j.step?,
    q.cond.hasFailed = false ∧ q.cond ≠ .waiting ∧ (st.kind.isStream = false → st.kind.packet = e.kind) ∧
    (st.kind.isStream = true → e.kind.isPixelWrite = true ∨ e.kind = .pixRead)

/-- Between `s` and `t` the tile part of the job in slot `i` on tile `x` has left the pending tile parts, the others have
stayed, and `ended` transactions have ended; with the last part the step of a RUNNING job completes, and the job goes on (R33,
R37, R151). -/
def PartLeaves (s t : State) (i : SlotNum) (x : TileNum) (ended : Nat) : Prop :=
  ∀ j ∈ s.job i, ∀ st ∈ j.step?, st.kind.isEngine = false →
    let rest := j.parts.filter (fun q => decide (q.tile ≠ x))
    (j.phase ≠ .running ∨ rest ≠ [] → t.job i = some { j with parts := rest, outstanding := j.outstanding - ended }) ∧
    (j.phase = .running → rest = [] →
      ∃ j', t.job i = some j' ∧ j.stepsDone < j'.stepsDone ∧ (j'.phase = .running → j.current < j'.current))

/-- Between `s` and `t` the tile part of the job in slot `i` on tile `x` has failed with code `c`: a RUNNING job whose step is
not TOLERANT records its first failure and drains; a TOLERANT step counts it and goes on with its other parts (R34 to R36). -/
def PartFails (s t : State) (i : SlotNum) (x : TileNum) (c : ErrorCode) : Prop :=
  ∀ j ∈ s.job i, ∀ q ∈ j.part? x, ∀ st ∈ j.step?, st.kind.isEngine = false → j.phase = .running →
    q.cond.hasFailed = false →
    (st.tolerant = false → ∃ j', t.job i = some j' ∧ j'.phase = .draining ∧
      j'.firstFailure = some ⟨c, j.current, some x⟩ ∧ j'.stepsDone = j.stepsDone ∧ j'.tolerated = j.tolerated) ∧
    (st.tolerant = true → ∃ j', t.job i = some j' ∧ min 255 (j.tolerated + 1) ≤ j'.tolerated ∧
      ((∃ q' ∈ j.parts, q'.tile ≠ x) → j'.phase = .running ∧ j'.current = j.current))

/-- A segment of the stream that the job in slot `i` has open on the tile of `e` succeeds with the end of `e` between `s` and
`t`: pixels acknowledged rises by its pixels; once every segment has issued and every pixel is acknowledged the tile part
completes; and a stream that is over closes with its last segment in flight (R108, R111, R112, R117). -/
def SegmentSucceeds (s t : State) (e : Entry) (i : SlotNum) : Prop :=
  ∀ j ∈ s.job i, ∀ q ∈ j.part? e.tile, ∀ st ∈ j.step?, st.kind.isStream = true →
    ∀ r, (s.tile e.tile).stream = some r → r.owner = i →
    let acked := r.acked + e.pixels
    let completes := q.cond = .issued ∧ st.pixelCount ≤ acked
    let goesOn := j.phase = .running ∧ (q.cond = .candidate ∨ (q.cond = .issued ∧ ¬ completes))
    (s.HasMore e i e.tile ∨ goesOn → (t.tile e.tile).stream = some { r with acked := acked }) ∧
    (¬ s.HasMore e i e.tile → ¬ goesOn → (t.tile e.tile).stream = none) ∧
    (completes → PartLeaves s t i e.tile 1) ∧
    (goesOn → t.job i = some { j with outstanding := j.outstanding - 1 })

/-- The occurrence of `src` between `s` and `t` completed every WAIT that listened for it (R161, R163). -/
def WaitsCompleted (s t : State) (src : EventSource) : Prop :=
  ∀ w ∈ s.waitList, w.source = src → ∀ j ∈ s.job w.slot, ∀ st ∈ j.step?, j.phase = .running → st.kind = .wait →
    ∃ j', t.job w.slot = some j' ∧ j.stepsDone < j'.stepsDone ∧ (j'.phase = .running → j.current < j'.current)

/-- The occurrence of `src` between `s` and `t` completed the WAITs that listened for it and raised the sync outputs that
select it while the engine is RUNNING or STOPPING (R168); a slot that had no WAIT in the list is as it was. -/
def Delivered (s t : State) (src : EventSource) : Prop :=
  WaitsCompleted s t src ∧
  (s.engine = .running ∨ s.engine = .stopping → s.settings.sync0 = some src → t.sync0 = true) ∧
  (s.engine = .running ∨ s.engine = .stopping → s.settings.sync1 = some src → t.sync1 = true) ∧
  (∀ i, (∀ w ∈ s.waitList, w.slot ≠ i) → t.slot i = s.slot i)

/-- The tile parts that are pending once a step has become current, in increasing tile order (R28, R29, R31, R109). -/
def State.partsAtEntry (s : State) (st : Step) : List TilePart :=
  (tilesIn st.tiles).filterMap (fun x => match s.judge st x with
    | .candidate => some ⟨x, .candidate, if st.kind = .put then .reading else .empty⟩
    | .waits => some ⟨x, .waiting, .empty⟩
    | .joined => some ⟨x, .joined, .empty⟩
    | .completes => none
    | .fail _ => none)

/-- The tile parts that fail as a step becomes current, in increasing tile order (R28, R30, R31). -/
def State.failuresAtEntry (s : State) (st : Step) : List (TileNum × ErrorCode) :=
  (tilesIn st.tiles).filterMap (fun x => match s.judge st x with
    | .fail c => some (x, c)
    | _ => none)

/-! ## Control block ranges -/

/-- R47 over the bytes of 12.2: every setting of the block at address `cb` lies in its range. -/
def ControlBlockInRange (cb : Word) (bs : List Byte) : Prop :=
  let wd := fun i => (wordAt bs i).toNat
  let hf := fun i => (halfAt bs i).toNat
  let rights := fun a => (byteAt bs (0x18 + 12 * a)).toNat
  let windowValid := fun a => wd (0x14 + 12 * a) = 0 ∨
    (wd (0x10 + 12 * a) % 16 = 0 ∧ wd (0x14 + 12 * a) % 16 = 0 ∧
      wd (0x10 + 12 * a) + wd (0x14 + 12 * a) ≤ 2 ^ 32 ∧ rights a ≤ 3)
  let inside := fun a addr len => wd (0x14 + 12 * a) ≠ 0 ∧ wd (0x10 + 12 * a) ≤ addr ∧
    addr + len ≤ wd (0x10 + 12 * a) + wd (0x14 + 12 * a)
  let source := fun (b : Byte) => b = 0xFF ∨ (EventSource.ofCode b.toNat).isSome = true
  wd 0x00 % 16 = 0 ∧ wd 0x04 % 16 = 0 ∧ (∀ a, a < 4 → windowValid a) ∧
  (∃ a, a < 4 ∧ inside a cb.toNat 128 ∧ (rights a = 1 ∨ rights a = 3)) ∧
  wd 0x08 % 64 = 0 ∧ (∃ a, a < 4 ∧ inside a (wd 0x08) 1536 ∧ (rights a = 2 ∨ rights a = 3)) ∧
  hf 0x40 ≤ 1000 ∧ 1 ≤ hf 0x42 ∧ hf 0x42 ≤ 255 ∧ 1 ≤ hf 0x44 ∧ hf 0x44 ≤ 8 ∧
  10 ≤ hf 0x46 ∧ hf 0x46 ≤ 5000 ∧ hf 0x48 ≤ 1000 ∧ hf 0x48 ≤ hf 0x46 ∧ 1 ≤ hf 0x4A ∧ hf 0x4A ≤ 1000 ∧
  hf 0x4A ≤ hf 0x4C ∧ hf 0x4C ≤ 2000 ∧ hf 0x4E ≤ 2000 ∧ hf 0x50 ≤ 10000 ∧ hf 0x52 ≤ 1000 ∧
  source (byteAt bs 0x54) ∧ source (byteAt bs 0x55)

/-- A sync source byte and what it selects (R46, 12.8). -/
def SyncSelects (b : Byte) (v : Option EventSource) : Prop :=
  (b = 0xFF → v = none) ∧ (∀ x : TileNum, b.toNat = x.val → v = some (.frame x)) ∧
  (b = 0x20 → v = some (.trig .zero)) ∧ (b = 0x21 → v = some (.trig .one)) ∧
  ∀ n : Fin 4, b.toNat = 0x30 + n.val → v = some (.mark n)

/-- The settings are those of the control block's bytes (R46, 12.2). The rights of a window of size 0 are not judged (R48). -/
def SettingsRead (bs : List Byte) (st : Settings) : Prop :=
  st.normalHead = wordAt bs 0x00 ∧ st.priorityHead = wordAt bs 0x04 ∧ st.statusArea = some (wordAt bs 0x08) ∧
  (∀ a : Fin 4, st.apertures[a].base = wordAt bs (0x10 + 12 * a.val) ∧
    st.apertures[a].size = wordAt bs (0x14 + 12 * a.val) ∧
    (wordAt bs (0x14 + 12 * a.val) ≠ 0 →
      (byteAt bs (0x18 + 12 * a.val) = 0 → st.apertures[a].rights = .none) ∧
      (byteAt bs (0x18 + 12 * a.val) = 1 → st.apertures[a].rights = .read) ∧
      (byteAt bs (0x18 + 12 * a.val) = 2 → st.apertures[a].rights = .write) ∧
      (byteAt bs (0x18 + 12 * a.val) = 3 → st.apertures[a].rights = .readWrite))) ∧
  st.pollMs = (halfAt bs 0x40).toNat ∧ st.replyMs = (halfAt bs 0x42).toNat ∧ st.wakeLimit = (halfAt bs 0x44).toNat ∧
  st.wakeWindowMs = (halfAt bs 0x46).toNat ∧ st.wakeGapMs = (halfAt bs 0x48).toNat ∧
  st.settleMs = (halfAt bs 0x4A).toNat ∧ st.readyMs = (halfAt bs 0x4C).toNat ∧ st.restMs = (halfAt bs 0x4E).toNat ∧
  st.minAwakeMs = (halfAt bs 0x50).toNat ∧ st.holdMs = (halfAt bs 0x52).toNat ∧
  SyncSelects (byteAt bs 0x54) st.sync0 ∧ SyncSelects (byteAt bs 0x55) st.sync1

/-! ## Descriptors -/

/-- The sum of R23: of the header the halfwords of step count and flags and of the label, then every halfword of the step
records up to the step count. -/
def descriptorSum (h bs : List Byte) : Half :=
  ((List.range (8 * (byteAt h 8).toNat)).map (fun k => halfAt bs (2 * k))).foldr (· + ·)
    (halfAt h 8 + halfAt h 12 + halfAt h 14)

/-- A source code that R26 calls valid (12.8). -/
def ValidSource (n : Nat) : Prop := n < 24 ∨ n = 0x20 ∨ n = 0x21 ∨ (0x30 ≤ n ∧ n ≤ 0x33)

/-- Step record `k` is not malformed: R25 and R26, whole, over the bytes of 12.3. -/
def StepWellFormed (bs : List Byte) (k : Nat) : Prop :=
  let kind := (byteAt bs (16 * k)).toNat
  let flag := fun n => (byteAt bs (16 * k + 1)).getLsbD n
  let tiles := (wordAt bs (16 * k + 4)).toNat
  let x := (wordAt bs (16 * k + 8)).toNat
  let y := (wordAt bs (16 * k + 12)).toNat
  1 ≤ kind ∧ kind ≤ 0x10 ∧
  (flag 0 = true → 0x03 ≤ kind ∧ kind ≤ 0x09) ∧ (flag 1 = true → 0x03 ≤ kind ∧ kind ≤ 0x0B) ∧
  (flag 2 = true → kind ≤ 0x0D) ∧ (flag 3 = true → kind = 0x0E) ∧
  tiles < 2 ^ 24 ∧ (tiles = 0 ↔ 0x0E ≤ kind) ∧ (kind = 0x0C ∨ kind = 0x0D → ∃ n : TileNum, tiles = 2 ^ n.val) ∧
  (kind = 0x05 ∨ kind = 0x07 → x ≤ 1) ∧
  (kind = 0x0A ∨ kind = 0x0B → y % 2 ^ 24 ≠ 0 ∧ y / 2 ^ 24 ≤ 1) ∧
  (0x0A ≤ kind ∧ kind ≤ 0x0D → x % 4 = 0) ∧
  (kind = 0x0E → ValidSource x ∧ y % 2 ^ 16 ≠ 0) ∧ (kind = 0x0F → x % 2 ^ 16 ≠ 0) ∧ (kind = 0x10 → x ≤ 3)

/-- Step record `k` passes its aperture test (R26). -/
def StepPermitted (st : Settings) (bs : List Byte) (k : Nat) : Prop :=
  let kind := (byteAt bs (16 * k)).toNat
  let x := (wordAt bs (16 * k + 8)).toNat
  let y := (wordAt bs (16 * k + 12)).toNat
  let extent := if y / 2 ^ 24 = 1 then 4 * (y % 2 ^ 24) else 4 * ((y % 2 ^ 24 + 1) / 2)
  (kind = 0x0A → st.permits x extent true false = true) ∧ (kind = 0x0B → st.permits x extent false true = true) ∧
  (kind = 0x0C → st.permits x 16 false true = true) ∧ (kind = 0x0D → st.permits x 8 false true = true)

/-- The step is step record `k`, field by field (12.3). -/
def StepRead (bs : List Byte) (k : Nat) (p : Step) : Prop :=
  [StepKind.wake, .sleep, .show, .blank, .invert, .window, .band, .rollArea, .rollTo, .put, .get, .readId, .readState,
    .wait, .pause, .mark][(byteAt bs (16 * k)).toNat - 1]? = some p.kind ∧
  p.onFrame = (byteAt bs (16 * k + 1)).getLsbD 0 ∧ p.sleepAfter = (byteAt bs (16 * k + 1)).getLsbD 1 ∧
  p.tolerant = (byteAt bs (16 * k + 1)).getLsbD 2 ∧ p.pass = (byteAt bs (16 * k + 1)).getLsbD 3 ∧
  p.tiles = (wordAt bs (16 * k + 4)).setWidth 24 ∧ p.x = wordAt bs (16 * k + 8) ∧ p.y = wordAt bs (16 * k + 12)

/-- The operands of a step fit a tile with this geometry and roll mirror: check 4 of R30. -/
def OperandsFit (e : TileEntry) (st : Step) : Prop :=
  (st.kind = .window → ∃ g, e.geometry = some g ∧
    st.x.toNat % 2 ^ 16 ≤ st.x.toNat / 2 ^ 16 ∧ st.x.toNat / 2 ^ 16 < g.width.toNat ∧
    st.y.toNat % 2 ^ 16 ≤ st.y.toNat / 2 ^ 16 ∧ st.y.toNat / 2 ^ 16 < g.height.toNat) ∧
  (st.kind = .band → st.x ≠ 0 → ∃ g, e.geometry = some g ∧
    st.y.toNat % 2 ^ 16 < g.height.toNat ∧ st.y.toNat / 2 ^ 16 < g.height.toNat) ∧
  (st.kind = .rollArea → ∃ g, e.geometry = some g ∧
    1 ≤ st.y.toNat % 2 ^ 16 ∧ st.x.toNat % 2 ^ 16 + st.y.toNat % 2 ^ 16 ≤ g.height.toNat) ∧
  (st.kind = .rollTo → ∃ r, e.roll = some r ∧
    r.top.toNat ≤ st.x.toNat % 2 ^ 16 ∧ st.x.toNat % 2 ^ 16 < r.top.toNat + r.height.toNat)

/-! ## What the part writes into shared memory -/

/-- The byte is the error code's, NONE for none (12.8). -/
def ErrorByteIs (b : Byte) (c : Option ErrorCode) : Prop :=
  [none, some .badStep, some .check, some .access, some .busError, some .noTile, some .tileLost, some .notAwake,
    some .tileFault, some .badOperand, some .timeout, some .tileReject, some .linkLost, some .windowChanged,
    some .waitTimeout, some .aborted, some .mirrorMismatch, some .strayReply, some .badIdentity][b.toNat]? = some c

/-- The bytes are those of the state word that ends a descriptor so (12.3, 12.8). -/
def StateWordIs (bs : List Byte) (e : Terminal) : Prop :=
  bs = [match e with | .done => 3 | .partly => 4 | .failed => 5 | .aborted => 6 | .skipped => 7, 0, 0, 0]

/-- The bytes are those of offsets 0x10 to 0x1F of a descriptor with these results, its spare bytes 0 (R42, R180, 12.3). -/
def ResultFields (r : Retirement) (bs : List Byte) : Prop :=
  bs.length = 16 ∧ ErrorByteIs (byteAt bs 0) r.code ∧ byteAt bs 1 = BitVec.ofNat 8 r.failingStep ∧
  (byteAt bs 2).toNat = (r.failingTile.map (fun x => x.val)).getD 255 ∧ byteAt bs 3 = BitVec.ofNat 8 r.tolerated ∧
  byteAt bs 4 = BitVec.ofNat 8 r.stepsDone ∧ byteAt bs 5 = 0 ∧ byteAt bs 6 = 0 ∧ byteAt bs 7 = 0 ∧
  wordAt bs 8 = r.startedAt ∧ wordAt bs 12 = r.endedAt

/-- The write of a retirement under way goes to the descriptor at `a`: the result fields to 0x10 to 0x1F, then the state word
to 0x04 (R43, R55, 12.3). -/
def RetirementWrite (a : Word) (r : Retirement) (w : MemAccess) : Prop :=
  (r.stage = .results → ∃ bs, w = .write (a + 0x10) bs ∧ ResultFields r bs) ∧
  (r.stage = .stateWord → ∃ bs, w = .write (a + 0x04) bs ∧ StateWordIs bs r.terminal)

/-- The bytes are those of offsets 0x02 to 0x3F of the status record of tile `x`: its entry field by field, a field that is
absent 0 (R18, R180, 12.4). -/
def RecordFields (e : TileEntry) (x : TileNum) (bs : List Byte) : Prop :=
  let b := fun o => byteAt bs (o - 2)
  let h := fun o => halfAt bs (o - 2)
  let identity := e.identity.getD ⟨0, 0, 0⟩
  let geometry := e.geometry.getD ⟨0, 0, 0⟩
  let window := e.window.getD ⟨0, 0, 0, 0⟩
  let rows := (e.band.bind (fun v => v.rows)).getD (0, 0)
  let roll := e.roll.getD ⟨0, 0, 0⟩
  bs.length = 62 ∧
  [TileState.absent, .asleep, .waking, .awake, .dozing, .faulted, .lost][(b 0x02).toNat]? = some e.state ∧
  ((b 0x03).getLsbD 0 = true ↔ e.shown = some true) ∧ ((b 0x03).getLsbD 1 = true ↔ ∃ v ∈ e.band, v.band = true) ∧
  ((b 0x03).getLsbD 2 = true ↔ e.inverted = some true) ∧ ((b 0x03).getLsbD 3 = true ↔ e.armed = true) ∧
  (b 0x03).toNat / 16 = 0 ∧ ErrorByteIs (b 0x04) e.lastError ∧ (b 0x05).toNat = e.lastFault.toNat ∧
  (b 0x06).toNat = x.val / 12 ∧ (b 0x07).toNat = x.val % 12 ∧
  h 0x08 = identity.vendor ∧ h 0x0A = identity.model ∧ h 0x0C = identity.revision ∧
  h 0x0E = geometry.framePeriod ∧ h 0x10 = geometry.width ∧ h 0x12 = geometry.height ∧
  h 0x14 = window.colStart ∧ h 0x16 = window.colEnd ∧ h 0x18 = window.rowStart ∧ h 0x1A = window.rowEnd ∧
  h 0x1C = rows.1 ∧ h 0x1E = rows.2 ∧ h 0x20 = roll.top ∧ h 0x22 = roll.height ∧ h 0x24 = roll.start ∧
  h 0x26 = 0 ∧ wordAt bs (0x28 - 2) = e.changedAt ∧ ∀ o, 0x2C ≤ o → o < 0x40 → b o = 0

/-! ## READ STATE reports -/

/-- The report `r` of a READ STATE disagrees with the entry of tile `x` (R153). -/
def State.ReportDisagrees (s : State) (x : TileNum) (r : Word) : Prop :=
  (s.tile x).shown ≠ some (r.getLsbD 1) ∨ (s.tile x).inverted ≠ some (r.getLsbD 3) ∨
  (∀ b, (s.tile x).band = some b → b.band ≠ r.getLsbD 2) ∨
  (r.getLsbD 0 = true ∧ ((s.tile x).state = .asleep ∨ (s.tile x).state = .dozing)) ∨
  (r.getLsbD 0 = false ∧ ((s.tile x).state = .waking ∨ (s.tile x).state = .awake))

/-- Between `s` and `t` the report `r` has been taken as the truth of tile `x`: mirrors as reported, the band rows kept when
the mode agrees, those of FULL when it reports FULL and absent when it reports BAND, FAULTED when the reported power disagrees
(R123, R153). -/
def ReportTaken (s t : State) (x : TileNum) (r : Word) : Prop :=
  (t.tile x).shown = some (r.getLsbD 1) ∧ (t.tile x).inverted = some (r.getLsbD 3) ∧
  (∀ b, (s.tile x).band = some b → b.band = r.getLsbD 2 → (t.tile x).band = some b) ∧
  (((s.tile x).band = none ∨ ∃ b, (s.tile x).band = some b ∧ b.band ≠ r.getLsbD 2) →
    (r.getLsbD 2 = true → (t.tile x).band = some ⟨true, none⟩) ∧
    (r.getLsbD 2 = false → ∀ g, (s.tile x).geometry = some g → g.height ≠ 0 →
      (t.tile x).band = some ⟨false, some (0, g.height - 1)⟩)) ∧
  (t.tile x).lastFault = (s.tile x).lastFault ∧
  ((r.getLsbD 0 = true ∧ ((s.tile x).state = .asleep ∨ (s.tile x).state = .dozing)) ∨
    (r.getLsbD 0 = false ∧ ((s.tile x).state = .waking ∨ (s.tile x).state = .awake)) →
    (t.tile x).state = .faulted ∧ (t.tile x).changedAt = s.now) ∧
  ((r.getLsbD 0 = false ∧ ((s.tile x).state = .asleep ∨ (s.tile x).state = .dozing)) ∨
    (r.getLsbD 0 = true ∧ ((s.tile x).state = .waking ∨ (s.tile x).state = .awake)) ∨
    (s.tile x).state = .faulted → (t.tile x).state = (s.tile x).state)

/-! ## Wake budget -/

/-- The job in slot `i` has a WAKE tile part for `x` that is a candidate: it is on the wake waiting list (R88). -/
def State.WantsWake (s : State) (i : SlotNum) (x : TileNum) : Prop :=
  ∃ j st q, s.job i = some j ∧ j.phase = .running ∧ j.step? = some st ∧ st.kind = .wake ∧ j.part? x = some q ∧
    q.cond = .candidate

/-- Conditions 1 to 6 of R71 for tile `x`. -/
def State.OtherwiseIssuable (s : State) (x : TileNum) : Prop :=
  (s.engine = .running ∨ s.engine = .stopping) ∧ (s.port (portOf x)).state = .up ∧
  (s.tile x).state ≠ .absent ∧ (s.tile x).state ≠ .lost ∧ (s.port (portOf x)).freeTag ≠ none ∧ (s.tile x).credits < 4 ∧
  (s.tile x).configInFlight = false

/-- The budget is open (R89). -/
def State.BudgetOpen (s : State) : Prop :=
  s.wakeHistory.length < s.settings.wakeLimit ∧
  ∀ m ∈ s.wakeHistory.getLast?, s.settings.wakeGapMs ≤ (s.now - m).toNat

/-- WAKE work of slot `i` on `x` ranks no lower than that of slot `k` on `y` (R88). -/
def State.WakeNotAfter (s : State) (i : SlotNum) (x : TileNum) (k : SlotNum) (y : TileNum) : Prop :=
  ∀ j ∈ s.job i, ∀ m ∈ s.job k,
    j.rank.1 < m.rank.1 ∨ (j.rank.1 = m.rank.1 ∧ j.order < m.order) ∨
    (j.rank.1 = m.rank.1 ∧ j.order = m.order ∧ x ≤ y)

/-- What an examination presents (R89): with the budget open, the highest-ranked of the WAKEs that are otherwise issuable and
whose port's transmitter is free; nothing when there is none, or the budget is closed. -/
def Examined (s : State) (presented : Option TileNum) : Prop :=
  (∀ x, presented = some x → s.BudgetOpen ∧ s.OtherwiseIssuable x ∧ (s.port (portOf x)).transmitting = none ∧
    ∃ i, s.WantsWake i x ∧ ∀ k y, s.WantsWake k y → s.OtherwiseIssuable y → (s.port (portOf y)).transmitting = none →
      s.WakeNotAfter i x k y) ∧
  (presented = none → s.BudgetOpen → ∀ k y, s.WantsWake k y → s.OtherwiseIssuable y →
    (s.port (portOf y)).transmitting ≠ none)

/-! ## What may issue -/

/-- The SLEEP gates of R74; an interval that has passed leaves its gate open (R95, log 12). -/
def State.SleepGatesOpen (s : State) (x : TileNum) : Prop :=
  (s.tile x).credits = 0 ∧
  ((s.tile x).state ≠ .faulted → ∀ m ∈ (s.tile x).wakeAck,
    (s.tile x).minAwakeOpen = true ∨ s.settings.minAwakeMs ≤ (s.now - m).toNat) ∧
  (∀ m ∈ (s.tile x).lastPixelAck, (s.tile x).holdOpen = true ∨ s.settings.holdMs ≤ (s.now - m).toNat)

/-- No SLEEP is in flight to tile `x` (R76, R128). -/
def State.NoSleepInFlight (s : State) (x : TileNum) : Prop :=
  ∀ e ∈ (s.port (portOf x)).inFlight, e.tile = x → e.kind ≠ .sleep

/-- The gates of R76 to R78 for the stream entry of slot `i`: the tile AWAKE, no SLEEP in flight to it, no other job's stream
open on it, and a normal-chain entry not yielding. -/
def State.StreamGatesOpen (s : State) (i : SlotNum) (c : Cand) : Prop :=
  (s.tile c.tile).state = .awake ∧
  s.NoSleepInFlight c.tile ∧
  (∀ r ∈ (s.tile c.tile).stream, r.owner = i) ∧
  (c.cls = 2 →
    (∀ d ∈ s.candidates (portOf c.tile), d.tile = c.tile → d.cls = 0 → StepKind.isStream d.kind = true) ∧
    ∀ e ∈ (s.port (portOf c.tile)).inFlight, e.tile = c.tile → e.kind.isConfig = true →
      ∀ k ∈ e.owner.slot?, ∀ m ∈ s.job k, m.chain ≠ .priority)

/-- The candidate is issuable: R71 whole, with its table of gates and R77's bar behind a priority stream. -/
def State.MayIssue (s : State) (c : Cand) : Prop :=
  s.OtherwiseIssuable c.tile ∧
  (c.cls ≠ 0 → ∀ r ∈ (s.tile c.tile).stream, ∀ j ∈ s.job r.owner, j.chain ≠ .priority) ∧
  (c.slot = none → s.SleepGatesOpen c.tile ∧ (s.tile c.tile).stream = none) ∧
  ∀ i, c.slot = some i →
    (c.kind = .wake → s.wakePresented = some c.tile ∧ s.BudgetOpen ∧ s.WantsWake i c.tile ∧
      ∀ k, s.WantsWake k c.tile → s.WakeNotAfter i c.tile k c.tile) ∧
    (c.kind = .sleep → s.SleepGatesOpen c.tile) ∧
    (c.kind = .window ∨ c.kind = .band ∨ c.kind = .rollArea → (s.tile c.tile).credits = 0) ∧
    (c.kind = .put → s.StreamGatesOpen i c ∧ ∃ j q ws, s.job i = some j ∧ j.part? c.tile = some q ∧ q.staging = .staged ws) ∧
    (c.kind = .get → s.StreamGatesOpen i c ∧
      ∃ due, (s.tile c.tile).readyDue = some due ∧ ((s.tile c.tile).readyOpen = true ∨ reached s.now due = true))

/-- The free value holds the candidate back though it is issuable: an ON_FRAME display packet behind a SLEEP in flight to its
tile (R71 against R128, log 37). -/
def State.HeldBehindSleep (s : State) (c : Cand) : Prop :=
  Config.onFrameWaitsForSleep = true ∧ StepKind.isDisplay c.kind = true ∧
  (∃ i j st, c.slot = some i ∧ s.job i = some j ∧ j.step? = some st ∧ st.onFrame = true) ∧ ¬ s.NoSleepInFlight c.tile

/-- The candidate is what its owner offers: an ARMED auto-sleep its SLEEP (R70), or a RUNNING job a tile part of its current
step that is a candidate (R68). -/
def State.Offered (s : State) (p : PortId) (c : Cand) : Prop :=
  portOf c.tile = p ∧
  (c.slot = none → c.kind = .sleep ∧ c.cls = 1 ∧ (s.tile c.tile).armed = true) ∧
  ∀ i, c.slot = some i → ∃ j st, s.job i = some j ∧ j.phase = .running ∧ j.step? = some st ∧ c.kind = st.kind ∧
    c.order = j.order ∧ (j.chain = .priority → c.cls = 0) ∧ (j.chain = .normal → c.cls = 2) ∧
    ∃ q ∈ j.parts, q.tile = c.tile ∧ q.cond = .candidate

/-- Ranked no lower, by the keys of R84: class, a presented WAKE first within its class, job age, tile number. -/
def Cand.notAfter (a b : Cand) : Prop :=
  a.cls < b.cls ∨ (a.cls = b.cls ∧ ((a.kind = .wake ∧ b.kind ≠ .wake) ∨ ((a.kind = .wake ↔ b.kind = .wake) ∧
    (a.order < b.order ∨ (a.order = b.order ∧ a.tile ≤ b.tile)))))

/-! ## What the end of an event keeps -/

/-- The state without what the Job Engine changes by itself. -/
def State.eraseJobs (s : State) : State :=
  { s with slots := Vector.replicate 8 .free, tiles := Vector.replicate 24 TileEntry.reset, waitList := [], sync0 := false,
           sync1 := false, choices := 0 }

/-- The state without what the end of an event changes. -/
def State.eraseEvent (s : State) : State :=
  { s.eraseJobs with notice := { s.notice with tile := false }, tileChg := 0,
                     records := Vector.replicate 24 RecordCtl.reset, stoppedReads := [], wakePresented := none }

/-- A tile entry without what a tile part's end can change: last error, stream, auto-sleep. -/
def TileEntry.eraseWork (e : TileEntry) : TileEntry := { e with lastError := none, stream := none, armed := false }

/-- What a job keeps from its taking to its retirement. -/
def Job.idn (j : Job) : Job :=
  { j with phase := .queued, current := 0, parts := [], firstFailure := none, tolerated := 0, stepsDone := 0,
           pauseDue := none, engineDone := false }

/-- What a job that does not run keeps besides. -/
def Job.still (j : Job) : Job := { j with parts := [], pauseDue := none, engineDone := false }

/-- A job slot with its job's lasting part only. -/
def Slot.erase : Slot → Slot
  | .job j => .job j.idn
  | v => v

/-- A record's control without its mark for a record change. -/
def RecordCtl.eraseMark (r : RecordCtl) : RecordCtl := { r with markChange := false }

/-- `t` is `s` after the end of an event: record changes may be marked or joined to TILECHG with TILE raised (R18, R21), tile
parts judged, failed or completed with their tiles' last error, stream and auto-sleep (R32 to R36, R99), staging reads stopped
(R109), steps gone on with their occurrences (R37, R161), and a WAKE presented (R89). Everything else is as it was, a job that
does not run keeps its phase and results, and no job changes what it was taken with. -/
structure EventFrame (s t : State) : Prop where
  rest : t.eraseEvent = s.eraseEvent
  tile : ∀ u, (t.tile u).eraseWork = (s.tile u).eraseWork
  record : ∀ u, (t.record u).eraseMark = (s.record u).eraseMark
  mark : ∀ u, (s.record u).markChange = true → (t.record u).markChange = true
  chg : ∀ n : Nat, s.tileChg.getLsbD n = true → t.tileChg.getLsbD n = true
  tileNotice : s.notice.tile = true → t.notice.tile = true
  empty : ∀ i, (s.slot i).job? = none → t.slot i = s.slot i
  slot : s.fatal = false → ∀ i, (t.slot i).erase = (s.slot i).erase
  still : ∀ i j, s.job i = some j → j.phase.isRunning = false → ∃ j', t.job i = some j' ∧ j'.still = j.still
  sync0 : s.sync0 = true → t.sync0 = true
  sync1 : s.sync1 = true → t.sync1 = true
  stopped : ∃ l, t.stoppedReads = s.stoppedReads ++ l

/-- Position `d` of port `p` was found silent between `s` and `t` (R138): it and every later position ABSENT, the port UP. -/
def SilentFrom (s t : State) (p : PortId) (d : Position) : Prop :=
  (t.port p).state = .up ∧ (t.port p).probing = none ∧ (t.port p).waitDue = none ∧ t.notice.port = true ∧
  (∀ k : Position, d ≤ k →
    (t.tile (tileOf p k)).state = .absent ∧ (t.tile (tileOf p k)).identity = none ∧
    (t.tile (tileOf p k)).geometry = none ∧ (t.tile (tileOf p k)).shown = none ∧
    (t.tile (tileOf p k)).window = none ∧ (t.tile (tileOf p k)).band = none ∧ (t.tile (tileOf p k)).roll = none) ∧
  (∀ k : Position, k < d → (t.tile (tileOf p k)).state = (s.tile (tileOf p k)).state)

/-- The walker's work is the direct retirement of its held descriptor `d`, to end SKIPPED, or ABORTED where `aborted` says so,
with the fields of R55 (R64, R65). -/
def HeldRetired (d : Fetched) (aborted : Bool) (now : Word) (w : WalkerWork) : Prop :=
  ∃ r, w = .retire r ∧ r.addr = d.addr ∧ r.link = d.link ∧ r.notify = d.notify ∧ r.haltOnFail = d.haltOnFail ∧
    r.results.terminal = (if aborted then .aborted else .skipped) ∧
    r.results.code = (if aborted then some .aborted else none) ∧ r.results.failingStep = 0 ∧
    r.results.failingTile = none ∧ r.results.tolerated = 0 ∧ r.results.stepsDone = 0 ∧ r.results.startedAt = 0 ∧
    r.results.endedAt = now ∧ r.results.stage = .results

/-- Each QUEUED job of chain `c` has entered RETIRING between `s` and `t`, to end SKIPPED, and no other QUEUED job has; in a
state between two events every slot without such a job is as it was (R64). -/
def QueuedSkipped (s t : State) (c : Chain) : Prop :=
  (∀ i j, s.job i = some j → j.phase = .queued →
    (j.chain = c → ∃ j' r, t.job i = some j' ∧ j'.phase = .retiring r ∧ r.terminal = .skipped ∧ r.code = none ∧
      r.stepsDone = j.stepsDone ∧ r.endedAt = s.now ∧ r.stage = .results) ∧
    (j.chain ≠ c → ∃ j', t.job i = some j' ∧ j'.phase = .queued)) ∧
  (Quiet s → ∀ i, (∀ j, s.job i = some j → ¬ (j.chain = c ∧ j.phase = .queued)) → t.slot i = s.slot i)

/-- What a transaction's end does to its port, its tile and its owner, whatever its outcome (R72, R73, R85, R151): the entry
leaves, its tag is not quarantined, the writes `left` run on to their ends (R147), and the other port, the engine and the walkers are as they were. -/
def TransactionEnded (s t : State) (p : PortId) (e : Entry) (left : List CutWrite) : Prop :=
  t.port p = { s.port p with
    inFlight := (s.port p).inFlight.filter (fun f => decide (f.tag ≠ e.tag)), cutWrites := (s.port p).cutWrites ++ left } ∧
  (∀ q, q ≠ p → t.port q = s.port q) ∧
  (t.tile e.tile).credits = (s.tile e.tile).credits - 1 ∧
  (t.tile e.tile).configInFlight = (!e.kind.isConfig && (s.tile e.tile).configInFlight) ∧
  (∀ u, u ≠ e.tile → (t.tile u).eraseWork = (s.tile u).eraseWork) ∧
  (s.fatal = false → ∀ i j, e.owner.slot? = some i → s.job i = some j →
    ∃ j', t.job i = some j' ∧ j'.outstanding = j.outstanding - 1) ∧
  t.engine = s.engine ∧ t.fault = s.fault ∧ t.walkerN = s.walkerN ∧ t.walkerP = s.walkerP ∧ t.now = s.now ∧
  t.settings = s.settings ∧ t.wakeHistory = s.wakeHistory

end Sys2Proof.Machine
end

