-- ==== Sys2Proof/Certificates/Slice0/Obligations.lean ====
section
/-! DEFINITION. The statements about the TK4610 model that the provers prove. -/

section

open Sys2Proof Sys2Proof.Machine

/-! ## The machine as a whole -/

/-- A step takes the command at the front of the queue and is that command's meaning on the rest. With nothing waiting the
part idles (the model's choice, log 3). -/
def Obligations.StepTakesFrontCommand : Prop :=
  (∀ (c : Instr) (rest : List Instr) (s : State),
      step { s with pending := c :: rest } = exec c { s with pending := rest }) ∧
  (∀ s : State, step { s with pending := [] } = .next { s with pending := [] })

/-- Every command answers a next state, in every state and for every operand, and leaves the queue alone. That a command
outside its occasion answers one (log 2), and a command whose operands are not well formed (log 30), is the model's choice. -/
def Obligations.EveryCommandAnswersNext : Prop :=
  ∀ (c : Instr) (s : State), ∃ t, exec c s = .next t ∧ t.pending = s.pending

/-- A command whose occasion does not hold changes nothing (the model's choice, log 2). -/
def Obligations.NoOccasionNoChange : Prop :=
  ∀ (c : Instr) (s : State), occasion c s = false → exec c s = .next s

/-- What only its own rows change: CBADDR, NOTICEEN and the Timebase (R169, R177, R178). -/
def Obligations.RegistersChangeOnlyByTheirRows : Prop :=
  ∀ (c : Instr) (s t : State), exec c s = .next t →
    ((∀ v, c ≠ .cbaddrWrite v) → c ≠ .hardReset → t.cbaddr = s.cbaddr) ∧
    ((∀ v, c ≠ .noticeenWrite v) → c ≠ .hardReset → t.noticeEn = s.noticeEn) ∧
    (c ≠ .timebaseTick → c ≠ .hardReset → c ≠ .reset → t.now = s.now)

/-- The wake history never holds more than WAKE_LIMIT entries (R87): every step keeps it. -/
def Obligations.WakeHistoryStaysBounded : Prop :=
  ∀ s t : State, s.wakeHistory.length ≤ s.settings.wakeLimit → step s = .next t →
    t.wakeHistory.length ≤ t.settings.wakeLimit

/-- No fault is recorded while the engine is STARTING or RUNNING (R171, R172, R174): every step keeps it. -/
def Obligations.NoFaultWhileStartingOrRunning : Prop :=
  ∀ s t : State, (s.engine.isStartingOrRunning = true → s.fault = .none) → step s = .next t →
    (t.engine.isStartingOrRunning = true → t.fault = .none)

/-- On each port no tag is held twice, and every entry is for a tile of the port (R79, R80): every step keeps both. -/
def Obligations.TagsHeldOnce : Prop :=
  (∀ s t : State, (∀ p, ((s.port p).inFlight.map (fun e => e.tag)).Nodup) → step s = .next t →
    ∀ p, ((t.port p).inFlight.map (fun e => e.tag)).Nodup) ∧
  ∀ s t : State, (∀ p, ∀ e ∈ (s.port p).inFlight, portOf e.tile = p) → step s = .next t →
    ∀ p, ∀ e ∈ (t.port p).inFlight, portOf e.tile = p

/-- The invariants above hold at reset. -/
def Obligations.InvariantsHoldAtReset : Prop :=
  State.reset.wakeHistory.length ≤ State.reset.settings.wakeLimit ∧
  (State.reset.engine.isStartingOrRunning = true → State.reset.fault = .none) ∧
  ∀ p, ((State.reset.port p).inFlight.map (fun e => e.tag)).Nodup ∧
    ∀ e ∈ (State.reset.port p).inFlight, portOf e.tile = p

/-! ## Resets (R178) -/

/-- The state after reset, where the spec gives it: engine, walkers, slots, tiles, ports, budget, Event Unit, settings,
registers. -/
def Obligations.ResetState : Prop :=
  State.reset.engine = .off ∧ State.reset.fault = .none ∧ State.reset.cbaddr = 0 ∧ State.reset.now = 0 ∧
  State.reset.notice.toWord = 0 ∧ State.reset.noticeEn.toWord = 0 ∧ State.reset.irq = false ∧ State.reset.tileChg = 0 ∧
  (∀ c, (State.reset.walker c).state = .idle ∧ (State.reset.walker c).cause = .none ∧ (State.reset.walker c).park = 0 ∧
    (State.reset.walker c).work = .none ∧ (State.reset.walker c).rescanPending = false ∧
    (State.reset.walker c).pollDue = none) ∧
  (∀ i, State.reset.slot i = .free) ∧
  (∀ x, (State.reset.tile x).state = .absent ∧ (State.reset.tile x).identity = none ∧
    (State.reset.tile x).geometry = none ∧ (State.reset.tile x).shown = none ∧ (State.reset.tile x).band = none ∧
    (State.reset.tile x).inverted = none ∧ (State.reset.tile x).window = none ∧ (State.reset.tile x).roll = none ∧
    (State.reset.tile x).wakeAck = none ∧ (State.reset.tile x).settleDue = none ∧ (State.reset.tile x).readyDue = none ∧
    (State.reset.tile x).restDue = none ∧ (State.reset.tile x).lastPixelAck = none ∧ (State.reset.tile x).armed = false ∧
    (State.reset.tile x).stream = none ∧ (State.reset.tile x).credits = 0 ∧
    (State.reset.tile x).configInFlight = false ∧ (State.reset.tile x).lastError = none ∧
    (State.reset.tile x).lastFault = 0 ∧ (State.reset.tile x).changedAt = 0 ∧ (State.reset.tile x).changeCount = 0) ∧
  (∀ p, (State.reset.port p).state = .down ∧ (State.reset.port p).inFlight = [] ∧ (State.reset.port p).quarantined = 0 ∧
    (State.reset.port p).attemptDue = none ∧ (State.reset.port p).waitDue = none ∧
    (State.reset.port p).transmitting = none) ∧
  State.reset.wakeHistory = [] ∧ State.reset.wakeList = [] ∧ State.reset.waitList = [] ∧
  State.reset.sync0 = false ∧ State.reset.sync1 = false ∧
  State.reset.settings.normalHead = 0 ∧ State.reset.settings.priorityHead = 0 ∧
  State.reset.settings.statusArea = none ∧ State.reset.settings.pollMs = 0 ∧ State.reset.settings.replyMs = 10 ∧
  State.reset.settings.wakeLimit = 1 ∧ State.reset.settings.wakeWindowMs = 1000 ∧
  State.reset.settings.wakeGapMs = 100 ∧ State.reset.settings.settleMs = 100 ∧ State.reset.settings.readyMs = 100 ∧
  State.reset.settings.restMs = 100 ∧ State.reset.settings.minAwakeMs = 0 ∧ State.reset.settings.holdMs = 0 ∧
  State.reset.settings.sync0 = none ∧ State.reset.settings.sync1 = none ∧
  (∀ a : Fin 4, State.reset.settings.apertures[a].size = 0)

/-- RESET puts every block at its reset values and keeps CBADDR and NOTICEEN; RESET_N's assertion clears those too, and its
release ends the reset. Every shared-memory access that has begun runs to its end, which has no effect, while RESET_N is low
too (R118, R178). What a reset has no value for (the pins; the model's own fields, logs 7, 8, 10) stays. Of the accesses made
for one thing the first begun is the one that ended (the model's choice, log 35). That a trigger filter counts its 4 µs from
the reset, however long its pin has stood, is the model's choice too (log 7). -/
def Obligations.BothResets : Prop :=
  ∀ s : State,
    (s.resetLow = false → exec .reset s = .next
      { State.reset with
        pending := s.pending, readBytes := s.readBytes, cbaddr := s.cbaddr, noticeEn := s.noticeEn, cutAccesses := s.accesses,
        trig0 := ⟨s.trig0.pin, none, true⟩, trig1 := ⟨s.trig1.pin, none, true⟩, choices := s.choices }) ∧
    exec .hardReset s = .next
      { State.reset with
        pending := s.pending, readBytes := s.readBytes, resetLow := true, cutAccesses := s.accesses,
        trig0 := ⟨s.trig0.pin, none, false⟩, trig1 := ⟨s.trig1.pin, none, false⟩, choices := s.choices } ∧
    (s.resetLow = true → exec .resetNRelease s = .next
      { s with resetLow := false, trig0 := ⟨s.trig0.pin, none, true⟩, trig1 := ⟨s.trig1.pin, none, true⟩ }) ∧
    (∀ c t, (c = .reset ∧ s.resetLow = false) ∨ c = .hardReset → exec c s = .next t → t.accesses = s.accesses) ∧
    (∀ c a, accessEnded c = some a → (∃ v ∈ s.cutAccesses, v.id = a) → exec c s = .next
      { s with cutAccesses := s.cutAccesses.eraseP (fun v => decide (v.id = a)) })

/-- While RESET_N is held low the part stays in its reset state: reads return 0, writes and everything else but the end of an
access begun before are ignored (R178). -/
def Obligations.HeldInReset : Prop :=
  ∀ s : State, s.resetLow = true →
    (∀ c : Instr, (match c with
      | .hardReset => False | .resetNRelease => False | .trigPinChange _ _ => False | .tilechgRead _ _ => False
      | _ => True) → (∀ a, accessEnded c = some a → s.accessCut a = false) → exec c s = .next s) ∧
    (∀ off len, s.readRegister off len = List.replicate len 0) ∧
    (∀ off len, exec (.tilechgRead off len) s = .next { s with readBytes := List.replicate len 0 })

/-! ## The register window (R169, R170, R176, R182) -/

/-- R182, whole: narrower reads and writes, and offsets that hold no register. -/
def Obligations.WindowAccesses : Prop :=
  ∀ s : State, s.resetLow = false →
    (∀ off len k : Nat, (len = 1 ∨ len = 2 ∨ len = 4) → off % len = 0 → k < len →
      (s.readRegister off len)[k]? = (wordBytes (s.register off))[off % 4 + k]?) ∧
    (∀ off len : Nat, 1 ≤ len → off + len ≤ 4 →
      exec (.tilechgRead off len) s = .next { s with tileChg := 0, readBytes := s.readRegister (0x1C + off) len }) ∧
    (∀ off len : Nat, ∀ v : Word, len ≠ 4 → registerWriteCommand off len v = .registerWriteIgnored off len) ∧
    (∀ off len : Nat, len ≠ 4 → off < 8 →
      exec (.registerWriteIgnored off len) s = .next { s with notice := { s.notice with refused := true } }) ∧
    (∀ off len : Nat, len ≠ 4 → 8 ≤ off → exec (.registerWriteIgnored off len) s = .next s) ∧
    (∀ off : Nat, 0x24 ≤ off → s.register off = 0) ∧
    (∀ off len : Nat, ∀ v : Word, 0x24 ≤ off →
      registerWriteCommand off len v = .registerWriteIgnored off len ∧
      exec (.registerWriteIgnored off len) s = .next s)

/-- What each register shows, ENGSTATE field by field; the writable registers: CBADDR in OFF and HALTED, NOTICE written 1 to
clear, NOTICEEN replaced, and IRQ as their result (R169, R176, 12.7). The spare bits of NOTICE, NOTICEEN and TILECHG read as 0
and drop what is written (the model's choice, log 40). -/
def Obligations.RegistersReadAndWritten : Prop :=
  (∀ s : State,
      s.register 0x00 = s.cbaddr ∧ s.register 0x04 = 0 ∧ s.register 0x08 = s.engstateWord ∧
      s.register 0x0C = s.walkerN.park ∧ s.register 0x10 = s.walkerP.park ∧ s.register 0x14 = s.notice.toWord ∧
      s.register 0x18 = s.noticeEn.toWord ∧ s.register 0x1C = s.tileChg.setWidth 32 ∧ s.register 0x20 = 0x00024610#32 ∧
      s.engstateWord.toNat % 2 ^ 3 = s.engine.code ∧ s.engstateWord.toNat / 2 ^ 3 % 2 ^ 3 = s.fault.code ∧
      s.engstateWord.toNat / 2 ^ 6 % 2 ^ 2 = 0 ∧
      s.engstateWord.toNat / 2 ^ 8 % 2 ^ 3 = s.walkerN.state.code ∧
      s.engstateWord.toNat / 2 ^ 11 % 2 ^ 3 = s.walkerN.cause.code ∧ s.engstateWord.toNat / 2 ^ 14 % 2 ^ 2 = 0 ∧
      s.engstateWord.toNat / 2 ^ 16 % 2 ^ 3 = s.walkerP.state.code ∧
      s.engstateWord.toNat / 2 ^ 19 % 2 ^ 3 = s.walkerP.cause.code ∧ s.engstateWord.toNat / 2 ^ 22 % 2 ^ 2 = 0 ∧
      s.engstateWord.toNat / 2 ^ 24 % 2 ^ 3 = s.portA.state.code ∧ s.engstateWord.toNat / 2 ^ 27 % 2 = 0 ∧
      s.engstateWord.toNat / 2 ^ 28 % 2 ^ 3 = s.portB.state.code ∧ s.engstateWord.toNat / 2 ^ 31 = 0) ∧
  (∀ (v : Word) (s : State), s.resetLow = false →
      (s.engine.isOffOrHalted = true → exec (.cbaddrWrite v) s = .next { s with cbaddr := v }) ∧
      exec (.noticeWrite v) s = .next { s with notice :=
        { job := s.notice.job && !v.getLsbD 0, chain := s.notice.chain && !v.getLsbD 1,
          tile := s.notice.tile && !v.getLsbD 2, port := s.notice.port && !v.getLsbD 3,
          engine := s.notice.engine && !v.getLsbD 4, refused := s.notice.refused && !v.getLsbD 5,
          linkErr := s.notice.linkErr && !v.getLsbD 6 } } ∧
      exec (.noticeenWrite v) s = .next { s with noticeEn :=
        { job := v.getLsbD 0, chain := v.getLsbD 1, tile := v.getLsbD 2, port := v.getLsbD 3, engine := v.getLsbD 4,
          refused := v.getLsbD 5, linkErr := v.getLsbD 6 } } ∧
      (s.irq = true ↔ s.notice.toWord &&& s.noticeEn.toWord ≠ 0))

/-- A command in a state that does not take it, an unknown code, a CBADDR write outside OFF and HALTED and a narrow write to
CBADDR or COMMAND raise REFUSED and change nothing else (R169, R170, R182). -/
def Obligations.RefusedCommandsChangeNothingElse : Prop :=
  ∀ (c : Instr) (s : State), s.resetLow = false → commandRefused c s.engine = true →
    exec c s = .next { s with notice := { s.notice with refused := true } }

/-! ## The engine (R46, R47, R171 to R174) -/

/-- START: in OFF and HALTED the engine is STARTING with fault NONE and the control block's read begins; a CBADDR of 0 or not
64-aligned fails it with CB_INVALID (R46, R171). -/
def Obligations.StartTaken : Prop :=
  ∀ s : State, s.resetLow = false → s.engine.isOffOrHalted = true →
    ((s.cbaddr ≠ 0 ∧ s.cbaddr.toNat % 64 = 0) →
      exec .start s = .next { s with engine := .starting .controlBlock, fault := .none, cbRead := true }) ∧
    ((s.cbaddr = 0 ∨ s.cbaddr.toNat % 64 ≠ 0) →
      ∃ t, exec .start s = .next t ∧ t.engine = .halted ∧ t.fault = .cbInvalid ∧
        t.notice = { s.notice with engine := true } ∧ t.settings = s.settings ∧ t.cbRead = s.cbRead ∧
        t.tiles = s.tiles ∧ t.slots = s.slots ∧ t.portA = s.portA ∧ t.portB = s.portB ∧ t.walkerN = s.walkerN ∧
        t.walkerP = s.walkerP ∧ t.wakeHistory = s.wakeHistory)

/-- R47, whole: a block with every setting in range is taken, any other is CB_INVALID. The ranges are `ControlBlockInRange`,
over the bytes of 12.2. -/
def Obligations.ControlBlockRanges : Prop :=
  ∀ (s : State) (bs : List Byte), s.resetLow = false → s.accessCut .controlBlock = false →
    s.engine = .starting .controlBlock → s.cbRead = true →
    (ControlBlockInRange s.cbaddr bs →
      ∃ t, exec (.controlBlockReadDone (.bytes bs)) s = .next t ∧ t.engine = .starting .statusRecords) ∧
    (¬ ControlBlockInRange s.cbaddr bs →
      ∃ t, exec (.controlBlockReadDone (.bytes bs)) s = .next t ∧ t.engine = .halted ∧ t.fault = .cbInvalid)

/-- CONTROL_BLOCK_READ_DONE: a valid block replaces the held settings, each by its bytes of 12.2, trims the wake history to
its newest WAKE_LIMIT entries, which go on ageing by the window they had until the next tick, and marks all 24 records; a
failure keeps every setting; after a STOP the result is discarded (R20, R46, R87, R171, R173). -/
def Obligations.ControlBlockRead : Prop :=
  ∀ (s : State) (r : ReadResult), s.resetLow = false → s.accessCut .controlBlock = false → s.cbRead = true →
    (s.engine = .starting .controlBlock →
      (∀ bs st, r = .bytes bs → parseSettings s.cbaddr bs = some st →
        ∃ t, exec (.controlBlockReadDone r) s = .next t ∧ t.settings = st ∧ t.cbRead = false ∧
          t.engine = .starting .statusRecords ∧
          t.wakeHistory = s.wakeHistory.drop (s.wakeHistory.length - st.wakeLimit) ∧
          (∀ x, (t.record x).markStart = true ∧ (t.record x).rewrite = (s.record x).rewrite ∧
            (t.tile x).state = (s.tile x).state ∧ (t.tile x).settleDue = (s.tile x).settleDue) ∧
          t.fault = s.fault ∧ t.notice = s.notice ∧ t.portA = s.portA ∧ t.portB = s.portB ∧ t.slots = s.slots) ∧
      (∀ bs, r = .bytes bs → ControlBlockInRange s.cbaddr bs →
        ∃ t, exec (.controlBlockReadDone r) s = .next t ∧ SettingsRead bs t.settings ∧
          t.historyWindowMs = s.historyWindowMs) ∧
      ((r = .busError ∨ ∃ bs, r = .bytes bs ∧ parseSettings s.cbaddr bs = none) →
        ∃ t, exec (.controlBlockReadDone r) s = .next t ∧ t.engine = .halted ∧
          t.fault = (if r = .busError then .cbBusError else .cbInvalid) ∧ t.settings = s.settings ∧ t.cbRead = false ∧
          t.notice = { s.notice with engine := true } ∧ t.wakeHistory = s.wakeHistory ∧ t.tiles = s.tiles)) ∧
    (s.engine ≠ .starting .controlBlock → exec (.controlBlockReadDone r) s = .next { s with cbRead := false })

/-- STOP in STARTING and RUNNING: STOPPING, walkers IDLE, every active job aborted by its phase, auto-sleeps disarmed,
candidate sets and wake waiting list empty, and staging reads under way run on without a use (R40, R67, R86, R102, R109,
R173). The premise on the fault is an invariant stated above. -/
def Obligations.StopTaken : Prop :=
  ∀ s : State, s.resetLow = false → s.engine.isStartingOrRunning = true → s.fault = .none →
    ∃ t, exec .stop s = .next t ∧ t.engine = .stopping ∧ t.fault = .none ∧ t.settings = s.settings ∧ t.cbRead = s.cbRead ∧
      t.portA = s.portA ∧ t.portB = s.portB ∧ t.wakeHistory = s.wakeHistory ∧
      (∀ c, (t.walker c).state = .idle ∧ (t.walker c).cause = (s.walker c).cause ∧
        (t.walker c).park = (s.walker c).park ∧ (t.walker c).pollDue = none ∧ (t.walker c).rescanPending = false ∧
        (∀ d o, (t.walker c).work ≠ .held d o)) ∧
      (∀ x, (t.tile x).armed = false ∧ (t.tile x).state = (s.tile x).state) ∧
      (∀ p, t.candidates p = []) ∧ t.wakeList = [] ∧
      (∀ i j q st, s.job i = some j → j.phase = .running → j.step? = some st → q ∈ j.parts → q.staging = .reading →
        q.cond.hasFailed = false → ∃ v ∈ t.stoppedReads, v.slot = i ∧ v.tile = q.tile) ∧
      (∀ i j, s.job i = some j → ∃ j', t.job i = some j' ∧
        (j.phase = .queued → ∃ r, j'.phase = .retiring r ∧ r.terminal = .aborted ∧ r.code = some .aborted ∧
          r.endedAt = s.now) ∧
        (j.phase = .running → j'.phase = .draining ∧ j'.abortRequested = true ∧
          j'.firstFailure = some (j.firstFailure.getD ⟨.aborted, j.current, none⟩)) ∧
        (j.phase = .draining → j'.phase = .draining ∧ j'.abortRequested = true ∧ j'.firstFailure = j.firstFailure) ∧
        (∀ r, j.phase = .retiring r → j'.phase = .retiring r))

/-- ENGINE_ENTERS_RUNNING and ENGINE_STOPPED (R51, R171, R173, R174). Fetch orders begin at 1 (the model's choice, log 9). A
read that a walker left running at an earlier STOP runs on without a use when the walker starts (R67), and the engine stays
STOPPING while a control-block read is under way, be its result used or not (R173). -/
def Obligations.EngineTransitions : Prop :=
  ∀ s : State, s.resetLow = false →
    ((s.engine = .starting .ports ∧
        ∀ p, (s.port p).state ≠ .training ∧ (s.port p).state ≠ .enumerating) →
      ∃ t, exec .engineEntersRunning s = .next t ∧ t.engine = .running ∧ t.notice.engine = true ∧ t.nextOrder = 1 ∧
        t.fault = s.fault ∧ t.settings = s.settings ∧ t.portA = s.portA ∧ t.portB = s.portB ∧
        ∀ c, let head := match c with | .normal => s.settings.normalHead | .priority => s.settings.priorityHead
          (t.walker c).park = 0 ∧ (∀ v ∈ (s.walker c).work.accesses c, v ∈ t.cutAccesses) ∧
          (head = 0 → (t.walker c).state = .parked ∧ (t.walker c).work = .none ∧ (t.walker c).cause = .none) ∧
          ((head ≠ 0 ∧ head.toNat % 16 = 0 ∧ s.settings.permits head.toNat 32 true true = true) →
            (t.walker c).state = .fetching ∧ (t.walker c).work = .readHeader head ∧ (t.walker c).cause = .none) ∧
          ((head.toNat % 16 ≠ 0 ∨ (head ≠ 0 ∧ s.settings.permits head.toNat 32 true true = false)) →
            (s.walker c).state ≠ .halted →
            (t.walker c).state = .halted ∧ (t.walker c).cause = .access ∧ t.notice.chain = true)) ∧
    ((s.engine = .stopping ∧ (∀ i, s.slot i = .free) ∧
        (∀ p, (s.port p).state ≠ .training ∧ (s.port p).state ≠ .enumerating) ∧
        (∀ c d, (s.walker c).work ≠ .retire d) ∧ s.cbRead = false ∧ s.accessCut .controlBlock = false ∧
        ∀ x, (s.record x).rewrite = none ∧ (s.record x).markChange = false ∧ (s.record x).markStart = false) →
      exec .engineStopped s = .next
        { s with engine := (if s.fault = EngineFault.none then EngineState.off else EngineState.halted),
                 notice := { s.notice with engine := true } }) ∧
    ((∃ v ∈ s.accesses, v.id = .controlBlock) → exec .engineStopped s = .next s)

/-! ## Walkers and job lists (R49 to R67) -/

/-- RESCAN_x, POLL_TIMER_EXPIRY and RESCAN_PENDING; RESUME_x and RESUME_DEFERRED; a rescan reads the link at PARKx, or with
PARKx 0 the head field of the control block (R59, R60, R66). -/
def Obligations.RescansAndResumes : Prop :=
  (∀ (s : State) (c : Chain), s.resetLow = false →
      let cmd := match c with | .normal => Instr.rescanN | .priority => Instr.rescanP
      let w := s.walker c
      let link := if w.park = 0 then s.cbaddr + (match c with | .normal => 0x00 | .priority => 0x04) else w.park
      (s.engine = .running →
        ((w.state = .parked ∧ w.work = .none) → 
          exec cmd s = .next (s.setWalker c { w with work := .rescanLink link })) ∧
        ((w.state = .parked ∧ w.work ≠ .none) ∨ w.state = .fetching ∨ w.state = .blocked →
          exec cmd s = .next (s.setWalker c { w with rescanPending := true })) ∧
        (w.state = .idle ∨ w.state = .halted → exec cmd s = .next s)) ∧
      (∀ due, w.state = .parked → w.pollDue = some due → reached s.now due = true →
        let due' := if s.settings.pollMs = 0 then none else some (plusMs s.now s.settings.pollMs)
        (w.work = .none → exec (.pollTimerExpiry c) s =
          .next (s.setWalker c { w with pollDue := due', work := .rescanLink link })) ∧
        (w.work ≠ .none → exec (.pollTimerExpiry c) s =
          .next (s.setWalker c { w with pollDue := due', rescanPending := true }))) ∧
      (w.state = .parked → w.work = .none → w.rescanPending = true →
        exec (.rescanPending c) s = .next (s.setWalker c { w with rescanPending := false, work := .rescanLink link }))) ∧
  (∀ (s : State) (c : Chain), s.resetLow = false →
      let cmd := match c with | .normal => Instr.resumeN | .priority => Instr.resumeP
      let w := s.walker c
      let link := if w.park = 0 then s.cbaddr + (match c with | .normal => 0x00 | .priority => 0x04) else w.park
      let resumed := s.setWalker c { w with
        state := .parked, cause := .none, work := .rescanLink link, resumePending := false,
        pollDue := if s.settings.pollMs = 0 then none else some (plusMs s.now s.settings.pollMs) }
      (s.engine = .running →
        ((w.state = .halted ∧ w.work = .none) → exec cmd s = .next resumed) ∧
        ((w.state = .halted ∧ w.work ≠ .none) → exec cmd s = .next (s.setWalker c { w with resumePending := true })) ∧
        (w.state ≠ .halted → exec cmd s = .next s)) ∧
      ((w.state = .halted ∧ w.work = .none ∧ w.resumePending = true) → exec (.resumeDeferred c) s = .next resumed))

/-- ABORT_x: the walker halts with cause ABORTED, a held descriptor of it is retired ABORTED and other work under way runs on,
every active job of its chain is aborted by its phase, the candidates of those that ran issue no more and stay pending while
the parts that waited or had joined end, their WAITs leave the wait list, and the other chain is left as it stands (R36, R39,
R40, R55, R63 to R65, R112, R165). That the other slots are as they were is claimed of a state between two events (`Quiet`,
which every step keeps). That a waiting or joined part leaves the pending parts at once is read from R32 and R36 (log 42). -/
def Obligations.AbortsAct : Prop :=
  ∀ (s : State) (c : Chain), s.resetLow = false → s.engine = .running →
    let cmd := match c with | .normal => Instr.abortN | .priority => Instr.abortP
    ∃ t, exec cmd s = .next t ∧ t.engine = .running ∧ t.fault = s.fault ∧ t.settings = s.settings ∧
      t.portA = s.portA ∧ t.portB = s.portB ∧ t.wakeHistory = s.wakeHistory ∧
      (t.walker c).state = .halted ∧ (t.walker c).park = (s.walker c).park ∧
      ((s.walker c).state ≠ .halted → (t.walker c).cause = .aborted ∧ (t.walker c).pollDue = none ∧
        (t.walker c).rescanPending = false ∧ t.notice.chain = true ∧
        (∀ d o, (s.walker c).work = .held d o → HeldRetired d true s.now (t.walker c).work) ∧
        ((∀ d o, (s.walker c).work ≠ .held d o) → (t.walker c).work = (s.walker c).work)) ∧
      ((s.walker c).state = .halted → t.walker c = s.walker c ∧ t.notice.chain = s.notice.chain) ∧
      t.walker (otherChain c) = s.walker (otherChain c) ∧
      (∀ i j, s.job i = some j → j.chain = c → ∃ j', t.job i = some j' ∧
        (j.phase = .queued → ∃ r, j'.phase = .retiring r ∧ r.terminal = .aborted ∧ r.stepsDone = j.stepsDone ∧
          r.endedAt = s.now) ∧
        (j.phase = .running → j'.phase = .draining ∧ j'.abortRequested = true ∧
          j'.firstFailure = some (j.firstFailure.getD ⟨.aborted, j.current, none⟩) ∧ j'.stepsDone = j.stepsDone ∧
          j'.pauseDue = none ∧
          (∀ q ∈ j.parts, q.cond = .candidate →
            ⟨q.tile, if s.hasInFlight i q.tile then .issued else .withdrawn, .empty⟩ ∈ j'.parts) ∧
          ∀ q ∈ j'.parts, q.cond ≠ .candidate ∧ q.cond ≠ .waiting ∧ q.cond ≠ .joined) ∧
        (j.phase = .draining → j'.phase = .draining ∧ j'.abortRequested = true ∧ j'.firstFailure = j.firstFailure) ∧
        (∀ r, j.phase = .retiring r → j'.phase = .retiring r)) ∧
      (∀ i j, s.job i = some j → j.chain ≠ c → ∃ j', t.job i = some j' ∧ j'.idn = j.idn) ∧
      (Quiet s →
        (∀ i, (∀ j, s.job i = some j → j.chain ≠ c) → t.slot i = s.slot i) ∧
        t.waitList = s.waitList.filter (fun w => match s.job w.slot with
          | some j => !(decide (j.chain = c) && decide (j.phase = .running))
          | none => true))

/-- HEADER_READ_DONE in a fetch: bus error, state word not READY, check 4, and a header that passes (R52, R53, R55). The halt
at a bus error skips the QUEUED jobs of its chain and leaves every other job as it stands (R64). -/
def Obligations.HeaderChecked : Prop :=
  ∀ (s : State) (c : Chain) (a : Word) (r : ReadResult), s.resetLow = false → s.engine = .running →
    s.accessCut (.header c) = false → (s.walker c).state = .fetching → (s.walker c).work = .readHeader a →
    ∃ t, exec (.headerReadDone c r) s = .next t ∧ t.engine = .running ∧ t.walker (otherChain c) = s.walker (otherChain c) ∧
      (t.walker c).park = (s.walker c).park ∧
      (r = .busError → (t.walker c).state = .halted ∧ (t.walker c).cause = .busError ∧ (t.walker c).work = .none ∧
        t.notice.chain = true ∧ QueuedSkipped s t c) ∧
      (∀ h, r = .bytes h → wordAt h 4 ≠ 1 → (t.walker c).state = .parked ∧ (t.walker c).work = .none) ∧
      (∀ h, r = .bytes h → wordAt h 4 = 1 → (t.walker c).state = .fetching ∧
        ((1 ≤ (byteAt h 8).toNat ∧ (byteAt h 8).toNat ≤ 32 ∧
            s.settings.permits a.toNat (32 + 16 * (byteAt h 8).toNat) true true = true) →
          (t.walker c).work = .readSteps a h) ∧
        (¬ (1 ≤ (byteAt h 8).toNat ∧ (byteAt h 8).toNat ≤ 32 ∧
            s.settings.permits a.toNat (32 + 16 * (byteAt h 8).toNat) true true = true) →
          ∃ d, (t.walker c).work = .retire d ∧ d.addr = a ∧ d.results.terminal = .failed ∧
            d.results.code = some .badStep ∧ d.results.failingStep = 255 ∧ d.results.failingTile = none ∧
            d.results.endedAt = s.now ∧ d.results.stage = .results))

/-- RESCAN_READ_DONE, and the header read it leads to, on a PARKED walker: a READY header puts it in FETCHING, and the fetch
goes on at check 4 with that header (R53, R55, R59, R60). -/
def Obligations.RescanReads : Prop :=
  ∀ (s : State) (c : Chain) (r : ReadResult), s.resetLow = false → s.engine = .running → (s.walker c).state = .parked →
    s.accessCut (.rescan c) = false → s.accessCut (.header c) = false →
    (∀ a, (s.walker c).work = .rescanLink a →
      ∃ t, exec (.rescanReadDone c r) s = .next t ∧ (t.walker c).park = (s.walker c).park ∧
        (r = .busError → (t.walker c).state = .halted ∧ (t.walker c).cause = .busError ∧ t.notice.chain = true) ∧
        (∀ bs, r = .bytes bs → wordAt bs 0 = 0 → (t.walker c).state = .parked ∧ (t.walker c).work = .none) ∧
        (∀ bs, r = .bytes bs → wordAt bs 0 ≠ 0 → (wordAt bs 0).toNat % 16 = 0 →
          s.settings.permits (wordAt bs 0).toNat 32 true true = true →
          (t.walker c).state = .parked ∧ (t.walker c).work = .rescanHeader (wordAt bs 0)) ∧
        (∀ bs, r = .bytes bs → ((wordAt bs 0).toNat % 16 ≠ 0 ∨ (wordAt bs 0 ≠ 0 ∧
          s.settings.permits (wordAt bs 0).toNat 32 true true = false)) →
          (t.walker c).state = .halted ∧ (t.walker c).cause = .access ∧ t.notice.chain = true)) ∧
    (∀ a, (s.walker c).work = .rescanHeader a →
      ∃ t, exec (.headerReadDone c r) s = .next t ∧ (t.walker c).park = (s.walker c).park ∧
        (r = .busError → (t.walker c).state = .halted ∧ (t.walker c).cause = .busError ∧ t.notice.chain = true) ∧
        (∀ h, r = .bytes h → wordAt h 4 ≠ 1 → (t.walker c).state = .parked ∧ (t.walker c).work = .none) ∧
        (∀ h, r = .bytes h → wordAt h 4 = 1 → (t.walker c).state = .fetching ∧ (t.walker c).pollDue = none ∧
          ((1 ≤ (byteAt h 8).toNat ∧ (byteAt h 8).toNat ≤ 32 ∧
              s.settings.permits a.toNat (32 + 16 * (byteAt h 8).toNat) true true = true) →
            (t.walker c).work = .readSteps a h) ∧
          (¬ (1 ≤ (byteAt h 8).toNat ∧ (byteAt h 8).toNat ≤ 32 ∧
              s.settings.permits a.toNat (32 + 16 * (byteAt h 8).toNat) true true = true) →
            ∃ d, (t.walker c).work = .retire d ∧ d.addr = a ∧ d.results.terminal = .failed ∧
              d.results.code = some .badStep ∧ d.results.failingStep = 255 ∧ d.results.failingTile = none ∧
              d.results.endedAt = s.now ∧ d.results.stage = .results)))

/-- STEP_READ_DONE in a fetch of a RUNNING engine: bus error, check 5, check 6 with the first step that fails it, a slot
claimed or the walker BLOCKED (R23 to R26, R53 to R56, R61). The slot claimed is the lowest free one, and a fetch that passes
while a freed slot is on offer to the other walker passes at that moment (the model's choices, log 14). A walker stays
FETCHING during its TAKEN write (read from R50 and R56, log 15). -/
def Obligations.StepsChecked : Prop :=
  ∀ (s : State) (c : Chain) (a : Word) (h : List Byte) (r : ReadResult), s.resetLow = false → s.engine = .running →
    s.accessCut (.stepRecords c) = false → (s.walker c).state = .fetching → (s.walker c).work = .readSteps a h →
    let count := (byteAt h 8).toNat
    let passes := fun bs k => StepWellFormed bs k ∧ StepPermitted s.settings bs k
    ∃ t, exec (.stepReadDone c r) s = .next t ∧ (t.walker c).park = (s.walker c).park ∧
      t.walker (otherChain c) = s.walker (otherChain c) ∧
      (r = .busError → (t.walker c).state = .halted ∧ (t.walker c).cause = .busError ∧ (t.walker c).work = .none) ∧
      (∀ bs, r = .bytes bs → descriptorSum h bs ≠ halfAt h 10 → (t.walker c).state = .fetching ∧
        ∃ d, (t.walker c).work = .retire d ∧ d.addr = a ∧ d.results.terminal = .failed ∧
          d.results.code = some .check ∧ d.results.failingStep = 255) ∧
      (∀ bs k, r = .bytes bs → descriptorSum h bs = halfAt h 10 → k < count → (∀ m, m < k → passes bs m) →
        ¬ passes bs k → (t.walker c).state = .fetching ∧
        ∃ d, (t.walker c).work = .retire d ∧ d.addr = a ∧ d.results.terminal = .failed ∧ d.results.failingStep = k ∧
          (¬ StepWellFormed bs k → d.results.code = some .badStep) ∧
          (StepWellFormed bs k → d.results.code = some .access)) ∧
      (∀ bs, r = .bytes bs → descriptorSum h bs = halfAt h 10 → (∀ m, m < count → passes bs m) →
        ∃ d : Fetched, d.addr = a ∧ d.link = wordAt h 0 ∧ d.notify = (byteAt h 9).getLsbD 0 ∧
          d.haltOnFail = (byteAt h 9).getLsbD 1 ∧ d.steps.length = count ∧
          (∀ m, m < count → ∃ p, d.steps[m]? = some p ∧ StepRead bs m p) ∧
          (∀ i, s.mayUse c = true → s.slotOffers (otherChain c) = [] → s.freeSlot = some i →
            (t.walker c).state = .fetching ∧ (t.walker c).work = .takenWrite d i ∧ t.slot i = .claimed c) ∧
          (s.mayUse c = true → s.slotOffers (otherChain c) ≠ [] →
            (t.walker c).state = .blocked ∧ (t.walker c).work = .held d (s.slotOffers (otherChain c))) ∧
          (s.mayUse c = true → s.slotOffers (otherChain c) = [] → s.freeSlot = none →
            (t.walker c).state = .blocked ∧ (t.walker c).work = .held d []) ∧
          (s.mayUse c = false → (t.walker c).state = .blocked ∧ (t.walker c).work = .held d []))

/-- SLOT_OFFER: a slot that became free goes to the BLOCKED Priority walker it is on offer to, else to the Normal walker it is
on offer to, while fewer than six slots are that chain's; the walker that does not receive it stays BLOCKED, with the slot on
offer no more. A slot on offer to no walker that may use it is claimed by none (R61). Which slots are on offer stands with the
walker that waits for them (log 14). A walker stays FETCHING during its TAKEN write (read from R50 and R56, log 15). -/
def Obligations.SlotsOffered : Prop :=
  ∀ (s : State) (i : SlotNum), s.resetLow = false → s.slot i = .free →
    (∀ d o, s.walkerP.work = .held d o → i ∈ o → exec (.slotOffer i) s =
      .next ((s.setSlot i (.claimed .priority)).setWalker .priority
        { s.walkerP with state := .fetching, work := .takenWrite d i } |>.setWalker .normal
        { s.walkerN with work := match s.walkerN.work with
          | .held e l => .held e (l.filter (fun k => decide (k ≠ i)))
          | w => w })) ∧
    ((∀ d o, s.walkerP.work = .held d o → i ∉ o) →
      (∀ d o, s.walkerN.work = .held d o → i ∈ o → s.normalSlots < 6 → exec (.slotOffer i) s =
        .next ((s.setSlot i (.claimed .normal)).setWalker .normal
          { s.walkerN with state := .fetching, work := .takenWrite d i })) ∧
      ((∀ d o, s.walkerN.work = .held d o → i ∉ o) ∨ 6 ≤ s.normalSlots → exec (.slotOffer i) s = .next s))

/-- TAKEN_WRITE_DONE: the TAKEN write under way goes to the descriptor's state word; at its end the job enters the claimed
slot with what was fetched and the next fetch order, PARKx is its address, and the walker follows its link; the job is QUEUED,
and admitted at the same event when no older job of its chain blocks it; a bus error frees the slot and is the fatal fault;
when the walker has halted meanwhile the job is skipped, or aborted after ABORT_x or STOP, and after a fatal fault its slot is
free (R22, R27, R44, R56, R57, R62, R64, R65, R67, R174, 12.3). -/
def Obligations.TakenWritten : Prop :=
  ∀ (s : State) (c : Chain) (d : Fetched) (i : SlotNum), s.resetLow = false → s.accessCut (.taken c) = false →
    (s.walker c).work = .takenWrite d i →
    ⟨.taken c, .write (d.addr + 0x04) [2, 0, 0, 0]⟩ ∈ s.accesses ∧
    (s.fatal = false → (s.walker c).state = .halted ∨ (s.walker c).state = .idle →
      ∃ t j r, exec (.takenWriteDone c true) s = .next t ∧ t.job i = some j ∧ j.addr = d.addr ∧ j.order = s.nextOrder ∧
        j.phase = .retiring r ∧ r.stepsDone = 0 ∧ (t.walker c).park = d.addr ∧ (t.walker c).work = .none ∧
        (t.walker c).state = (s.walker c).state ∧ (t.walker c).cause = (s.walker c).cause ∧
        r.terminal = (if (s.walker c).state = .idle ∨ (s.walker c).cause = .aborted then .aborted else .skipped)) ∧
    (s.fatal = true →
      ∃ t, exec (.takenWriteDone c true) s = .next t ∧ t.slot i = .free ∧ t.engine = s.engine ∧ t.fault = s.fault) ∧
    (s.engine = .running → s.fault = .none → (s.walker c).state = .fetching →
    (∃ t, exec (.takenWriteDone c true) s = .next t ∧ t.engine = .running ∧ (t.walker c).park = d.addr ∧
      (t.walker c).link = d.link ∧ t.nextOrder = s.nextOrder + 1 ∧
      (∃ j, t.job i = some j ∧ j.chain = c ∧ j.addr = d.addr ∧ j.order = s.nextOrder ∧ j.notify = d.notify ∧
        j.haltOnFail = d.haltOnFail ∧ j.steps = d.steps ∧ j.tiles = unionTiles d.steps ∧ j.outstanding = 0 ∧
        j.abortRequested = false ∧
        let blocked := ∃ k m, k ≠ i ∧ s.job k = some m ∧ m.chain = c ∧ m.order < s.nextOrder ∧
          m.phase.isRetiring = false ∧ m.tiles &&& unionTiles d.steps ≠ 0
        let follows := d.link = 0 ∨ (d.link.toNat % 16 = 0 ∧ s.settings.permits d.link.toNat 32 true true = true)
        (follows → blocked → j.phase = .queued) ∧
        (follows → ¬ blocked → j.phase ≠ .queued ∧ j.startedAt = s.now) ∧
        (¬ follows → blocked → ∃ r, j.phase = .retiring r ∧ r.terminal = .skipped)) ∧
      (d.link = 0 → (t.walker c).state = .parked ∧ (t.walker c).work = .none) ∧
      (d.link ≠ 0 → d.link.toNat % 16 = 0 → s.settings.permits d.link.toNat 32 true true = true →
        (t.walker c).state = .fetching ∧ (t.walker c).work = .readHeader d.link) ∧
      (d.link.toNat % 16 ≠ 0 ∨ (d.link ≠ 0 ∧ s.settings.permits d.link.toNat 32 true true = false) →
        (t.walker c).state = .halted ∧ (t.walker c).cause = .access)) ∧
    (∃ t, exec (.takenWriteDone c false) s = .next t ∧ t.engine = .stopping ∧ t.fault = .resultWriteError ∧
      t.notice.engine = true ∧ t.slot i = .free ∧ (t.walker c).park = (s.walker c).park ∧
      (∀ e, (t.walker e).state = .idle)))

/-- FETCH_FAIL_WRITE_DONE: the result fields, then the state word, each write under way with its address and bytes; with the
state word E is taken, JOB is raised with NOTIFY, and the walker halts or follows the link; a bus error is the fatal fault
(R42, R55, R57, R63, R174, R180, 12.3). Which write is the last of the result
writes is an operand (the model's choice, log 23). -/
def Obligations.DirectRetirement : Prop :=
  ∀ (s : State) (c : Chain) (d : DirectRetire) (last : Bool), s.resetLow = false → s.engine = .running → s.fault = .none →
    s.accessCut (.directRetirement c) = false → (s.walker c).state = .fetching → (s.walker c).work = .retire d →
    (∃ w, ⟨.directRetirement c, w⟩ ∈ s.accesses ∧ RetirementWrite d.addr d.results w) ∧
    (d.results.stage = .results →
      exec (.fetchFailWriteDone c true true) s = .next (s.setWalker c
        { s.walker c with work := .retire { d with results := { d.results with stage := .stateWord } } }) ∧
      exec (.fetchFailWriteDone c false true) s = .next s) ∧
    (d.results.stage = .stateWord →
      ∃ t, exec (.fetchFailWriteDone c last true) s = .next t ∧ (t.walker c).park = d.addr ∧ (t.walker c).link = d.link ∧
        t.notice.job = (s.notice.job || d.notify) ∧
        (d.results.code = some .check → (t.walker c).state = .halted ∧ (t.walker c).cause = .check) ∧
        (d.results.code ≠ some .check → d.haltOnFail = true →
          (t.walker c).state = .halted ∧ (t.walker c).cause = .jobFailed) ∧
        (d.results.code ≠ some .check → d.haltOnFail = false → d.link = 0 → (t.walker c).state = .parked) ∧
        (d.results.code ≠ some .check → d.haltOnFail = false → d.link ≠ 0 → d.link.toNat % 16 = 0 →
          s.settings.permits d.link.toNat 32 true true = true →
          (t.walker c).state = .fetching ∧ (t.walker c).work = .readHeader d.link)) ∧
    (∃ t, exec (.fetchFailWriteDone c last false) s = .next t ∧ t.engine = .stopping ∧ t.fault = .resultWriteError ∧
      t.notice.engine = true ∧ (t.walker c).park = (s.walker c).park ∧ (∀ e, (t.walker e).state = .idle))

/-- A walker that has left FETCHING: in IDLE its reads end and nothing follows; in HALTED a fetch runs on to its end, a bus
error or an unready header ends it, a descriptor that passes is retired SKIPPED, or ABORTED after ABORT_x, and a direct
retirement ends without following the link; the held descriptor of a BLOCKED walker is retired ABORTED at an ABORT_x, and
SKIPPED at the halt that the FAILED state word of a HALT_ON_FAIL job of its chain brings (R55, R63 to R65, R67). That this halt
goes before the offer of the slot which the same state word frees (R61), so that the held descriptor is retired from the
walker, is the model's choice (log 43). That an IDLE walker's fetch ends at the read under way, and that JOB is raised for a
state word that ends after a fatal fault, are read from the rules (logs 32, 29). -/
def Obligations.WalkersOutOfFetching : Prop :=
  ∀ (s : State) (c : Chain) (a : Word) (h : List Byte) (r : ReadResult), s.resetLow = false →
    (∀ v ∈ s.cutAccesses, v.id ≠ .header c ∧ v.id ≠ .stepRecords c ∧ v.id ≠ .rescan c ∧ v.id ≠ .directRetirement c) →
    ((s.walker c).state = .blocked → s.engine = .running → ∀ d o, (s.walker c).work = .held d o →
      (∃ t, exec (match c with | .normal => Instr.abortN | .priority => Instr.abortP) s = .next t ∧
        (t.walker c).state = .halted ∧ (t.walker c).cause = .aborted ∧ HeldRetired d true s.now (t.walker c).work) ∧
      (∀ i j rt, s.accessCut (.stateWord i) = false → s.job i = some j → j.chain = c → j.haltOnFail = true →
        j.phase = .retiring rt → rt.stage = .stateWord → rt.terminal = .failed →
        ∃ t, exec (.stateWordWriteDone i true) s = .next t ∧ (t.walker c).state = .halted ∧
          (t.walker c).cause = .jobFailed ∧ HeldRetired d false s.now (t.walker c).work)) ∧
    ((s.walker c).state = .idle →
      ((s.walker c).work = .readHeader a ∨ (s.walker c).work = .rescanHeader a →
        ∃ t, exec (.headerReadDone c r) s = .next t ∧ t.walker c = { s.walker c with work := .none }) ∧
      ((s.walker c).work = .readSteps a h →
        ∃ t, exec (.stepReadDone c r) s = .next t ∧ t.walker c = { s.walker c with work := .none }) ∧
      ((s.walker c).work = .rescanLink a →
        ∃ t, exec (.rescanReadDone c r) s = .next t ∧ t.walker c = { s.walker c with work := .none })) ∧
    ((s.walker c).state = .halted →
      ((s.walker c).work = .readHeader a → (r = .busError ∨ ∃ bs, r = .bytes bs ∧ wordAt bs 4 ≠ 1) →
        ∃ t, exec (.headerReadDone c r) s = .next t ∧ t.walker c = { s.walker c with work := .none } ∧
          t.notice.chain = s.notice.chain) ∧
      ((s.walker c).work = .readSteps a h →
        (r = .busError → ∃ t, exec (.stepReadDone c r) s = .next t ∧ t.walker c = { s.walker c with work := .none } ∧
          t.notice.chain = s.notice.chain) ∧
        (∀ bs ps, r = .bytes bs → checkSum h bs = halfAt h 10 →
          checkSteps s.settings bs 0 (headerCount h) = .ok ps →
          ∃ t d, exec (.stepReadDone c r) s = .next t ∧ t.walker c = { s.walker c with work := .retire d } ∧ d.addr = a ∧
            d.results.terminal = (if (s.walker c).cause = .aborted then .aborted else .skipped) ∧
            d.results.endedAt = (s.walker c).haltTime ∧ ∀ i, t.slot i = s.slot i ∨ ∃ j, s.job i = some j))) ∧
    ((s.walker c).state = .halted ∨ (s.walker c).state = .idle →
      ∀ (d : DirectRetire) (last : Bool), (s.walker c).work = .retire d → d.results.stage = .stateWord →
        ∃ t, exec (.fetchFailWriteDone c last true) s = .next t ∧
          t.walker c = { s.walker c with park := d.addr, link := d.link, work := .none } ∧
          t.notice.job = (s.notice.job || d.notify) ∧ t.notice.chain = s.notice.chain)

/-! ## Jobs (R27 to R45, R62) -/

/-- The checks of R30 in their order, R94's hold of a WAKE or SLEEP behind a power packet in flight, and the table of R31. The
failures of one event in a RUNNING job: absorbed and counted in a TOLERANT step, else the lowest tile's failure is the job's
first failure and the job drains (R35, R36). -/
def Obligations.PartsJudgedAndFailuresRecorded : Prop :=
  ((∀ k ts, StepKind.isQuery k = true → disposition k ts = .candidate) ∧
    (∀ k, StepKind.isDisplay k = true ∨ StepKind.isConfig k = true →
      disposition k .asleep = .candidate ∧ disposition k .waking = .waits ∧ disposition k .awake = .candidate ∧
      disposition k .dozing = .waits) ∧
    (∀ k, StepKind.isStream k = true →
      disposition k .asleep = .fail .notAwake ∧ disposition k .waking = .waits ∧ disposition k .awake = .candidate ∧
      disposition k .dozing = .fail .notAwake) ∧
    disposition .wake .asleep = .candidate ∧ disposition .wake .waking = .joined ∧
    disposition .wake .awake = .completes ∧ disposition .wake .dozing = .waits ∧
    disposition .sleep .asleep = .completes ∧ disposition .sleep .waking = .waits ∧
    disposition .sleep .awake = .candidate ∧ disposition .sleep .dozing = .completes ∧
    disposition .sleep .faulted = .candidate) ∧
  (∀ (e : TileEntry) (st : Step),
      let tolerates := st.kind = .sleep ∨ st.kind = .readId ∨ st.kind = .readState
      (e.state = .absent → entryCheck e st = some .noTile) ∧ (e.state = .lost → entryCheck e st = some .tileLost) ∧
      (e.state = .faulted → ¬ tolerates → entryCheck e st = some .tileFault) ∧
      (e.state ≠ .absent → e.state ≠ .lost → (e.state = .faulted → tolerates) →
        (OperandsFit e st → entryCheck e st = none) ∧ (¬ OperandsFit e st → entryCheck e st = some .badOperand))) ∧
  (∀ (s : State) (st : Step) (x : TileNum),
      let held := (st.kind = .wake ∨ st.kind = .sleep) ∧
        ∃ e ∈ (s.port (portOf x)).inFlight, e.tile = x ∧ (e.kind = .wake ∨ e.kind = .sleep)
      (∀ c, entryCheck (s.tile x) st = some c → s.judge st x = .fail c) ∧
      (entryCheck (s.tile x) st = none → (held → s.judge st x = .waits) ∧
        (¬ held → s.judge st x = disposition st.kind (s.tile x).state))) ∧
  (∀ (s : State) (i : SlotNum) (j : Job) (st : Step) (x : TileNum) (code : ErrorCode),
      s.job i = some j → j.phase = .running → j.step? = some st → lowestFailing j.parts = some (x, code) →
      (∃ q ∈ j.parts, q.tile = x ∧ q.cond = .failing code) ∧
      (∀ q ∈ j.parts, ∀ c', q.cond = .failing c' → x ≤ q.tile) ∧
      (st.tolerant = false → ∃ j', (s.resolveSlot i).job i = some j' ∧ j'.phase = .draining ∧
        j'.firstFailure = some ⟨code, j.current, some x⟩ ∧ j'.tolerated = j.tolerated) ∧
      (st.tolerant = true → ∃ j', (s.resolveSlot i).job i = some j' ∧ j'.phase = .running ∧
        j'.firstFailure = j.firstFailure ∧ j'.tolerated = min 255 (j.tolerated + countFailing j.parts)))

/-- Terminal state, result code and result fields of a job entering RETIRING (R41, R42). JOB_DRAINED: a DRAINING job with
nothing outstanding enters RETIRING with the results of its first failure; after a fatal fault it is abandoned (R39, R41,
R44). -/
def Obligations.JobsDrain : Prop :=
  (∀ (j : Job) (now : Word),
      (∀ cause, (j.results cause now).stepsDone = j.stepsDone ∧ (j.results cause now).tolerated = j.tolerated ∧
        (j.results cause now).startedAt = j.startedAt ∧ (j.results cause now).endedAt = now ∧
        (j.results cause now).failingStep = (j.firstFailure.map (fun f => f.step)).getD 0 ∧
        (j.results cause now).failingTile = j.firstFailure.bind (fun f => f.tile)) ∧
      (j.tolerated = 0 → (j.results .completed now).terminal = .done ∧ (j.results .completed now).code = none) ∧
      (j.tolerated ≠ 0 → (j.results .completed now).terminal = .partly ∧ (j.results .completed now).code = none) ∧
      (∀ f, j.firstFailure = some f → f.code ≠ .aborted →
        (j.results .drained now).terminal = .failed ∧ (j.results .drained now).code = some f.code) ∧
      (∀ f, j.firstFailure = some f → f.code = .aborted →
        (j.results .drained now).terminal = .aborted ∧ (j.results .drained now).code = some .aborted) ∧
      (j.results .abortedQueued now).terminal = .aborted ∧ (j.results .abortedQueued now).code = some .aborted ∧
      (j.results .skipped now).terminal = .skipped ∧ (j.results .skipped now).code = none) ∧
  (∀ (s : State) (i : SlotNum) (j : Job), s.resetLow = false → s.job i = some j → j.phase = .draining → j.outstanding = 0 →
      ∃ t, exec (.jobDrained i) s = .next t ∧
        (s.fatal = false → ∃ j', t.job i = some j' ∧ j'.phase = .retiring (j.results .drained s.now) ∧ j'.addr = j.addr) ∧
        (s.fatal = true → t.slot i = .free) ∧
        t.engine = s.engine ∧ t.port = s.port ∧ t.walkerN = s.walkerN ∧ t.walkerP = s.walkerP ∧ t.now = s.now)

/-- A step that is over goes on at its own event: every step of the machine keeps that no job stands with its step over (R37),
keeps what holds between two events (`Quiet`: R34, R37, R40, R173), and keeps that every job stands at one of its steps
(`State.HasSteps`: R22, R37, R53). All three hold at reset. -/
def Obligations.StepsGoOnAtTheirEvent : Prop :=
  (∀ s t : State, s.readySlots = [] → step s = .next t → t.readySlots = []) ∧
  (∀ s t : State, Quiet s → step s = .next t → Quiet t) ∧
  (∀ s t : State, s.HasSteps → step s = .next t → t.HasSteps) ∧
  State.reset.readySlots = [] ∧ Quiet State.reset ∧ State.reset.HasSteps

/-- JOB_ADMISSION: a QUEUED job that no older job of its chain blocks is admitted, started at now, and its step 0 becomes
current: its tile parts as they were judged, its WAIT in the list, its PAUSE timed or its MARK delivered; one that is blocked
stays (R28, R31, R35, R36, R39, R62, R100, R112, R163, R166, R167). A job that fails at its step 0 keeps as pending the parts
it withdrew as candidates, and no part that waits or has joined (read from R32, R36 and R39, log 42). A MARK's occurrence
completes the WAITs that listen for it before the MARK itself, so a job that then waits for the MARK that follows has it too.
What the step leaves is said of a state between two events (`Quiet`), whose QUEUED job has no tile part and nothing in
flight. -/
def Obligations.JobsAdmitted : Prop :=
  ∀ (s : State) (i : SlotNum) (j : Job), s.resetLow = false → s.engine = .running → s.job i = some j → j.phase = .queued →
    ((∀ k m, s.job k = some m → m.chain = j.chain → m.order < j.order → m.phase.isRetiring = false →
        m.tiles &&& j.tiles = 0) →
      ∃ t, exec (.jobAdmission i) s = .next t ∧
        EventFrame ((s.modJob i (fun j => { j with phase := .running, startedAt := s.now })).stepCurrent i) t ∧
        t.port = s.port ∧ t.engine = .running ∧ t.walkerN = s.walkerN ∧ t.walkerP = s.walkerP ∧
        (∃ j', t.job i = some j' ∧ j'.startedAt = s.now ∧ j'.addr = j.addr ∧ j'.steps = j.steps ∧ j'.order = j.order) ∧
        (∀ x, (t.tile x).eraseWork = (s.tile x).eraseWork) ∧
        (Quiet s → j.parts = [] → (∀ x, s.hasInFlight i x = false) → ∀ st, j.step? = some st →
          let admitted := { j with phase := .running, startedAt := s.now }
          let parts := s.partsAtEntry st
          let failures := s.failuresAtEntry st
          let othersStay := ∀ k, k ≠ i → t.slot k = s.slot k
          let errorsSet := ∀ f ∈ failures, (t.tile f.1).lastError =
            if f.2 = .noTile then (s.tile f.1).lastError else some f.2
          (st.kind.isEngine = false →
            (failures = [] → parts ≠ [] → t.job i = some { admitted with parts := parts } ∧ othersStay ∧
              ∀ q ∈ parts, (t.tile q.tile).armed = false) ∧
            (∀ f rest, failures = f :: rest → st.tolerant = false →
              ∃ j', t.job i = some j' ∧ j'.phase = .draining ∧ j'.firstFailure = some ⟨f.2, j.current, some f.1⟩ ∧
                j'.stepsDone = j.stepsDone ∧ othersStay ∧ errorsSet ∧
                j'.parts = (parts.filter (fun q => decide (q.cond = .candidate))).map (fun q => ⟨q.tile, .withdrawn, .empty⟩)) ∧
            (failures ≠ [] → st.tolerant = true → parts ≠ [] →
              t.job i = some { admitted with parts := parts, tolerated := min 255 (j.tolerated + failures.length) } ∧
              othersStay ∧ errorsSet) ∧
            (failures = [] ∨ st.tolerant = true → parts = [] →
              ∃ j', t.job i = some j' ∧ j.stepsDone < j'.stepsDone ∧ (j'.phase = .running → j.current < j'.current) ∧
                (failures ≠ [] → min 255 (j.tolerated + failures.length) ≤ j'.tolerated))) ∧
          (st.kind = .wait → ∀ src, EventSource.ofCode st.x.toNat = some src →
            t.waitList = s.waitList ++ [⟨i, src, plusMs s.now (st.y.toNat % 2 ^ 16)⟩] ∧ t.job i = some admitted ∧
            othersStay) ∧
          (st.kind = .pause →
            t.job i = some { admitted with pauseDue := some (plusMs s.now (st.x.toNat % 2 ^ 16)) } ∧ othersStay ∧
            t.waitList = s.waitList) ∧
          (st.kind = .mark → ∀ n : Fin 4, st.x.toNat = n.val →
            (∃ j', t.job i = some j' ∧ j.stepsDone < j'.stepsDone ∧ (j'.phase = .running → j.current < j'.current)) ∧
            WaitsCompleted s t (.mark n) ∧
            (∀ w ∈ s.waitList, w.source = .mark n → ∀ k ∈ s.job w.slot, k.phase = .running → ∀ m : Fin 4, ∀ a b c,
              k.step? = some a → a.kind = .wait → k.steps[k.current + 1]? = some b → b.kind = .wait →
              EventSource.ofCode b.x.toNat = some (.mark m) → j.steps[j.current + 1]? = some c → c.kind = .mark →
              c.x.toNat = m.val → ∃ k', t.job w.slot = some k' ∧ k.stepsDone + 2 ≤ k'.stepsDone) ∧
            (s.settings.sync0 = some (.mark n) → t.sync0 = true) ∧
            (s.settings.sync1 = some (.mark n) → t.sync1 = true) ∧
            ∀ k, k ≠ i → (∀ w ∈ s.waitList, w.slot ≠ k) → t.slot k = s.slot k))) ∧
    ((∃ k m, s.job k = some m ∧ m.chain = j.chain ∧ m.order < j.order ∧ m.phase.isRetiring = false ∧
        m.tiles &&& j.tiles ≠ 0) → exec (.jobAdmission i) s = .next s)

/-- RESULT_WRITE_DONE and STATE_WORD_WRITE_DONE: result fields, then the state word, each write under way with its address
and bytes; with the state word the slot is free, JOB is raised with NOTIFY, and a FAILED job with HALT_ON_FAIL halts its
walker while the engine is RUNNING, which skips the QUEUED jobs of its chain; the slot is then on offer to each BLOCKED
walker that may use it; a bus error frees the slot and is the fatal fault; after a fatal fault the job is abandoned with the
write under way (R42 to R44, R61, R63, R64, R174, R180, 12.3). Which write is the last of the result writes is an operand,
the slots on offer stand with the walker that waits for them, and a walker that the state word halts is not offered the slot
(the model's choices, logs 23, 14, 43). -/
def Obligations.ResultsWritten : Prop :=
  ∀ (s : State) (i : SlotNum) (j : Job) (r : Retirement) (last : Bool), s.resetLow = false →
    s.accessCut (.results i) = false → s.accessCut (.stateWord i) = false → s.job i = some j → j.phase = .retiring r →
    (∃ w, ⟨match r.stage with | .results => .results i | .stateWord => .stateWord i, w⟩ ∈ s.accesses ∧
      RetirementWrite j.addr r w) ∧
    ((s.engine = .running ∨ s.engine = .stopping) → s.fault = .none →
      (r.stage = .results →
        exec (.resultWriteDone i true true) s =
          .next (s.setSlot i (.job { j with phase := .retiring { r with stage := .stateWord } })) ∧
        exec (.resultWriteDone i false true) s = .next s ∧
        ∃ t, exec (.resultWriteDone i last false) s = .next t ∧ t.slot i = .free ∧ t.engine = .stopping ∧
          t.fault = .resultWriteError ∧ t.notice.engine = true ∧ t.notice.job = s.notice.job) ∧
      (r.stage = .stateWord →
        (∃ t, exec (.stateWordWriteDone i true) s = .next t ∧ t.slot i = .free ∧ t.engine = s.engine ∧
          t.fault = s.fault ∧ t.notice.job = (s.notice.job || j.notify) ∧ t.port = s.port ∧
          (r.terminal = .failed → j.haltOnFail = true → s.engine = .running → (s.walker j.chain).state ≠ .halted →
            (t.walker j.chain).state = .halted ∧ (t.walker j.chain).cause = .jobFailed ∧ t.notice.chain = true ∧
            QueuedSkipped (s.setSlot i .free) t j.chain) ∧
          (¬ (r.terminal = .failed ∧ j.haltOnFail = true) ∨ s.engine = .stopping →
            t.notice.chain = s.notice.chain ∧
            ∀ c, ((∀ d o, (s.walker c).work ≠ .held d o) → t.walker c = s.walker c) ∧
              (∀ d o, (s.walker c).work = .held d o →
                let offers := if (s.setSlot i .free).mayUse c = true then o ++ [i] else o
                t.walker c = { s.walker c with work := .held d offers }))) ∧
        (∃ t, exec (.stateWordWriteDone i false) s = .next t ∧ t.slot i = .free ∧ t.engine = .stopping ∧
          t.fault = .resultWriteError ∧ t.notice.engine = true ∧ t.notice.job = s.notice.job))) ∧
    (s.engine = .stopping → s.fault ≠ .none → r.stage = .results →
      ∃ t, exec (.resultWriteDone i last true) s = .next t ∧ t.slot i = .free ∧ t.fault = s.fault ∧ t.notice = s.notice)

/-! ## Status records and TILECHG (R18 to R21) -/

/-- A record change, by whatever command but a reset, marks the record while rewrites are made, and joins TILECHG with TILE
raised at any other time (R18, R21). STATUS_REWRITE_START and STATUS_WRITE_DONE: three writes, the change count raised by the
first and the third, the fields as they stand when the second begins, and the tile joining TILECHG at the end when a record
change caused it; a bus error fails START or is the fatal fault; START's last rewrite begins its ports phase (R19, R20, R21,
R171, R174). Which rewrites join TILECHG is read from R20 and R21 (log 20). The count rises by one whatever its parity, and a
control-block read under way at a status write's error in STARTING runs on without a use (the model's choices, logs 34, 39).
Each write under way has its address in the status area and its bytes, those of the second as 12.4 gives them (R18, R19, R180).
-/
def Obligations.RecordsRewritten : Prop :=
  (∀ (s : State) (x : TileNum),
      (s.marksRewrites = true → ((s.recordChange x).record x).markChange = true ∧
        (s.recordChange x).tileChg = s.tileChg ∧ (s.recordChange x).notice = s.notice) ∧
      (s.marksRewrites = false → (s.recordChange x).tileChg.getLsbD x.val = true ∧
        (s.recordChange x).notice.tile = true ∧ (s.recordChange x).records = s.records) ∧
      (s.marksRewrites = true ↔
        s.settings.statusArea ≠ none ∧ ¬ (s.engine = .stopping ∧ s.fault ≠ .none) ∧
        (s.engine = .running ∨ s.engine = .stopping ∨ s.engine = .starting .statusRecords ∨ s.engine = .starting .ports))) ∧
  (∀ (c : Instr) (s t : State) (x : TileNum), c ≠ .reset → c ≠ .hardReset → exec c s = .next t →
      (s.tile x).view ≠ (t.tile x).view →
      (t.marksRewrites = true → (t.record x).markChange = true) ∧
      (t.marksRewrites = false → t.tileChg.getLsbD x.val = true ∧ t.notice.tile = true)) ∧
  (∀ (s : State) (x : TileNum) (w : Rewrite), (s.record x).rewrite = some w →
      let record := w.area + BitVec.ofNat 32 (64 * x.val)
      (w.stage = .countOdd ∨ w.stage = .countEven → ∃ bs, ⟨.record x, .write record bs⟩ ∈ s.accesses ∧ bs.length = 2 ∧
        halfAt bs 0 = (s.tile x).changeCount) ∧
      (∀ bs, w.stage = .fields bs → ⟨.record x, .write (record + 2) bs⟩ ∈ s.accesses)) ∧
  (∀ (s : State) (x : TileNum), s.resetLow = false → s.accessCut (.record x) = false →
      (((s.record x).markChange = true ∨ (s.record x).markStart = true) → (s.record x).rewrite = none →
        s.marksRewrites = true →
        exec (.statusRewriteStart x) s = .next
          ((s.setTile x { s.tile x with changeCount := (s.tile x).changeCount + 1 }).setRecord x
            { markChange := false, markStart := false,
              rewrite := some { area := s.settings.statusArea.getD 0, stage := .countOdd, joins := (s.record x).markChange,
                                byStart := (s.record x).markStart, stopped := false } })) ∧
      (∀ w, (s.record x).rewrite = some w → w.stopped = false → s.fatal = false →
        ∃ t, exec (.statusWriteDone x true) s = .next t ∧
          (w.stage = .countOdd →
            (∃ bs, (t.record x).rewrite = some { w with stage := .fields bs } ∧ RecordFields (s.tile x) x bs) ∧
            (t.tile x).changeCount = (s.tile x).changeCount) ∧
          (∀ bs, w.stage = .fields bs →
            (t.record x).rewrite = some { w with stage := .countEven } ∧
            (t.tile x).changeCount = (s.tile x).changeCount + 1) ∧
          (w.stage = .countEven →
            (t.record x).rewrite = none ∧ (t.tile x).changeCount = (s.tile x).changeCount ∧
            (w.joins = true → t.tileChg.getLsbD x.val = true ∧ t.notice.tile = true))) ∧
      (∀ w, (s.record x).rewrite = some w → s.fault = .none → s.engine = .running ∨ s.engine = .stopping →
        ∃ t, exec (.statusWriteDone x false) s = .next t ∧ t.engine = .stopping ∧ t.fault = .statusWriteError ∧
          (t.record x).rewrite = none ∧ t.notice.engine = true ∧
          (∀ y, (s.record y).markChange = true → t.tileChg.getLsbD y.val = true)) ∧
      (∀ w ph, (s.record x).rewrite = some w → s.engine = .starting ph →
        ∃ t, exec (.statusWriteDone x false) s = .next t ∧ t.engine = .halted ∧ t.fault = .statusWriteError ∧
          (t.record x).rewrite = none ∧ t.notice.engine = true ∧ t.cbRead = false ∧
          (s.cbRead = true → ⟨.controlBlock, .read s.cbaddr 128⟩ ∈ t.cutAccesses)) ∧
      (∀ w ok, (s.record x).rewrite = some w → (w.stopped = true ∧ ok = true) ∨ s.fatal = true →
        ∃ t, exec (.statusWriteDone x ok) s = .next t ∧ (t.record x).rewrite = none ∧ t.engine = s.engine ∧
          t.fault = s.fault ∧ (w.joins = true → t.tileChg.getLsbD x.val = true ∧ t.notice.tile = true)) ∧
      (∀ w, (s.record x).rewrite = some w → w.stopped = false → w.stage = .countEven →
        s.engine = .starting .statusRecords → (s.record x).markStart = false →
        (∀ y, y ≠ x → (s.record y).markStart = false ∧ ∀ v, (s.record y).rewrite = some v → v.byStart = false) →
        ∃ t, exec (.statusWriteDone x true) s = .next t ∧ t.engine = .starting .ports ∧
          ∀ p, ((s.port p).state = .down ∨ (s.port p).state = .failed → (t.port p).state = .training) ∧
            ((s.port p).state = .training ∨ (s.port p).state = .enumerating ∨ (s.port p).state = .up →
              t.port p = s.port p)))

/-! ## Scheduling (R68 to R86, R89, R90, R109, R110) -/

/-- What the arbiter picks is a candidate of its port that is issuable: conditions 1 to 6 of R71, a free tag among them, and
every gate of its kind; and among the issuable candidates that are not held it ranks first by R84, and where there is one, one
is picked (R68, R70 to R78, R84, R88, R89, R95, R109). Held is only an ON_FRAME display packet behind a SLEEP in flight to its
tile, where the free value says so: R71 gives it no gate and R128 lets no power packet but a WAKE be in flight with it (log
37). The statement is made for either value. -/
def Obligations.OnlyIssuableEntriesGo : Prop :=
  (∀ (s : State) (p : PortId) (c : Cand), s.arbiterPick p = some c →
    c ∈ s.candidates p ∧ s.Offered p c ∧ s.MayIssue c ∧ ¬ s.HeldBehindSleep c ∧
    ∀ d ∈ s.candidates p, s.MayIssue d → ¬ s.HeldBehindSleep d → c.notAfter d) ∧
  (∀ (s : State) (p : PortId), s.arbiterPick p = none → ∀ d ∈ s.candidates p, s.MayIssue d → s.HeldBehindSleep d) ∧
  ∀ (s : State) (p : PortId) (c : Cand), s.arbiterPick p = some c →
    c ∈ s.candidates p ∧ (s.engine = .running ∨ s.engine = .stopping) ∧ (s.port (portOf c.tile)).state = .up ∧
    (s.tile c.tile).state ≠ .absent ∧ (s.tile c.tile).state ≠ .lost ∧ (s.port p).freeTag ≠ none ∧
    (s.tile c.tile).credits < 4 ∧ (s.tile c.tile).configInFlight = false ∧
    (c.slot.isSome = true → c.kind = .wake → s.wakePresented = some c.tile ∧
      s.wakeHistory.length < s.settings.wakeLimit ∧
      ∀ m, s.wakeHistory.getLast? = some m → s.settings.wakeGapMs ≤ (s.now - m).toNat) ∧
    (c.kind = .sleep ∨ StepKind.isConfig c.kind = true → (s.tile c.tile).credits = 0) ∧
    (StepKind.isStream c.kind = true → c.slot.isSome = true → (s.tile c.tile).state = .awake ∧
      s.sleepInFlight c.tile = false)

/-- PACKET_ISSUE: an auto-sleep's SLEEP, which disarms its tile, and a job's packet: lowest free tag, in-flight entry,
credit, configuration flag, transmitter with the packet's kind, flags and payload, outstanding count, stream, and the wake
history for a WAKE; the owner's tile part is issued, or, while segments of its stream remain, still a candidate whose next
segment's staging begins; a packet of another owner breaks the PUT stream open on its tile and leaves a GET stream as it was;
and a second WAKE part for the granted tile waits behind the WAKE (R79 to R81, R90, R94, R99, R100, R107, R110, R116, R141,
12.6). -/
def Obligations.PacketsIssue : Prop :=
  (∀ (s : State) (p : PortId) (c : Cand) (g : Tag), s.resetLow = false →
    (s.port p).transmitting = none → s.arbiterPick p = some c → c.slot = none → (s.port p).freeTag = some g →
    ∃ t e, exec (.packetIssue p) s = .next t ∧ (t.port p).inFlight = (s.port p).inFlight ++ [e] ∧
      (t.port p).transmitting = some ⟨.sleep, BitVec.ofNat 4 (positionOf c.tile).val, BitVec.ofNat 4 g.val, false, []⟩ ∧
      e.tag = g ∧ e.tile = c.tile ∧ e.owner = .autoSleep ∧ e.kind = .sleep ∧ e.issueTime = s.now ∧ e.phase = .awaiting ∧
      e.deadline = some (plusMs s.now s.settings.replyMs) ∧ (t.tile c.tile).armed = false ∧
      (t.tile c.tile).credits = (s.tile c.tile).credits + 1 ∧ (∀ u, u ≠ c.tile → t.tile u = s.tile u) ∧
      t.slots = s.slots ∧ t.wakeHistory = s.wakeHistory ∧ (∀ q, q ≠ p → t.port q = s.port q)) ∧
  ∀ (s : State) (p : PortId) (c : Cand) (i : SlotNum) (j : Job) (st : Step) (g : Tag), s.resetLow = false →
    (s.port p).transmitting = none → s.arbiterPick p = some c → c.slot = some i → s.job i = some j → j.step? = some st →
    (s.port p).freeTag = some g →
    ∃ t e k, exec (.packetIssue p) s = .next t ∧ (t.port p).inFlight = (s.port p).inFlight ++ [e] ∧
      (t.port p).transmitting = some k ∧ (t.port p).state = (s.port p).state ∧
      (t.port p).quarantined = (s.port p).quarantined ∧
      e.tag = g ∧ e.tile = c.tile ∧ e.owner = .job i j.current ∧ e.issueTime = s.now ∧ e.phase = .awaiting ∧
      e.kind = k.kind ∧ k.tag = BitVec.ofNat 4 g.val ∧ k.hop = BitVec.ofNat 4 (positionOf c.tile).val ∧
      (st.kind.isStream = false → e.kind = st.kind.packet ∧ k.onFrame = st.onFrame ∧ k.payload =
        (if st.kind = .invert then [st.x]
          else if st.kind = .window ∨ st.kind = .band then [st.x, st.y]
          else if st.kind = .rollArea then [st.x &&& 0xFFFF#32, st.y &&& 0xFFFF#32]
          else if st.kind = .rollTo then [st.x &&& 0xFFFF#32]
          else [])) ∧
      (st.kind = .get → e.kind = .pixRead) ∧
      (st.kind = .put →
        (s.ownStream i c.tile = none → e.kind = .pixStart) ∧
        (∀ r, s.ownStream i c.tile = some r → e.kind = if r.broken = true then .pixSeek else .pixMore)) ∧
      (st.kind.isStream = true → ∃ ctl ws, k.payload = ctl :: ws ∧ ctl.toNat / 2 ^ 27 = 0 ∧
        ctl.toNat % 2 ^ 17 = (if e.kind = .pixSeek ∨ e.kind = .pixRead then e.first / 128 % 2 ^ 17 else 0) ∧
        ctl.toNat / 2 ^ 17 % 2 ^ 9 = e.pixels % 2 ^ 9 ∧
        (ctl.toNat / 2 ^ 26 = 1 ↔ st.format = .rgb24) ∧
        (st.kind = .get → ws = []) ∧
        (st.kind = .put → ∀ q, j.part? c.tile = some q → q.staging = .staged ws)) ∧
      e.x = st.x ∧ e.y = st.y ∧ (st.kind.isStream = true → e.format = st.format) ∧
      (st.kind.isStream = true → k.onFrame = false ∧
        let sent := ((s.ownStream i c.tile).map (fun r => r.sent)).getD 0
        e.first = sent ∧ e.pixels = segmentPixels st.format st.pixelCount sent ∧
        ∃ r, (t.tile c.tile).stream = some r ∧ r.owner = i ∧ r.sent = sent + e.pixels ∧ r.broken = false) ∧
      e.deadline = some (plusMs s.now (s.settings.replyMs +
        (if k.onFrame then ((s.tile c.tile).geometry.map (fun g => g.framePeriod.toNat)).getD 0 else 0))) ∧
      (t.tile c.tile).credits = (s.tile c.tile).credits + 1 ∧
      (t.tile c.tile).configInFlight = ((s.tile c.tile).configInFlight || e.kind.isConfig) ∧
      (∀ u, u ≠ c.tile → t.tile u = s.tile u) ∧
      (st.kind.isStream = false → t.job i = some { j.setPart c.tile (fun q => { q with cond := .issued }) with
        outstanding := j.outstanding + 1 }) ∧
      (st.kind.isStream = true →
        let more := ((s.ownStream i c.tile).map (fun r => r.sent)).getD 0 + e.pixels < st.pixelCount
        t.job i = some { j.setPart c.tile (fun q =>
            if q.cond ≠ .candidate then q
            else if more then { q with staging := if st.kind = .put then .reading else .empty }
            else { q with cond := .issued, staging := .empty }) with
          outstanding := j.outstanding + 1 }) ∧
      (st.kind.isStream = false → ∀ r, (s.tile c.tile).stream = some r →
        (r.kind = .put → r.owner ≠ i → (t.tile c.tile).stream = some { r with broken := true }) ∧
        (r.kind = .get ∨ r.owner = i → (t.tile c.tile).stream = some r)) ∧
      (∀ k m, k ≠ i → s.job k = some m →
        (st.kind = .wake → s.WantsWake k c.tile →
          t.job k = some (m.setPart c.tile (fun q => { q with cond := .waiting }))) ∧
        (st.kind ≠ .wake ∨ ¬ s.WantsWake k c.tile → t.job k = some m)) ∧
      t.wakeHistory = (if st.kind = .wake then s.wakeHistory ++ [s.now] else s.wakeHistory) ∧
      (∀ q, q ≠ p → t.port q = s.port q) ∧ t.engine = s.engine ∧ t.settings = s.settings

/-- TRANSMISSION_END: the transmitter is free, and nothing else of port, tile or job changes (R82). STAGING_READ_DONE: the
segment's words are staged; a bus error fails the tile part with BUS_ERROR, and with it the job of a step that is not
TOLERANT; a read whose staging has stopped ends without effect (R16, R35, R36, R109). Of a slot's reads for one tile the first
begun is the one that ended (the model's choice, log 35). What the failure does is said of a state between two events
(`Quiet`). -/
def Obligations.TransmissionsAndStagingReadsEnd : Prop :=
  (∀ (s : State) (p : PortId) (k : Packet), s.resetLow = false → (s.port p).transmitting = some k →
      ∃ t, exec (.transmissionEnd p) s = .next t ∧ t.port p = { s.port p with transmitting := none } ∧
        (∀ q, q ≠ p → t.port q = s.port q) ∧ t.tiles = s.tiles ∧ t.slots = s.slots ∧ t.engine = s.engine ∧
        t.walkerN = s.walkerN ∧ t.walkerP = s.walkerP ∧ t.notice = s.notice ∧ t.wakeHistory = s.wakeHistory) ∧
  (∀ (s : State) (i : SlotNum) (x : TileNum) (r : ReadResult), s.resetLow = false →
      s.accessCut (.staging i x) = false → (∃ v ∈ s.stoppedReads, v.slot = i ∧ v.tile = x) →
      exec (.stagingReadDone i x r) s = .next
        { s with stoppedReads := s.stoppedReads.eraseP (fun v => decide (v.slot = i) && decide (v.tile = x)) }) ∧
  (∀ (s : State) (i : SlotNum) (x : TileNum) (j : Job) (st : Step) (q : TilePart), s.resetLow = false →
      s.accessCut (.staging i x) = false → (∀ v ∈ s.stoppedReads, ¬ (v.slot = i ∧ v.tile = x)) →
      s.job i = some j → j.step? = some st → j.part? x = some q → q.staging = .reading →
      (∀ bs, exec (.stagingReadDone i x (.bytes bs)) s = .next (s.setSlot i (.job (j.setPart x (fun q =>
        if q.staging = .reading then { q with staging := .staged (wordsAt bs 0 (s.nextSegmentWords i x st)) } else q))))) ∧
      (∃ t, exec (.stagingReadDone i x .busError) s = .next t ∧ EventFrame (s.failPart i x .busError) t ∧
        (q.cond.hasFailed = false → ((s.failPart i x .busError).tile x).lastError = some .busError ∧
          ∃ j' q', (s.failPart i x .busError).job i = some j' ∧ j'.part? x = some q' ∧ q'.cond = .failing .busError ∧
            q'.staging = .empty) ∧
        (q.cond.hasFailed = false → j.phase = .running → Quiet s →
          (st.tolerant = false → (t.tile x).lastError = some .busError ∧ (∀ k, k ≠ i → t.slot k = s.slot k) ∧
            ∃ j', t.job i = some j' ∧ j'.phase = .draining ∧ j'.firstFailure = some ⟨.busError, j.current, some x⟩ ∧
              j'.stepsDone = j.stepsDone ∧ ∀ q' ∈ j'.parts, q'.staging = .empty) ∧
          (st.tolerant = true → (s.Undisturbed x (some i) → (t.tile x).lastError = some .busError) ∧
            ∃ j', t.job i = some j' ∧ min 255 (j.tolerated + 1) ≤ j'.tolerated))))

/-- SLEEP_GATE_OPEN and READY_GATE_OPEN: an interval that has passed leaves its gate open; the gate then stays open (R74, R76,
R95). -/
def Obligations.GatesOpen : Prop :=
  ∀ (s : State) (x : TileNum), s.resetLow = false →
    (s.minAwakePassed x = true ∨ s.holdPassed x = true →
      exec (.sleepGateOpen x) s = .next (s.setTile x { s.tile x with
        minAwakeOpen := (s.tile x).minAwakeOpen || s.minAwakePassed x,
        holdOpen := (s.tile x).holdOpen || s.holdPassed x })) ∧
    (∀ due, (s.tile x).readyDue = some due → reached s.now due = true →
      exec (.readyGateOpen x) s = .next (s.setTile x { s.tile x with readyOpen := true })) ∧
    ((s.tile x).minAwakeOpen = true → s.minAwakeGate x = true) ∧
    ((s.tile x).holdOpen = true → s.holdGate x = true) ∧
    ((s.tile x).readyOpen = true → (s.tile x).readyDue ≠ none → s.readyGate x = true)

/-! ## Time and power (R87 to R97, R177) -/

/-- TIMEBASE_TICK: the counter rises by one modulo 2^32, the held WAKE_WINDOW_MS ages the history from here on, and the wake
waiting list is examined: with the budget open the highest-ranked WAKE that can go now is presented, and nothing otherwise
(R87 to R89, R177). WAKE_HISTORY_AGE_OUT: the oldest entry leaves once now − WAKE_WINDOW_MS has reached it, and the list is
examined (R87, R89). -/
def Obligations.TicksAdvance : Prop :=
  (∀ s : State, s.resetLow = false →
      ∃ t, exec .timebaseTick s = .next t ∧
        ({ t with wakePresented := none } : State) =
          { s with now := s.now + 1, historyWindowMs := s.settings.wakeWindowMs, wakePresented := none } ∧
        Examined t t.wakePresented ∧
        (∀ x, t.wakePresented = some x → s.wakeHistory.length < s.settings.wakeLimit ∧
          (∀ m, s.wakeHistory.getLast? = some m → s.settings.wakeGapMs ≤ (s.now + 1 - m).toNat) ∧
          (t.port (portOf x)).transmitting = none ∧ (t.port (portOf x)).state = .up ∧ (t.tile x).credits < 4)) ∧
  (∀ (s : State) (m : Word) (rest : List Word), s.resetLow = false → s.wakeHistory = m :: rest →
      (s.historyWindowMs ≤ (s.now - m).toNat →
        ∃ t, exec .wakeHistoryAgeOut s = .next t ∧ t.wakeHistory = rest ∧ Examined t t.wakePresented ∧
          ({ t with wakePresented := none, wakeHistory := [] } : State) =
            { s with wakePresented := none, wakeHistory := [] }) ∧
      ((s.now - m).toNat < s.historyWindowMs → exec .wakeHistoryAgeOut s = .next s))

/-- SETTLE_TIMER_EXPIRY and REST_TIMER_EXPIRY: WAKING becomes AWAKE, DOZING becomes ASLEEP with its power marks absent, and no
other tile, port or walker is touched; while the tile's port enumerates and its position has not answered, neither acts (R96,
R97, R12, R135). With no power packet in flight to the tile, in a state between two events (`Quiet`), a joined WAKE part
completes at AWAKE, a waiting part of another kind whose operands fit becomes a candidate, and one that waited for ASLEEP
becomes a candidate there, a WAKE one on the wake waiting list (R32, R33, R88, R94, R96, R97). -/
def Obligations.PowerTimersExpire : Prop :=
  ∀ (s : State) (x : TileNum) (due : Word), s.resetLow = false →
    let free := (s.port (portOf x)).state ≠ .enumerating ∨ (s.port (portOf x)).answered (positionOf x) = true
    (¬ free → exec (.settleTimerExpiry x) s = .next s ∧ exec (.restTimerExpiry x) s = .next s) ∧
    (free → reached s.now due = true → (s.tile x).state = .waking → (s.tile x).settleDue = some due →
      ∃ t, exec (.settleTimerExpiry x) s = .next t ∧ (t.tile x).state = .awake ∧ (t.tile x).changedAt = s.now ∧
        (t.tile x).readyDue = (s.tile x).readyDue ∧ (t.tile x).shown = (s.tile x).shown ∧
        (Quiet s → s.powerInFlight x = false → ∀ i j st q, s.job i = some j → j.phase = .running → j.step? = some st →
          j.part? x = some q →
          (st.kind = .wake → q.cond = .joined ∨ q.cond = .waiting → PartLeaves s t i x 0) ∧
          (st.kind.isEngine = false → st.kind ≠ .wake → q.cond = .waiting → OperandsFit (s.tile x) st →
            t.job i = some (j.setPart x (fun q =>
              { q with cond := .candidate, staging := if st.kind = .put then .reading else .empty })))) ∧
        (∀ u, u ≠ x → (t.tile u).eraseWork = (s.tile u).eraseWork) ∧ t.port = s.port ∧ t.engine = s.engine ∧
        t.walkerN = s.walkerN ∧ t.walkerP = s.walkerP) ∧
    (free → reached s.now due = true → (s.tile x).state = .dozing → (s.tile x).restDue = some due →
      s.now ≠ (s.tile x).changedAt →
      ∃ t, exec (.restTimerExpiry x) s = .next t ∧ (t.tile x).state = .asleep ∧ (t.tile x).changedAt = s.now ∧
        (t.tile x).wakeAck = none ∧ (t.tile x).settleDue = none ∧ (t.tile x).readyDue = none ∧
        (t.tile x).restDue = none ∧ (t.tile x).lastPixelAck = (s.tile x).lastPixelAck ∧
        (Quiet s → s.powerInFlight x = false → ∀ i j st q, s.job i = some j → j.phase = .running → j.step? = some st →
          j.part? x = some q → q.cond = .waiting → OperandsFit (s.tile x) st → st.kind.isEngine = false →
          st.kind ≠ .sleep → st.kind.isStream = false →
          t.job i = some (j.setPart x (fun q => { q with cond := .candidate, staging := .empty })) ∧
          (st.kind = .wake → t.WantsWake i x)) ∧
        (∀ u, u ≠ x → (t.tile u).eraseWork = (s.tile u).eraseWork) ∧ t.port = s.port ∧ t.engine = s.engine ∧
        t.walkerN = s.walkerN ∧ t.walkerP = s.walkerP)

/-! ## Events (R161 to R168) -/

/-- An occurrence reaches every WAIT in the list for its source, which leaves the list with its step over, and each sync
output that selects it while the engine is RUNNING or STOPPING (R161, R163, R168). FRAME_NOTICE: an occurrence of FRAME for a
present tile of an UP port, and of no other; in a state between two events (`Quiet`) every WAIT that listened for it
completes, and a slot with no WAIT in the list stays as it is (R160, R161, R163). -/
def Obligations.OccurrencesDelivered : Prop :=
  (∀ (s : State) (src : EventSource),
      (s.occur src).waitList = s.waitList.filter (fun w => decide (w.source ≠ src)) ∧
      (s.occur src).sync0 = (s.sync0 || ((decide (s.engine = .running) || decide (s.engine = .stopping)) &&
        decide (s.settings.sync0 = some src))) ∧
      (s.occur src).sync1 = (s.sync1 || ((decide (s.engine = .running) || decide (s.engine = .stopping)) &&
        decide (s.settings.sync1 = some src))) ∧
      (∀ i j, s.job i = some j → (s.occur src).job i = some { j with
        engineDone := j.engineDone || (j.atEngineStep &&
          s.waitList.any (fun w => decide (w.slot = i) && decide (w.source = src))) }) ∧
      (s.occur src).tiles = s.tiles ∧ (s.occur src).port = s.port) ∧
  (∀ (s : State) (p : PortId) (d : Position), s.resetLow = false →
      ((s.port p).state = .up → (s.tile (tileOf p d)).state.present = true →
        ∃ t, exec (.frameNotice p d) s = .next t ∧ EventFrame (s.occur (.frame (tileOf p d))) t ∧
          (Quiet s → Delivered s t (.frame (tileOf p d))) ∧
          (∀ x, (t.tile x).eraseWork = (s.tile x).eraseWork) ∧ t.port = s.port) ∧
      ((s.port p).state ≠ .up ∨ (s.tile (tileOf p d)).state.present = false → exec (.frameNotice p d) s = .next s))

/-- TRIG_PIN_CHANGE, TRIG_FILTER_EXPIRY and SYNC_PULSE_EXPIRY: the filtered level follows a level held for 4 µs, its rise is
an occurrence that completes every WAIT listening for it, its fall and its first level are none, and a pulse ends (R161 to
R163, R168). The WAITs' completion is said of a state between two events (`Quiet`). -/
def Obligations.PinsFollowed : Prop :=
  ∀ (s : State) (i : Line), s.resetLow = false →
    (∀ l, (s.trig i).pin ≠ l → exec (.trigPinChange i l) s = .next (s.setTrig i { s.trig i with pin := l, running := true })) ∧
    ((s.trig i).running = true →
      ((s.trig i).level = some false → (s.trig i).pin = true →
        ∃ t, exec (.trigFilterExpiry i) s = .next t ∧ t.trig i = ⟨true, some true, false⟩ ∧
          EventFrame ((s.setTrig i ⟨true, some true, false⟩).occur (.trig i)) t ∧ (Quiet s → Delivered s t (.trig i)) ∧
          (∀ x, (t.tile x).eraseWork = (s.tile x).eraseWork) ∧ t.port = s.port) ∧
      (¬ ((s.trig i).level = some false ∧ (s.trig i).pin = true) →
        exec (.trigFilterExpiry i) s = .next (s.setTrig i ⟨(s.trig i).pin, some (s.trig i).pin, false⟩))) ∧
    exec (.syncPulseExpiry i) s = .next (match i with
      | .zero => { s with sync0 := false }
      | .one => { s with sync1 := false })

/-- WAIT_TIMEOUT and PAUSE_EXPIRY: a WAIT without PASS fails its job with WAIT_TIMEOUT and failing tile 255, a WAIT with PASS
and a PAUSE complete: steps done rises, the WAIT or the PAUSE timer is gone, and only the step that then is current may have
one again (R36, R37, R164, R166). The premise is a state between two events (`Quiet`) and a job that stands at that step. -/
def Obligations.WaitsAndPausesEnd : Prop :=
  ∀ (s : State) (i : SlotNum) (j : Job) (st : Step), s.resetLow = false → s.job i = some j →
    j.phase = .running → j.step? = some st → Quiet s →
    (∀ w, w ∈ s.waitList → w.slot = i → reached s.now w.due = true → st.kind = .wait →
      (st.pass = false → ∃ t j', exec (.waitTimeout i) s = .next t ∧ t.job i = some j' ∧ j'.phase = .draining ∧
        j'.firstFailure = some ⟨.waitTimeout, j.current, none⟩ ∧ j'.stepsDone = j.stepsDone ∧
        t.waitList = s.waitList.filter (fun v => decide (v.slot ≠ i)) ∧ (∀ k, k ≠ i → t.slot k = s.slot k) ∧
        t.port = s.port) ∧
      (st.pass = true → ∃ t u j', exec (.waitTimeout i) s = .next t ∧ EventFrame u t ∧
        u.waitList = s.waitList.filter (fun v => decide (v.slot ≠ i)) ∧ u.job i = some { j with engineDone := true } ∧
        u.tiles = s.tiles ∧ u.port = s.port ∧ t.job i = some j' ∧ j.stepsDone < j'.stepsDone ∧
        (j'.phase = .running → j.current < j'.current) ∧
        ∀ v ∈ t.waitList, v.slot = i → j'.phase = .running ∧
          ∃ st', j'.step? = some st' ∧ st'.kind = .wait ∧ v.due = plusMs s.now (st'.y.toNat % 2 ^ 16))) ∧
    (∀ due, j.pauseDue = some due → reached s.now due = true → st.kind = .pause →
      ∃ t u j', exec (.pauseExpiry i) s = .next t ∧ EventFrame u t ∧
        u.job i = some { j with pauseDue := none, engineDone := true } ∧ u.tiles = s.tiles ∧ u.port = s.port ∧
        t.job i = some j' ∧ j.stepsDone < j'.stepsDone ∧ (j'.phase = .running → j.current < j'.current) ∧
        ∀ due', j'.pauseDue = some due' → j'.phase = .running ∧
          ∃ st', j'.step? = some st' ∧ st'.kind = .pause ∧ due' = plusMs s.now (st'.x.toNat % 2 ^ 16))

/-! ## The chain link (R131 to R146) -/

/-- ENUMERATE in OFF and HALTED: DOWN and FAILED ports train, an UP port ends its transactions and sends the chain reset, a
port in bring-up goes on; the engine state does not change (R132, R135, R145, R170). Both locks are clear at the start of
training, and the chain reset replaces a packet still on the line (the model's choices, logs 21, 22). A transaction that ends
sets its tile's last error to LINK_LOST, an auto-sleep's too, in a state between two events (`Quiet`; R16, R101). -/
def Obligations.EnumerateTaken : Prop :=
  ∀ s : State, s.resetLow = false → s.engine.isOffOrHalted = true →
    ∃ t, exec .enumerate s = .next t ∧ t.engine = s.engine ∧ t.fault = s.fault ∧ t.settings = s.settings ∧ t.now = s.now ∧
      ∀ p,
        ((s.port p).state = .down ∨ (s.port p).state = .failed →
          t.port p = { s.port p with
            state := .training, attempt := 1, attemptDue := some (plusMs s.now 50), rxLock := false,
            tileLock := false, waitDue := none, probing := none } ∧ t.notice.port = true) ∧
        ((s.port p).state = .training ∨ (s.port p).state = .enumerating → t.port p = s.port p) ∧
        ((s.port p).state = .up →
          (t.port p).state = .enumerating ∧ (t.port p).inFlight = [] ∧ (t.port p).waitDue = some (plusMs s.now 10) ∧
          (t.port p).transmitting = some ⟨.reset, 15, 0, false, []⟩ ∧ t.notice.port = true ∧
          ∀ e ∈ (s.port p).inFlight, (t.port p).quarantined.getLsbD e.tag.val = true ∧
            (t.tile e.tile).credits = 0 ∧ (t.tile e.tile).configInFlight = false ∧
            (Quiet s → (e.owner = .autoSleep ∨ ∃ i n j q, e.owner = .job i n ∧ s.job i = some j ∧
              j.part? e.tile = some q ∧ q.cond.hasFailed = false) → (t.tile e.tile).lastError = some .linkLost))

/-- RECEIVER_LOCK and TILE_LOCK: the first of the two locks is noted, the second ends training at its event; a DOWN or FAILED
port ignores both (R131, R132, R135). Locks noted in ENUMERATING and UP, and the packet replaced, are the model's choices
(logs 21, 22). -/
def Obligations.LocksGained : Prop :=
  ∀ (s : State) (p : PortId), s.resetLow = false →
    ((s.port p).state = .training →
      ((s.port p).tileLock = false →
        exec (.receiverLock p) s = .next (s.setPort p { s.port p with rxLock := true })) ∧
      ((s.port p).rxLock = false →
        exec (.tileLock p) s = .next (s.setPort p { s.port p with tileLock := true })) ∧
      (∀ c, (c = .receiverLock p ∧ (s.port p).tileLock = true) ∨ (c = .tileLock p ∧ (s.port p).rxLock = true) →
        ∃ t, exec c s = .next t ∧ (t.port p).state = .enumerating ∧ (t.port p).inFlight = [] ∧
          (t.port p).attemptDue = none ∧ (t.port p).waitDue = some (plusMs s.now 10) ∧
          (t.port p).transmitting = some ⟨.reset, 15, 0, false, []⟩ ∧ t.notice.port = true ∧
          (∀ q, q ≠ p → t.port q = s.port q) ∧ t.engine = s.engine)) ∧
    ((s.port p).state = .enumerating ∨ (s.port p).state = .up →
      exec (.receiverLock p) s = .next (s.setPort p { s.port p with rxLock := true }) ∧
      exec (.tileLock p) s = .next (s.setPort p { s.port p with tileLock := true })) ∧
    ((s.port p).state = .down ∨ (s.port p).state = .failed →
      exec (.receiverLock p) s = .next s ∧ exec (.tileLock p) s = .next s)

/-- A failed training attempt, by ATTEMPT_TIMER_EXPIRY or by HARD_ERROR in TRAINING: the next attempt, or after attempt 3 the
port FAILED with all its positions ABSENT (R132, R134, R144). That a hard error needs receiver lock in TRAINING is the model's
choice of form (log 22). -/
def Obligations.AttemptsFail : Prop :=
  ∀ (s : State) (p : PortId) (c : Instr), s.resetLow = false → (s.port p).state = .training →
    ((∃ due, c = .attemptTimerExpiry p ∧ (s.port p).attemptDue = some due ∧ reached s.now due = true) ∨
      (c = .hardError p ∧ (s.port p).rxLock = true)) →
    ∃ t, exec c s = .next t ∧ (∀ q, q ≠ p → t.port q = s.port q) ∧ t.engine = s.engine ∧
      ((s.port p).attempt < 3 → (t.port p).state = .training ∧ (t.port p).attempt = (s.port p).attempt + 1 ∧
        (t.port p).attemptDue = some (plusMs s.now 50) ∧ t.notice.port = s.notice.port ∧
        ∀ x, (t.tile x).state = (s.tile x).state) ∧
      (3 ≤ (s.port p).attempt → (t.port p).state = .failed ∧ (t.port p).attemptDue = none ∧ t.notice.port = true ∧
        (t.port p).quarantined = (s.port p).quarantined ∧
        (∀ d, (t.tile (tileOf p d)).state = .absent ∧ (t.tile (tileOf p d)).identity = none ∧
          (t.tile (tileOf p d)).geometry = none ∧ (t.tile (tileOf p d)).window = none) ∧
        (∀ q d, q ≠ p → (t.tile (tileOf q d)).state = (s.tile (tileOf q d)).state))

/-- HARD_ERROR in UP and ENUMERATING: the transmission is cut, every entry ends with its tag quarantined, every present tile
of the port is LOST, and the port trains afresh; the other port is not touched (R143, R144). A destination write under way
runs on (R147). A tile whose own part or auto-sleep had a packet in flight takes LINK_LOST as its last error (R16, R101). DOWN
and FAILED ports, and an attempt that holds no lock, ignore it. A job's outstanding count falls by one for each of its
entries, and in a state between two events (`Quiet`) a job whose step is not TOLERANT drains with LINK_LOST when the lowest of
its tiles on the port had a packet of its own in flight (R34, R36, R143). The receiver's lock is clear at the start of
training (the model's choice, log 22). The premise on the tiles of the entries is an invariant stated above. -/
def Obligations.HardErrorCutsThePort : Prop :=
  ∀ (s : State) (p : PortId), s.resetLow = false →
    ((s.port p).state = .up ∨ (s.port p).state = .enumerating →
      ∃ t, exec (.hardError p) s = .next t ∧ (t.port p).state = .training ∧ (t.port p).attempt = 1 ∧
        (t.port p).attemptDue = some (plusMs s.now 50) ∧ (t.port p).waitDue = none ∧ (t.port p).probing = none ∧
        (t.port p).inFlight = [] ∧ (t.port p).transmitting = none ∧ (t.port p).rxLock = false ∧ t.notice.port = true ∧
        (∀ e ∈ (s.port p).inFlight, (t.port p).quarantined.getLsbD e.tag.val = true ∧
          (t.tile e.tile).credits = 0 ∧ (t.tile e.tile).configInFlight = false) ∧
        (∀ e w, e ∈ (s.port p).inFlight → e.phase = .writing w → ⟨e.tag, w⟩ ∈ (t.port p).cutWrites) ∧
        (∀ d, (s.tile (tileOf p d)).state.present = true → (t.tile (tileOf p d)).state = .lost ∧
          (t.tile (tileOf p d)).identity = (s.tile (tileOf p d)).identity ∧
          (t.tile (tileOf p d)).window = (s.tile (tileOf p d)).window) ∧
        (∀ d, (s.tile (tileOf p d)).state.present = false →
          (t.tile (tileOf p d)).state = (s.tile (tileOf p d)).state) ∧
        (∀ q, q ≠ p → t.port q = s.port q ∧ ∀ d, (t.tile (tileOf q d)).state = (s.tile (tileOf q d)).state) ∧
        (Quiet s → ∀ e ∈ (s.port p).inFlight, portOf e.tile = p → s.Undisturbed e.tile e.owner.slot? →
          (e.owner = .autoSleep ∨ ∃ i n j q, e.owner = .job i n ∧ s.job i = some j ∧ j.part? e.tile = some q ∧
            q.cond.hasFailed = false) → (t.tile e.tile).lastError = some .linkLost) ∧
        (s.fatal = false → ∀ i j, s.job i = some j → ∃ j', t.job i = some j' ∧ j'.outstanding = j.outstanding -
          ((s.port p).inFlight.filter (fun e => decide (e.owner.slot? = some i))).length) ∧
        (Quiet s → (∀ e ∈ (s.port p).inFlight, portOf e.tile = p) → ∀ i j st q, s.job i = some j → j.phase = .running →
          j.step? = some st → st.tolerant = false → j.part? q.tile = some q → q.cond.hasFailed = false →
          (∃ e ∈ (s.port p).inFlight, e.tile = q.tile ∧ e.owner.slot? = some i) →
          (∀ q' ∈ j.parts, portOf q'.tile = p → q'.cond.hasFailed = false → q.tile ≤ q'.tile) →
          PartFails s t i q.tile .linkLost) ∧
        t.wakeHistory = s.wakeHistory ∧ t.engine = s.engine) ∧
    ((s.port p).state = .down ∨ (s.port p).state = .failed ∨ ((s.port p).state = .training ∧ (s.port p).rxLock = false) →
      exec (.hardError p) s = .next s)

/-- CHAIN_RESET_WAIT_EXPIRY: the quarantined tags are released, the entries of all 12 positions take the chain-reset values,
and position 0 is probed with the lowest free tag (R15, R135, R137). The probe takes the transmitter whatever it carries (read
from R135 and R137, log 21). That the last error ends absent is said of a state between two events (`Quiet`). -/
def Obligations.ChainResetWaitEnds : Prop :=
  ∀ (s : State) (p : PortId) (due : Word) (g : Tag), s.resetLow = false → (s.port p).state = .enumerating →
    (s.port p).waitDue = some due → reached s.now due = true →
    (∀ e ∈ (s.port p).inFlight, e.tag ≠ g) → (∀ k < g, ∃ e ∈ (s.port p).inFlight, e.tag = k) →
    ∃ t e, exec (.chainResetWaitExpiry p) s = .next t ∧ (t.port p).quarantined = 0 ∧ (t.port p).waitDue = none ∧
      (t.port p).probing = some 0 ∧ (t.port p).inFlight = (s.port p).inFlight ++ [e] ∧ e.tag = g ∧ e.tile = tileOf p 0 ∧
      e.owner = .enumeration ∧ e.kind = .probe ∧ e.issueTime = s.now ∧
      e.deadline = some (plusMs s.now s.settings.replyMs) ∧
      (t.port p).transmitting = some ⟨.probe, 0, BitVec.ofNat 4 g.val, false, []⟩ ∧
      (∀ d, (t.tile (tileOf p d)).shown = some false ∧ (t.tile (tileOf p d)).inverted = some false ∧
        (t.tile (tileOf p d)).band = some ⟨false, none⟩ ∧ (t.tile (tileOf p d)).window = none ∧
        (t.tile (tileOf p d)).roll = none ∧ (t.tile (tileOf p d)).wakeAck = none ∧
        (t.tile (tileOf p d)).settleDue = none ∧ (t.tile (tileOf p d)).readyDue = none ∧
        (t.tile (tileOf p d)).restDue = none ∧ (t.tile (tileOf p d)).lastFault = 0 ∧
        (t.tile (tileOf p d)).lastPixelAck = (s.tile (tileOf p d)).lastPixelAck ∧
        (t.tile (tileOf p d)).state = (s.tile (tileOf p d)).state ∧
        (Quiet s → (t.tile (tileOf p d)).lastError = none)) ∧
      (∀ q, q ≠ p → t.port q = s.port q) ∧ t.engine = s.engine

/-- A silent position: by PROBE_DEADLINE_EXPIRY with the tag quarantined, by an ACK or by DATA of the wrong length with the
tag freed and TILE_REJECT as the tile's last error (R137, R138, R150). -/
def Obligations.SilentPositions : Prop :=
  ∀ (s : State) (p : PortId) (d : Position) (e : Entry), s.resetLow = false → (s.port p).state = .enumerating →
    (s.port p).probing = some d →
    ((s.port p).inFlight.find? (fun e => decide (e.owner = .enumeration) && reachedOpt s.now e.deadline) = some e →
      ∃ t, exec (.probeDeadlineExpiry p) s = .next t ∧ SilentFrom s t p d ∧
        (t.port p).quarantined.getLsbD e.tag.val = true ∧
        (t.port p).inFlight = (s.port p).inFlight.filter (fun f => decide (f.tag ≠ e.tag))) ∧
    (∀ tag st ws, (s.port p).matching tag (tileOf p d) = some e → e.kind = .probe → ws.length ≠ 6 →
      ∀ c, c = .ackReceived p d tag st ∨ c = .dataReceived p d tag ws →
      ∃ t, exec c s = .next t ∧ SilentFrom s t p d ∧ (t.port p).quarantined = (s.port p).quarantined ∧
        (t.tile e.tile).lastError = some .tileReject ∧
        (t.port p).inFlight = (s.port p).inFlight.filter (fun f => decide (f.tag ≠ e.tag)))

/-- A probe answered with an identity: ASLEEP with the chain-reset defaults of its geometry, or FAULTED when the geometry is
out of range; then the next position is probed, or after position 11 the port is UP (R15, R137). The last error is absent, or
BAD_IDENTITY (R16), where no running work can fail on the tile at the same event. The claim on the next probe
is made for a port with nothing else in flight and no tag quarantined. -/
def Obligations.ProbesAnswered : Prop :=
  ∀ (s : State) (p : PortId) (d : Position) (tag : Tag) (e : Entry) (ws : List Word), s.resetLow = false →
    (s.port p).state = .enumerating → (s.port p).probing = some d → (s.port p).matching tag (tileOf p d) = some e →
    e.kind = .probe → ws.length = 6 →
    let w := lowHalf (ws.getD 4 0)
    let h := lowHalf (ws.getD 5 0)
    let f := lowHalf (ws.getD 3 0)
    let ok := 8 ≤ w.toNat ∧ w.toNat ≤ 1024 ∧ 8 ≤ h.toNat ∧ h.toNat ≤ 1024 ∧ 5 ≤ f.toNat ∧ f.toNat ≤ 100
    ∃ t, exec (.dataReceived p d tag ws) s = .next t ∧
      (t.tile (tileOf p d)).identity =
        some ⟨lowHalf (ws.getD 0 0), lowHalf (ws.getD 1 0), lowHalf (ws.getD 2 0)⟩ ∧
      (t.tile (tileOf p d)).geometry = some ⟨w, h, f⟩ ∧ (t.tile (tileOf p d)).changedAt = s.now ∧
      (t.tile (tileOf p d)).lastFault = 0 ∧
      (ok → (t.tile (tileOf p d)).state = .asleep ∧ (t.tile (tileOf p d)).window = some ⟨0, w - 1, 0, h - 1⟩ ∧
        (t.tile (tileOf p d)).roll = some ⟨0, h, 0⟩ ∧
        (t.tile (tileOf p d)).band = some ⟨((s.tile (tileOf p d)).band.map (fun b => b.band)).getD false, some (0, h - 1)⟩) ∧
      (Quiet s → s.Undisturbed (tileOf p d) none →
        (t.tile (tileOf p d)).lastError = if ok then none else some .badIdentity) ∧
      (¬ ok → (t.tile (tileOf p d)).state = .faulted ∧
        (t.tile (tileOf p d)).window = (s.tile (tileOf p d)).window ∧
        (t.tile (tileOf p d)).roll = (s.tile (tileOf p d)).roll) ∧
      (d.val < 11 → (s.port p).inFlight = [e] → (s.port p).quarantined = 0 → (t.port p).state = .enumerating ∧
        (∃ k e', (t.port p).probing = some k ∧ k.val = d.val + 1 ∧ (t.port p).inFlight = [e'] ∧ e'.tag = 0 ∧
          e'.kind = .probe ∧ e'.tile = tileOf p k ∧ e'.deadline = some (plusMs s.now s.settings.replyMs))) ∧
      (d.val = 11 → (t.port p).state = .up ∧ (t.port p).probing = none ∧ t.notice.port = true)

/-- LINK_ERROR_PACKET: while the port takes packets, one with a framing or a soft error raises LINKERR and touches nothing
else (R142). A reply matches the entry that holds its tag, where that entry's tile is the tile at its distance, and no other;
one that matches no entry is discarded: no entry, tag, credit, mirror or state changes, and only a present tile that has
answered takes STRAY_REPLY, and no job changes, in a state between two events (`Quiet`; R16, R149). By which order of bits a
CRC is compared with its field is the model's choice (log 44). -/
def Obligations.FaultyAndStrayPackets : Prop :=
  (∀ (s : State) (p : PortId) (bs : List Byte), s.resetLow = false →
      ((s.port p).receives = true → judgeUpstream bs = .framingError ∨ judgeUpstream bs = .softError →
        exec (.linkErrorPacket p bs) s = .next { s with notice := { s.notice with linkErr := true } }) ∧
      ((s.port p).receives = false → exec (.linkErrorPacket p bs) s = .next s) ∧
      ((s.port p).receives = true ↔
        (s.port p).state = .up ∨ ((s.port p).state = .enumerating ∧ (s.port p).probing ≠ none))) ∧
  (∀ (v : Port) (tag : Tag) (x : TileNum),
      (v.matching tag x = none ↔ ∀ e ∈ v.inFlight, ¬ (e.tag = tag ∧ e.tile = x)) ∧
      ∀ e, v.matching tag x = some e → e ∈ v.inFlight ∧ e.tag = tag ∧ e.tile = x) ∧
  (∀ (s : State) (p : PortId) (d : Position) (tag : Tag) (st : AckStatus) (ws : List Word) (c : Instr),
      s.resetLow = false → (s.port p).receives = true → (s.port p).matching tag (tileOf p d) = none →
      c = .ackReceived p d tag st ∨ c = .dataReceived p d tag ws →
      ∃ t, exec c s = .next t ∧ t.port = s.port ∧ (∀ x, (t.tile x).eraseWork = (s.tile x).eraseWork) ∧
        EventFrame (if (s.tile (tileOf p d)).state.present = true ∧ (s.port p).answered d = true
          then s.setTile (tileOf p d) { s.tile (tileOf p d) with lastError := some .strayReply } else s) t ∧
        (Quiet s → t.slots = s.slots ∧ t.waitList = s.waitList ∧
          (∀ x, x ≠ tileOf p d → (t.tile x).lastError = (s.tile x).lastError) ∧
          (t.tile (tileOf p d)).lastError =
            if (s.tile (tileOf p d)).state.present = true ∧ (s.port p).answered d = true then some .strayReply
            else (s.tile (tileOf p d)).lastError))

/-! ## Replies, timeouts and tile notices (R147 to R160) -/

/-- ACK_RECEIVED ends its transaction; a REJECT leaves state, mirrors and timing marks as they were, and the tile's last error
is TILE_REJECT where nothing else can fail on the tile at the same event (R16, R85, R149, R151). Of an entry in WRITING the
destination write runs to its end, without a use (R147; that a further reply is one of the causes R147 speaks of is the
model's choice, log 16). In a state between two events (`Quiet`), with the owner's tile part one of the entry's kind
(`OwnPartSound`): success of a kind other than WAKE and the pixel packets takes the part off the pending tile parts, and the
job goes on with the last; a WAKE's part is joined, with no other power packet in flight; a REJECT, or an ACK where data was
asked for, fails the part with TILE_REJECT; and a part that had failed leaves with its last transaction (R33 to R37, R92,
R150, R151). The premise on the tags is an invariant stated above. -/
def Obligations.AcksEndTransactions : Prop :=
  ∀ (s : State) (p : PortId) (d : Position) (tag : Tag) (st : AckStatus) (e : Entry), s.resetLow = false →
    ((s.port p).inFlight.map (fun e => e.tag)).Nodup →
    (s.port p).receives = true → (s.port p).matching tag (tileOf p d) = some e → e.kind ≠ .probe →
    ∃ t, exec (.ackReceived p d tag st) s = .next t ∧ TransactionEnded s t p e e.writeUnderWay ∧
      (st = .reject →
        ({ (t.tile e.tile).eraseWork with credits := 0, configInFlight := false } : TileEntry) =
          { (s.tile e.tile).eraseWork with credits := 0, configInFlight := false }) ∧
      (st = .reject ∨ e.kind.wantsData = true → Quiet s → s.Undisturbed e.tile e.owner.slot? → s.OwnPartSound e →
        (t.tile e.tile).lastError = some .tileReject) ∧
      (Quiet s → s.OwnPartSound e → ∀ i j q, e.owner.slot? = some i → s.job i = some j → j.part? e.tile = some q →
        (st ≠ .reject → e.kind.wantsData = false → e.kind.isPixelWrite = false → e.kind ≠ .wake → q.cond.hasFailed = false →
          PartLeaves s t i e.tile 1) ∧
        (st ≠ .reject → e.kind = .wake → (s.tile e.tile).state = .asleep → j.phase = .running → q.cond.hasFailed = false →
          (∀ f ∈ (s.port p).inFlight, f.tag ≠ e.tag → f.tile = e.tile → f.kind ≠ .wake ∧ f.kind ≠ .sleep) →
          t.job i = some { j.setPart e.tile (fun q => { q with cond := .joined, staging := .empty }) with
            outstanding := j.outstanding - 1 }) ∧
        (st = .reject ∨ e.kind.wantsData = true → PartFails s t i e.tile .tileReject)) ∧
      (Quiet s → ∀ i j, e.owner.slot? = some i → s.job i = some j → j.part? e.tile ≠ none →
        (∀ q ∈ j.parts, q.tile = e.tile → q.cond.hasFailed = true) → ¬ s.HasMore e i e.tile → PartLeaves s t i e.tile 1)

/-- The mirrors an ACK confirms (R13, R14, R123, R124); a NOCHANGE to a SHOW, BLANK or INVERT whose mirror stood otherwise
sets MIRROR_MISMATCH, and such an ACK sets no other last error, where nothing else can fail on the tile at the same event
(R13, R16). In a state between two events (`Quiet`): a segment's success raises the stream's pixels acknowledged, and with the
last the tile part completes and the stream closes (R108, R111); a part of a SLEEP_AFTER step that completes on an AWAKE tile
arms the tile's auto-sleep, but not while another job has a pending tile part for it (R99; that a part which fails at the same
event is pending still is the model's choice, log 36); and a WINDOW acknowledged while a stream of another job is open fails
the stream's part with WINDOW_CHANGED (R113). The premise on the tags is an invariant stated above. -/
def Obligations.AcksConfirmMirrors : Prop :=
  ∀ (s : State) (p : PortId) (d : Position) (tag : Tag) (st : AckStatus) (e : Entry), s.resetLow = false →
    ((s.port p).inFlight.map (fun e => e.tag)).Nodup →
    (s.port p).receives = true → (s.port p).matching tag (tileOf p d) = some e → st ≠ .reject →
    e.kind ≠ .probe →
    ∃ t, exec (.ackReceived p d tag st) s = .next t ∧
      (e.kind = .show → (t.tile e.tile).shown = some true) ∧
      (e.kind = .blank → (t.tile e.tile).shown = some false) ∧
      (e.kind = .invert → (t.tile e.tile).inverted = some (decide (e.x = 1))) ∧
      (e.kind = .window →
        (t.tile e.tile).window = some ⟨lowHalf e.x, highHalf e.x, lowHalf e.y, highHalf e.y⟩) ∧
      (e.kind = .band → e.x ≠ 0 → (t.tile e.tile).band = some ⟨true, some (lowHalf e.y, highHalf e.y)⟩) ∧
      (e.kind = .band → e.x = 0 → ∀ g, (s.tile e.tile).geometry = some g → g.height ≠ 0 →
        (t.tile e.tile).band = some ⟨false, some (0, g.height - 1)⟩) ∧
      (e.kind = .rollArea → (t.tile e.tile).roll = some ⟨lowHalf e.x, lowHalf e.y, lowHalf e.x⟩) ∧
      (e.kind = .rollTo → ∀ r, (s.tile e.tile).roll = some r →
        (t.tile e.tile).roll = some { r with start := lowHalf e.x }) ∧
      (e.kind ≠ .show → e.kind ≠ .blank → (t.tile e.tile).shown = (s.tile e.tile).shown) ∧
      (e.kind ≠ .invert → (t.tile e.tile).inverted = (s.tile e.tile).inverted) ∧
      (e.kind ≠ .window → (t.tile e.tile).window = (s.tile e.tile).window) ∧
      (e.kind ≠ .band → (t.tile e.tile).band = (s.tile e.tile).band) ∧
      (e.kind ≠ .rollArea → e.kind ≠ .rollTo → (t.tile e.tile).roll = (s.tile e.tile).roll) ∧
      (e.kind = .pixStart ∨ e.kind = .pixMore ∨ e.kind = .pixSeek → (t.tile e.tile).lastPixelAck = some s.now) ∧
      (e.kind ≠ .pixStart → e.kind ≠ .pixMore → e.kind ≠ .pixSeek →
        (t.tile e.tile).lastPixelAck = (s.tile e.tile).lastPixelAck) ∧
      (e.kind = .show ∨ e.kind = .blank ∨ e.kind = .invert → Quiet s → s.Undisturbed e.tile e.owner.slot? →
        (t.tile e.tile).lastError =
          if st = .nochange ∧ ((e.kind = .show ∧ (s.tile e.tile).shown ≠ some true) ∨
            (e.kind = .blank ∧ (s.tile e.tile).shown ≠ some false) ∨
            (e.kind = .invert ∧ (s.tile e.tile).inverted ≠ some (decide (e.x = 1)))) then some .mirrorMismatch
          else (s.tile e.tile).lastError) ∧
      (Quiet s → s.OwnPartSound e → ∀ i, e.owner.slot? = some i →
        (e.kind.isPixelWrite = true → SegmentSucceeds s t e i) ∧
        (∀ j q sp, s.job i = some j → j.part? e.tile = some q → j.step? = some sp → q.cond.hasFailed = false →
          e.kind.wantsData = false → e.kind.isPixelWrite = false → e.kind.isPower = false → sp.sleepAfter = true →
          (s.engine = .running → j.abortRequested = false → (s.tile e.tile).state = .awake →
            (∀ k m, k ≠ i → s.job k = some m → m.part? e.tile = none) → s.NoLaterStep e.tile →
            (t.tile e.tile).armed = true) ∧
          ((s.tile e.tile).armed = false →
            ((∃ k m, k ≠ i ∧ s.job k = some m ∧ m.part? e.tile ≠ none) ∨ s.engine ≠ .running ∨ j.abortRequested = true ∨
              (s.tile e.tile).state ≠ .awake) → (t.tile e.tile).armed = false))) ∧
      (Quiet s → e.kind = .window → ∀ r, (s.tile e.tile).stream = some r → e.owner.slot? ≠ some r.owner →
        ∀ j q, s.job r.owner = some j → j.part? e.tile = some q → q.cond.hasFailed = false →
          PartFails s t r.owner e.tile .windowChanged ∧
          (s.NoLaterStep e.tile → (t.tile e.tile).lastError = some .windowChanged) ∧
          (s.HasMore e r.owner e.tile → (t.tile e.tile).stream = some { r with failed := true }) ∧
          (¬ s.HasMore e r.owner e.tile → (t.tile e.tile).stream = none))

/-- A WAKE or a SLEEP acknowledged with success moves the tile and sets its marks by the tables of R92 and R93; with NOCHANGE
the tile's last error is MIRROR_MISMATCH, where nothing else can fail on the tile at the same event (R16). -/
def Obligations.AcksMovePower : Prop :=
  ∀ (s : State) (p : PortId) (d : Position) (tag : Tag) (st : AckStatus) (e : Entry), s.resetLow = false →
    (s.port p).receives = true → (s.port p).matching tag (tileOf p d) = some e → st ≠ .reject →
    ∃ t, exec (.ackReceived p d tag st) s = .next t ∧
      (e.kind = .wake → (s.tile e.tile).state = .asleep →
        (t.tile e.tile).state = .waking ∧ (t.tile e.tile).changedAt = s.now ∧ (t.tile e.tile).wakeAck = some s.now ∧
        (t.tile e.tile).settleDue = some (plusMs s.now s.settings.settleMs) ∧
        (t.tile e.tile).readyDue = some (plusMs s.now s.settings.readyMs)) ∧
      (e.kind = .wake → (s.tile e.tile).state = .faulted →
        (t.tile e.tile).state = .faulted ∧ (t.tile e.tile).wakeAck = (s.tile e.tile).wakeAck ∧
        (t.tile e.tile).settleDue = (s.tile e.tile).settleDue ∧ (t.tile e.tile).readyDue = (s.tile e.tile).readyDue) ∧
      (e.kind = .sleep → (s.tile e.tile).state = .awake →
        (t.tile e.tile).state = .dozing ∧ (t.tile e.tile).restDue = some (plusMs s.now s.settings.restMs) ∧
        (t.tile e.tile).shown = (s.tile e.tile).shown ∧ (t.tile e.tile).lastFault = (s.tile e.tile).lastFault) ∧
      (e.kind = .sleep → (s.tile e.tile).state = .faulted → ∀ g, (s.tile e.tile).geometry = some g →
        (t.tile e.tile).lastFault = 0 ∧
        (g.inRange = true → (t.tile e.tile).state = .dozing ∧
          (t.tile e.tile).restDue = some (plusMs s.now s.settings.restMs)) ∧
        (g.inRange = false → (t.tile e.tile).state = .faulted ∧ (t.tile e.tile).restDue = (s.tile e.tile).restDue)) ∧
      ((e.kind = .wake ∧ (s.tile e.tile).state = .asleep) ∨
          (e.kind = .sleep ∧ ((s.tile e.tile).state = .awake ∨ (s.tile e.tile).state = .faulted)) →
        Quiet s → s.Undisturbed e.tile e.owner.slot? → s.OwnPartSound e →
        (t.tile e.tile).lastError = if st = .nochange then some .mirrorMismatch else (s.tile e.tile).lastError)

/-- DATA_RECEIVED of the right kind and length: the entry is WRITING with its destination and bytes, its deadline gone, and
nothing else changes; of the wrong kind or length it ends the transaction as a REJECT does: the owner's tile part fails with
TILE_REJECT, and that is the tile's last error where nothing else can fail on the tile at the same event; after a fatal fault,
and to a GET part that has failed, it is discarded, a READ STATE's report being judged all the same (R16, R34 to R36, R44,
R117, R118, R123, R150, R152, R153). To an entry in WRITING it does the same, and the older write runs to its end without a
use (the model's choice, log 16). The premise on the tags is an invariant stated above. -/
def Obligations.DataTaken : Prop :=
  ∀ (s : State) (p : PortId) (d : Position) (tag : Tag) (ws : List Word) (e : Entry), s.resetLow = false →
    ((s.port p).inFlight.map (fun e => e.tag)).Nodup → (s.port p).receives = true →
    (s.port p).matching tag (tileOf p d) = some e → e.kind ≠ .probe →
    let right := (e.kind = .readId ∧ ws.length = 6) ∨ (e.kind = .readState ∧ ws.length = 1) ∨
      (e.kind = .pixRead ∧ ws.length = wordsOf e.format e.pixels)
    let w : DestWrite :=
      if e.kind = .readId then { addr := e.x, bytes := readIdBytes e.tile ws, report := none }
      else if e.kind = .readState then
        { addr := e.x, bytes := wordBytes (ws.getD 0 0) ++ wordBytes s.now, report := some (ws.getD 0 0) }
      else { addr := e.x + BitVec.ofNat 32 (4 * wordIndex e.format e.first),
             bytes := wordsBytes (storedWords e.format e.pixels ws), report := none }
    (right → s.fatal = false → (e.kind ≠ .pixRead ∨ s.partFailed e = false) →
      exec (.dataReceived p d tag ws) s = .next (s.setPort p { s.port p with
        inFlight := (s.port p).inFlight.map (fun f =>
          if f.tag = e.tag then { f with deadline := none, phase := .writing w } else f),
        cutWrites := (s.port p).cutWrites ++ e.writeUnderWay })) ∧
    (right → s.fatal = true ∨ (e.kind = .pixRead ∧ s.partFailed e = true) →
      ∃ t, exec (.dataReceived p d tag ws) s = .next t ∧ TransactionEnded s t p e e.writeUnderWay ∧
        (e.kind = .readState → ReportTaken s t e.tile (ws.getD 0 0) ∧
          (Quiet s → (s.ReportDisagrees e.tile (ws.getD 0 0) → (t.tile e.tile).lastError = some .mirrorMismatch) ∧
            (¬ s.ReportDisagrees e.tile (ws.getD 0 0) → (t.tile e.tile).lastError = (s.tile e.tile).lastError)))) ∧
    (¬ right → ∃ t, exec (.dataReceived p d tag ws) s = .next t ∧ TransactionEnded s t p e e.writeUnderWay ∧
      ({ (t.tile e.tile).eraseWork with credits := 0, configInFlight := false } : TileEntry) =
        { (s.tile e.tile).eraseWork with credits := 0, configInFlight := false } ∧
      (Quiet s → s.OwnPartSound e →
        (s.Undisturbed e.tile e.owner.slot? → (t.tile e.tile).lastError = some .tileReject) ∧
        ∀ i, e.owner.slot? = some i → PartFails s t i e.tile .tileReject))

/-- DESTINATION_WRITE_DONE ends its transaction, and a READ STATE report is taken as the tile's truth: mirrors as reported,
the band rows kept when the mode agrees, those of FULL when it reports FULL and absent when it reports BAND, FAULTED when the
reported power disagrees. A disagreement sets MIRROR_MISMATCH and a bus error BUS_ERROR as the tile's last error, where
nothing else can fail on the tile at the same event. A write that outlived its entry ends without effect. In a state between
two events (`Quiet`) with no fatal fault, a READ ID or READ STATE part completes with its write, a GET segment's write raises
the stream's pixels acknowledged, and a bus error fails the part with BUS_ERROR (R16, R33 to R37, R108, R117, R118, R123,
R147, R152, R153). The premises on the tags and on the entry's port are invariants stated above; only a READ STATE's write
carries a report. Of the writes with one tag the first begun is
the one that ended (the model's choice, log 35). -/
def Obligations.DestinationWritesEnd : Prop :=
  (∀ (s : State) (p : PortId) (tag : Tag) (ok : Bool), s.resetLow = false → s.accessCut (.destination p tag) = false →
    (∃ v ∈ (s.port p).cutWrites, v.tag = tag) →
    exec (.destinationWriteDone p tag ok) s = .next (s.setPort p
      { s.port p with cutWrites := (s.port p).cutWrites.eraseP (fun v => decide (v.tag = tag)) })) ∧
  ∀ (s : State) (p : PortId) (tag : Tag) (ok : Bool) (e : Entry) (w : DestWrite), s.resetLow = false →
    ((s.port p).inFlight.map (fun e => e.tag)).Nodup →
    s.accessCut (.destination p tag) = false → (∀ v ∈ (s.port p).cutWrites, v.tag ≠ tag) →
    (s.port p).writingEntry tag = some (e, w) →
    ∃ t, exec (.destinationWriteDone p tag ok) s = .next t ∧ TransactionEnded s t p e [] ∧
      (w.report = none → (t.tile e.tile).state = (s.tile e.tile).state ∧
        (t.tile e.tile).shown = (s.tile e.tile).shown ∧ (t.tile e.tile).band = (s.tile e.tile).band) ∧
      (∀ r, w.report = some r → ReportTaken s t e.tile r) ∧
      (Quiet s → s.Undisturbed e.tile e.owner.slot? → s.OwnPartSound e →
        (e.kind = .readState ∨ (w.report = none ∧ (e.kind = .readId ∨ e.kind = .pixRead))) →
        let disagrees := ∃ r, w.report = some r ∧ s.ReportDisagrees e.tile r
        (ok = false → s.fatal = false → (∃ i j q, e.owner.slot? = some i ∧ s.job i = some j ∧ j.part? e.tile = some q) →
          (t.tile e.tile).lastError = some .busError) ∧
        (ok = true → (disagrees → (t.tile e.tile).lastError = some .mirrorMismatch) ∧
          (¬ disagrees → (t.tile e.tile).lastError = (s.tile e.tile).lastError))) ∧
      (Quiet s → s.fatal = false → s.OwnPartSound e → portOf e.tile = p → (w.report = none ∨ e.kind = .readState) →
        ∀ i j q, e.owner.slot? = some i → s.job i = some j → j.part? e.tile = some q →
        (ok = true → e.kind = .pixRead → SegmentSucceeds s t e i) ∧
        (ok = true → e.kind = .readId ∨ e.kind = .readState → q.cond.hasFailed = false → PartLeaves s t i e.tile 1) ∧
        (ok = false → e.kind = .pixRead ∨ e.kind = .readId ∨ e.kind = .readState → PartFails s t i e.tile .busError))

/-- REPLY_DEADLINE_EXPIRY: every entry to the tile ends with its tag quarantined, the tile is LOST, and its last error is
TIMEOUT; a destination write under way runs on, the entries of other tiles stay, and other tiles and the other port are not
touched; a job's outstanding count falls by one for each of its entries ended (R147, R155, R157). The expired entry's own part
fails with TIMEOUT, and with it the job of a step that is not TOLERANT, in a state between two events (`Quiet`; R35, R36). The
premise on the tags is an invariant stated above. -/
def Obligations.DeadlinesExpire : Prop :=
  ∀ (s : State) (p : PortId) (tag : Tag) (e : Entry), s.resetLow = false →
    ((s.port p).inFlight.map (fun e => e.tag)).Nodup →
    (s.port p).inFlight.find? (fun e => decide (e.tag = tag) && e.isWaiting && decide (e.kind ≠ .probe) &&
      reachedOpt s.now e.deadline) = some e →
    ∃ t, exec (.replyDeadlineExpiry p tag) s = .next t ∧
      (t.port p).inFlight = (s.port p).inFlight.filter (fun f => decide (f.tile ≠ e.tile)) ∧
      (∀ u, u ≠ e.tile → (t.tile u).eraseWork = (s.tile u).eraseWork) ∧
      (Quiet s → ∀ i, e.owner.slot? = some i → PartFails s t i e.tile .timeout) ∧
      (s.fatal = false → ∀ i j, s.job i = some j → ∃ j', t.job i = some j' ∧ j'.outstanding = j.outstanding -
        ((s.port p).inFlight.filter (fun f => decide (f.tile = e.tile) && decide (f.owner.slot? = some i))).length) ∧
      (∀ f ∈ (s.port p).inFlight, f.tile = e.tile → (t.port p).quarantined.getLsbD f.tag.val = true) ∧
      (∀ f w, f ∈ (s.port p).inFlight → f.tile = e.tile → f.phase = .writing w → ⟨f.tag, w⟩ ∈ (t.port p).cutWrites) ∧
      (t.port p).state = (s.port p).state ∧ (∀ q, q ≠ p → t.port q = s.port q) ∧
      (t.tile e.tile).state = .lost ∧ (t.tile e.tile).lastError = some .timeout ∧ (t.tile e.tile).credits = 0 ∧
      (t.tile e.tile).configInFlight = false ∧ (t.tile e.tile).identity = (s.tile e.tile).identity ∧
      (t.tile e.tile).window = (s.tile e.tile).window ∧
      (∀ u, u ≠ e.tile → (t.tile u).state = (s.tile u).state) ∧ t.engine = s.engine ∧ t.wakeHistory = s.wakeHistory

/-- FAULT_NOTICE from a present tile that has answered: its code, display BLANK, FAULTED; from any other tile it is discarded
(R13, R159). In a state between two events (`Quiet`), when the tile was not FAULTED before, a tile part of a kind that a
FAULTED tile does not take fails TILE_FAULT, which is then the tile's last error; parts of the kinds it takes are as they were
while issued or candidates (R16, R32, R34 to R36, R160). The display of a tile already FAULTED becomes BLANK too (the model's
choice, log 38). -/
def Obligations.FaultNotices : Prop :=
  ∀ (s : State) (p : PortId) (d : Position) (code : BitVec 4), s.resetLow = false →
    ((s.tile (tileOf p d)).state.present = true → (s.port p).answered d = true →
      ∃ t, exec (.faultNotice p d code) s = .next t ∧ (t.tile (tileOf p d)).lastFault = code ∧
        (t.tile (tileOf p d)).shown = some false ∧ (t.tile (tileOf p d)).state = .faulted ∧
        (t.tile (tileOf p d)).changedAt =
          (if (s.tile (tileOf p d)).state = .faulted then (s.tile (tileOf p d)).changedAt else s.now) ∧
        (t.tile (tileOf p d)).credits = (s.tile (tileOf p d)).credits ∧
        (Quiet s → (s.tile (tileOf p d)).state ≠ .faulted → ∀ i j st q, s.job i = some j → j.phase = .running →
          j.step? = some st → j.part? (tileOf p d) = some q → q.cond.hasFailed = false →
          (q.cond = .issued → s.hasInFlight i (tileOf p d) = true) →
          (st.kind.isEngine = false → st.kind ≠ .sleep → st.kind ≠ .readId → st.kind ≠ .readState →
            PartFails s t i (tileOf p d) .tileFault ∧ (t.tile (tileOf p d)).lastError = some .tileFault) ∧
          (st.kind = .sleep ∨ st.kind = .readId ∨ st.kind = .readState → s.powerInFlight (tileOf p d) = false →
            q.cond = .candidate ∨ q.cond = .issued → t.job i = some j)) ∧
        (∀ x, x ≠ tileOf p d → (t.tile x).eraseWork = (s.tile x).eraseWork) ∧ t.port = s.port ∧
        t.engine = s.engine ∧ t.walkerN = s.walkerN ∧ t.walkerP = s.walkerP) ∧
    ((s.tile (tileOf p d)).state.present = false ∨ (s.port p).answered d = false →
      exec (.faultNotice p d code) s = .next s)

/-! ## The tile's side (R3, R8, R120, R121) -/

/-- R8, whole: the chain reset's defaults, whatever the tile's condition; frame memory stays and nothing is sent. -/
def Obligations.TileChainReset : Prop :=
  ∀ (d : TileDev) (p : Packet), p.kind = .reset → p.hop = 15 →
    d.receive p = (({ d with
      held := [], awake := false, shown := false, bandMode := false, bandStart := 0, bandEnd := d.geometry.height - 1,
      inverted := false, window := ⟨0, d.geometry.width - 1, 0, d.geometry.height - 1⟩,
      roll := ⟨0, d.geometry.height, 0⟩, writeOpen := false, pointer := 0, faultCode := 0, frameCounter := 0,
      inFault := false } : TileDev), ([] : List UpPacket), some p)

/-- R120, whole: what a roll setting shows, that it stays within the panel, that accepted packets keep it so, and that it
moves no pixels. -/
def Obligations.TileRollMapping : Prop :=
  (∀ (roll : Roll) (height r : Nat), 1 ≤ roll.height.toNat → roll.top.toNat + roll.height.toNat ≤ height →
    roll.top.toNat ≤ roll.start.toNat → roll.start.toNat < roll.top.toNat + roll.height.toNat → r < height →
    (r < roll.top.toNat → rowShown roll r = r) ∧
    (roll.top.toNat ≤ r → r < roll.top.toNat + roll.height.toNat →
      rowShown roll r = roll.top.toNat +
        ((roll.start.toNat - roll.top.toNat) + (r - roll.top.toNat)) % roll.height.toNat) ∧
    (roll.top.toNat + roll.height.toNat ≤ r → rowShown roll r = r) ∧
    rowShown roll r < height ∧ rowShown roll roll.top.toNat = roll.start.toNat ∧
    (roll.top.toNat ≤ r → r + 1 < roll.top.toNat + roll.height.toNat →
      rowShown roll (r + 1) = if rowShown roll r + 1 = roll.top.toNat + roll.height.toNat then roll.top.toNat
        else rowShown roll r + 1) ∧
    (roll.start = roll.top → rowShown roll r = r)) ∧
  (∀ d : TileDev, d.chainReset.roll = ⟨0, d.geometry.height, 0⟩ ∧
    (1 ≤ d.geometry.height.toNat →
      1 ≤ d.chainReset.roll.height.toNat ∧
      d.chainReset.roll.top.toNat + d.chainReset.roll.height.toNat ≤ d.geometry.height.toNat ∧
      d.chainReset.roll.top.toNat ≤ d.chainReset.roll.start.toNat ∧
      d.chainReset.roll.start.toNat < d.chainReset.roll.top.toNat + d.chainReset.roll.height.toNat)) ∧
  (∀ (d : TileDev) (p : Packet), p.kind = .rollArea ∨ p.kind = .rollTo → d.valid p = true →
    (1 ≤ d.roll.height.toNat ∧ d.roll.top.toNat + d.roll.height.toNat ≤ d.geometry.height.toNat) →
    let e := d.accept p
    1 ≤ e.roll.height.toNat ∧ e.roll.top.toNat + e.roll.height.toNat ≤ e.geometry.height.toNat ∧
    e.roll.top.toNat ≤ e.roll.start.toNat ∧ e.roll.start.toNat < e.roll.top.toNat + e.roll.height.toNat ∧
    e.frame = d.frame ∧ e.window = d.window ∧ ∀ off, e.place off = d.place off)

end
end

