-- ==== Sys2Proof/Laws/State.lean ====
section
/-! SUPPORT. Reading a field after an update: for each named update of a state, every field it leaves, and the value it
puts. The conjuncts of a lemma tagged simp are rewrite rules one by one, so no later proof unfolds a record update. -/

namespace Sys2Proof.Machine

@[simp] theorem State.setPort_fields (s : State) (p : PortId) (v : Port) :
    (s.setPort p v).pending = s.pending ∧ (s.setPort p v).resetLow = s.resetLow ∧
    (s.setPort p v).readBytes = s.readBytes ∧ (s.setPort p v).cbaddr = s.cbaddr ∧ (s.setPort p v).notice = s.notice ∧
    (s.setPort p v).noticeEn = s.noticeEn ∧ (s.setPort p v).tileChg = s.tileChg ∧ (s.setPort p v).now = s.now ∧
    (s.setPort p v).engine = s.engine ∧ (s.setPort p v).fault = s.fault ∧ (s.setPort p v).cbRead = s.cbRead ∧
    (s.setPort p v).settings = s.settings ∧ (s.setPort p v).walkerN = s.walkerN ∧
    (s.setPort p v).walkerP = s.walkerP ∧ (s.setPort p v).slots = s.slots ∧ (s.setPort p v).nextOrder = s.nextOrder ∧
    (s.setPort p v).tiles = s.tiles ∧ (s.setPort p v).records = s.records ∧
    (s.setPort p v).wakeHistory = s.wakeHistory ∧ (s.setPort p v).historyWindowMs = s.historyWindowMs ∧
    (s.setPort p v).wakePresented = s.wakePresented ∧ (s.setPort p v).waitList = s.waitList ∧
    (s.setPort p v).stoppedReads = s.stoppedReads ∧ (s.setPort p v).cutAccesses = s.cutAccesses ∧
    (s.setPort p v).trig0 = s.trig0 ∧ (s.setPort p v).trig1 = s.trig1 ∧ (s.setPort p v).sync0 = s.sync0 ∧
    (s.setPort p v).sync1 = s.sync1 ∧ (s.setPort p v).choices = s.choices := by
  cases p <;> repeat' constructor

@[simp] theorem State.setPort_reads (s : State) (p : PortId) (v : Port) :
    (∀ d, (s.setPort p v).walker d = s.walker d) ∧ (∀ u, (s.setPort p v).tile u = s.tile u) ∧
    (∀ u, (s.setPort p v).record u = s.record u) ∧ (∀ k, (s.setPort p v).slot k = s.slot k) ∧
    (∀ k, (s.setPort p v).job k = s.job k) := by
  cases p <;> exact ⟨fun d => by cases d <;> rfl, fun _ => rfl, fun _ => rfl, fun _ => rfl, fun _ => rfl⟩

@[simp] theorem State.modPort_fields (s : State) (p : PortId) (f : Port → Port) :
    (s.modPort p f).pending = s.pending ∧ (s.modPort p f).resetLow = s.resetLow ∧
    (s.modPort p f).readBytes = s.readBytes ∧ (s.modPort p f).cbaddr = s.cbaddr ∧ (s.modPort p f).notice = s.notice ∧
    (s.modPort p f).noticeEn = s.noticeEn ∧ (s.modPort p f).tileChg = s.tileChg ∧ (s.modPort p f).now = s.now ∧
    (s.modPort p f).engine = s.engine ∧ (s.modPort p f).fault = s.fault ∧ (s.modPort p f).cbRead = s.cbRead ∧
    (s.modPort p f).settings = s.settings ∧ (s.modPort p f).walkerN = s.walkerN ∧
    (s.modPort p f).walkerP = s.walkerP ∧ (s.modPort p f).slots = s.slots ∧ (s.modPort p f).nextOrder = s.nextOrder ∧
    (s.modPort p f).tiles = s.tiles ∧ (s.modPort p f).records = s.records ∧
    (s.modPort p f).wakeHistory = s.wakeHistory ∧ (s.modPort p f).historyWindowMs = s.historyWindowMs ∧
    (s.modPort p f).wakePresented = s.wakePresented ∧ (s.modPort p f).waitList = s.waitList ∧
    (s.modPort p f).stoppedReads = s.stoppedReads ∧ (s.modPort p f).cutAccesses = s.cutAccesses ∧
    (s.modPort p f).trig0 = s.trig0 ∧ (s.modPort p f).trig1 = s.trig1 ∧ (s.modPort p f).sync0 = s.sync0 ∧
    (s.modPort p f).sync1 = s.sync1 ∧ (s.modPort p f).choices = s.choices := by
  cases p <;> repeat' constructor

@[simp] theorem State.modPort_reads (s : State) (p : PortId) (f : Port → Port) :
    (∀ d, (s.modPort p f).walker d = s.walker d) ∧ (∀ u, (s.modPort p f).tile u = s.tile u) ∧
    (∀ u, (s.modPort p f).record u = s.record u) ∧ (∀ k, (s.modPort p f).slot k = s.slot k) ∧
    (∀ k, (s.modPort p f).job k = s.job k) := by
  cases p <;> exact ⟨fun d => by cases d <;> rfl, fun _ => rfl, fun _ => rfl, fun _ => rfl, fun _ => rfl⟩

@[simp] theorem State.setWalker_fields (s : State) (c : Chain) (w : Walker) :
    (s.setWalker c w).pending = s.pending ∧ (s.setWalker c w).resetLow = s.resetLow ∧
    (s.setWalker c w).readBytes = s.readBytes ∧ (s.setWalker c w).cbaddr = s.cbaddr ∧
    (s.setWalker c w).notice = s.notice ∧ (s.setWalker c w).noticeEn = s.noticeEn ∧
    (s.setWalker c w).tileChg = s.tileChg ∧ (s.setWalker c w).now = s.now ∧ (s.setWalker c w).engine = s.engine ∧
    (s.setWalker c w).fault = s.fault ∧ (s.setWalker c w).cbRead = s.cbRead ∧
    (s.setWalker c w).settings = s.settings ∧ (s.setWalker c w).slots = s.slots ∧
    (s.setWalker c w).nextOrder = s.nextOrder ∧ (s.setWalker c w).tiles = s.tiles ∧
    (s.setWalker c w).records = s.records ∧ (s.setWalker c w).wakeHistory = s.wakeHistory ∧
    (s.setWalker c w).historyWindowMs = s.historyWindowMs ∧ (s.setWalker c w).wakePresented = s.wakePresented ∧
    (s.setWalker c w).portA = s.portA ∧ (s.setWalker c w).portB = s.portB ∧ (s.setWalker c w).waitList = s.waitList ∧
    (s.setWalker c w).stoppedReads = s.stoppedReads ∧ (s.setWalker c w).cutAccesses = s.cutAccesses ∧
    (s.setWalker c w).trig0 = s.trig0 ∧ (s.setWalker c w).trig1 = s.trig1 ∧ (s.setWalker c w).sync0 = s.sync0 ∧
    (s.setWalker c w).sync1 = s.sync1 ∧ (s.setWalker c w).choices = s.choices := by
  cases c <;> repeat' constructor

@[simp] theorem State.setWalker_reads (s : State) (c : Chain) (w : Walker) :
    (∀ q, (s.setWalker c w).port q = s.port q) ∧ (∀ u, (s.setWalker c w).tile u = s.tile u) ∧
    (∀ u, (s.setWalker c w).record u = s.record u) ∧ (∀ k, (s.setWalker c w).slot k = s.slot k) ∧
    (∀ k, (s.setWalker c w).job k = s.job k) := by
  cases c <;> exact ⟨fun q => by cases q <;> rfl, fun _ => rfl, fun _ => rfl, fun _ => rfl, fun _ => rfl⟩

@[simp] theorem State.modWalker_fields (s : State) (c : Chain) (f : Walker → Walker) :
    (s.modWalker c f).pending = s.pending ∧ (s.modWalker c f).resetLow = s.resetLow ∧
    (s.modWalker c f).readBytes = s.readBytes ∧ (s.modWalker c f).cbaddr = s.cbaddr ∧
    (s.modWalker c f).notice = s.notice ∧ (s.modWalker c f).noticeEn = s.noticeEn ∧
    (s.modWalker c f).tileChg = s.tileChg ∧ (s.modWalker c f).now = s.now ∧ (s.modWalker c f).engine = s.engine ∧
    (s.modWalker c f).fault = s.fault ∧ (s.modWalker c f).cbRead = s.cbRead ∧
    (s.modWalker c f).settings = s.settings ∧ (s.modWalker c f).slots = s.slots ∧
    (s.modWalker c f).nextOrder = s.nextOrder ∧ (s.modWalker c f).tiles = s.tiles ∧
    (s.modWalker c f).records = s.records ∧ (s.modWalker c f).wakeHistory = s.wakeHistory ∧
    (s.modWalker c f).historyWindowMs = s.historyWindowMs ∧ (s.modWalker c f).wakePresented = s.wakePresented ∧
    (s.modWalker c f).portA = s.portA ∧ (s.modWalker c f).portB = s.portB ∧ (s.modWalker c f).waitList = s.waitList ∧
    (s.modWalker c f).stoppedReads = s.stoppedReads ∧ (s.modWalker c f).cutAccesses = s.cutAccesses ∧
    (s.modWalker c f).trig0 = s.trig0 ∧ (s.modWalker c f).trig1 = s.trig1 ∧ (s.modWalker c f).sync0 = s.sync0 ∧
    (s.modWalker c f).sync1 = s.sync1 ∧ (s.modWalker c f).choices = s.choices := by
  cases c <;> repeat' constructor

@[simp] theorem State.modWalker_reads (s : State) (c : Chain) (f : Walker → Walker) :
    (∀ q, (s.modWalker c f).port q = s.port q) ∧ (∀ u, (s.modWalker c f).tile u = s.tile u) ∧
    (∀ u, (s.modWalker c f).record u = s.record u) ∧ (∀ k, (s.modWalker c f).slot k = s.slot k) ∧
    (∀ k, (s.modWalker c f).job k = s.job k) := by
  cases c <;> exact ⟨fun q => by cases q <;> rfl, fun _ => rfl, fun _ => rfl, fun _ => rfl, fun _ => rfl⟩

@[simp] theorem State.setTile_fields (s : State) (t : TileNum) (e : TileEntry) :
    (s.setTile t e).pending = s.pending ∧ (s.setTile t e).resetLow = s.resetLow ∧
    (s.setTile t e).readBytes = s.readBytes ∧ (s.setTile t e).cbaddr = s.cbaddr ∧ (s.setTile t e).notice = s.notice ∧
    (s.setTile t e).noticeEn = s.noticeEn ∧ (s.setTile t e).tileChg = s.tileChg ∧ (s.setTile t e).now = s.now ∧
    (s.setTile t e).engine = s.engine ∧ (s.setTile t e).fault = s.fault ∧ (s.setTile t e).cbRead = s.cbRead ∧
    (s.setTile t e).settings = s.settings ∧ (s.setTile t e).walkerN = s.walkerN ∧
    (s.setTile t e).walkerP = s.walkerP ∧ (s.setTile t e).slots = s.slots ∧ (s.setTile t e).nextOrder = s.nextOrder ∧
    (s.setTile t e).records = s.records ∧ (s.setTile t e).wakeHistory = s.wakeHistory ∧
    (s.setTile t e).historyWindowMs = s.historyWindowMs ∧ (s.setTile t e).wakePresented = s.wakePresented ∧
    (s.setTile t e).portA = s.portA ∧ (s.setTile t e).portB = s.portB ∧ (s.setTile t e).waitList = s.waitList ∧
    (s.setTile t e).stoppedReads = s.stoppedReads ∧ (s.setTile t e).cutAccesses = s.cutAccesses ∧
    (s.setTile t e).trig0 = s.trig0 ∧ (s.setTile t e).trig1 = s.trig1 ∧ (s.setTile t e).sync0 = s.sync0 ∧
    (s.setTile t e).sync1 = s.sync1 ∧ (s.setTile t e).choices = s.choices := by
  repeat' constructor

@[simp] theorem State.setTile_reads (s : State) (t : TileNum) (e : TileEntry) :
    (∀ q, (s.setTile t e).port q = s.port q) ∧ (∀ d, (s.setTile t e).walker d = s.walker d) ∧
    (∀ u, (s.setTile t e).record u = s.record u) ∧ (∀ k, (s.setTile t e).slot k = s.slot k) ∧
    (∀ k, (s.setTile t e).job k = s.job k) := by
  exact ⟨fun q => by cases q <;> rfl, fun d => by cases d <;> rfl, fun _ => rfl, fun _ => rfl, fun _ => rfl⟩

@[simp] theorem State.modTile_fields (s : State) (t : TileNum) (f : TileEntry → TileEntry) :
    (s.modTile t f).pending = s.pending ∧ (s.modTile t f).resetLow = s.resetLow ∧
    (s.modTile t f).readBytes = s.readBytes ∧ (s.modTile t f).cbaddr = s.cbaddr ∧ (s.modTile t f).notice = s.notice ∧
    (s.modTile t f).noticeEn = s.noticeEn ∧ (s.modTile t f).tileChg = s.tileChg ∧ (s.modTile t f).now = s.now ∧
    (s.modTile t f).engine = s.engine ∧ (s.modTile t f).fault = s.fault ∧ (s.modTile t f).cbRead = s.cbRead ∧
    (s.modTile t f).settings = s.settings ∧ (s.modTile t f).walkerN = s.walkerN ∧
    (s.modTile t f).walkerP = s.walkerP ∧ (s.modTile t f).slots = s.slots ∧ (s.modTile t f).nextOrder = s.nextOrder ∧
    (s.modTile t f).records = s.records ∧ (s.modTile t f).wakeHistory = s.wakeHistory ∧
    (s.modTile t f).historyWindowMs = s.historyWindowMs ∧ (s.modTile t f).wakePresented = s.wakePresented ∧
    (s.modTile t f).portA = s.portA ∧ (s.modTile t f).portB = s.portB ∧ (s.modTile t f).waitList = s.waitList ∧
    (s.modTile t f).stoppedReads = s.stoppedReads ∧ (s.modTile t f).cutAccesses = s.cutAccesses ∧
    (s.modTile t f).trig0 = s.trig0 ∧ (s.modTile t f).trig1 = s.trig1 ∧ (s.modTile t f).sync0 = s.sync0 ∧
    (s.modTile t f).sync1 = s.sync1 ∧ (s.modTile t f).choices = s.choices := by
  repeat' constructor

@[simp] theorem State.modTile_reads (s : State) (t : TileNum) (f : TileEntry → TileEntry) :
    (∀ q, (s.modTile t f).port q = s.port q) ∧ (∀ d, (s.modTile t f).walker d = s.walker d) ∧
    (∀ u, (s.modTile t f).record u = s.record u) ∧ (∀ k, (s.modTile t f).slot k = s.slot k) ∧
    (∀ k, (s.modTile t f).job k = s.job k) := by
  exact ⟨fun q => by cases q <;> rfl, fun d => by cases d <;> rfl, fun _ => rfl, fun _ => rfl, fun _ => rfl⟩

@[simp] theorem State.setRecord_fields (s : State) (t : TileNum) (r : RecordCtl) :
    (s.setRecord t r).pending = s.pending ∧ (s.setRecord t r).resetLow = s.resetLow ∧
    (s.setRecord t r).readBytes = s.readBytes ∧ (s.setRecord t r).cbaddr = s.cbaddr ∧
    (s.setRecord t r).notice = s.notice ∧ (s.setRecord t r).noticeEn = s.noticeEn ∧
    (s.setRecord t r).tileChg = s.tileChg ∧ (s.setRecord t r).now = s.now ∧ (s.setRecord t r).engine = s.engine ∧
    (s.setRecord t r).fault = s.fault ∧ (s.setRecord t r).cbRead = s.cbRead ∧
    (s.setRecord t r).settings = s.settings ∧ (s.setRecord t r).walkerN = s.walkerN ∧
    (s.setRecord t r).walkerP = s.walkerP ∧ (s.setRecord t r).slots = s.slots ∧
    (s.setRecord t r).nextOrder = s.nextOrder ∧ (s.setRecord t r).tiles = s.tiles ∧
    (s.setRecord t r).wakeHistory = s.wakeHistory ∧ (s.setRecord t r).historyWindowMs = s.historyWindowMs ∧
    (s.setRecord t r).wakePresented = s.wakePresented ∧ (s.setRecord t r).portA = s.portA ∧
    (s.setRecord t r).portB = s.portB ∧ (s.setRecord t r).waitList = s.waitList ∧
    (s.setRecord t r).stoppedReads = s.stoppedReads ∧ (s.setRecord t r).cutAccesses = s.cutAccesses ∧
    (s.setRecord t r).trig0 = s.trig0 ∧ (s.setRecord t r).trig1 = s.trig1 ∧ (s.setRecord t r).sync0 = s.sync0 ∧
    (s.setRecord t r).sync1 = s.sync1 ∧ (s.setRecord t r).choices = s.choices := by
  repeat' constructor

@[simp] theorem State.setRecord_reads (s : State) (t : TileNum) (r : RecordCtl) :
    (∀ q, (s.setRecord t r).port q = s.port q) ∧ (∀ d, (s.setRecord t r).walker d = s.walker d) ∧
    (∀ u, (s.setRecord t r).tile u = s.tile u) ∧ (∀ k, (s.setRecord t r).slot k = s.slot k) ∧
    (∀ k, (s.setRecord t r).job k = s.job k) := by
  exact ⟨fun q => by cases q <;> rfl, fun d => by cases d <;> rfl, fun _ => rfl, fun _ => rfl, fun _ => rfl⟩

@[simp] theorem State.modRecord_fields (s : State) (t : TileNum) (f : RecordCtl → RecordCtl) :
    (s.modRecord t f).pending = s.pending ∧ (s.modRecord t f).resetLow = s.resetLow ∧
    (s.modRecord t f).readBytes = s.readBytes ∧ (s.modRecord t f).cbaddr = s.cbaddr ∧
    (s.modRecord t f).notice = s.notice ∧ (s.modRecord t f).noticeEn = s.noticeEn ∧
    (s.modRecord t f).tileChg = s.tileChg ∧ (s.modRecord t f).now = s.now ∧ (s.modRecord t f).engine = s.engine ∧
    (s.modRecord t f).fault = s.fault ∧ (s.modRecord t f).cbRead = s.cbRead ∧
    (s.modRecord t f).settings = s.settings ∧ (s.modRecord t f).walkerN = s.walkerN ∧
    (s.modRecord t f).walkerP = s.walkerP ∧ (s.modRecord t f).slots = s.slots ∧
    (s.modRecord t f).nextOrder = s.nextOrder ∧ (s.modRecord t f).tiles = s.tiles ∧
    (s.modRecord t f).wakeHistory = s.wakeHistory ∧ (s.modRecord t f).historyWindowMs = s.historyWindowMs ∧
    (s.modRecord t f).wakePresented = s.wakePresented ∧ (s.modRecord t f).portA = s.portA ∧
    (s.modRecord t f).portB = s.portB ∧ (s.modRecord t f).waitList = s.waitList ∧
    (s.modRecord t f).stoppedReads = s.stoppedReads ∧ (s.modRecord t f).cutAccesses = s.cutAccesses ∧
    (s.modRecord t f).trig0 = s.trig0 ∧ (s.modRecord t f).trig1 = s.trig1 ∧ (s.modRecord t f).sync0 = s.sync0 ∧
    (s.modRecord t f).sync1 = s.sync1 ∧ (s.modRecord t f).choices = s.choices := by
  repeat' constructor

@[simp] theorem State.modRecord_reads (s : State) (t : TileNum) (f : RecordCtl → RecordCtl) :
    (∀ q, (s.modRecord t f).port q = s.port q) ∧ (∀ d, (s.modRecord t f).walker d = s.walker d) ∧
    (∀ u, (s.modRecord t f).tile u = s.tile u) ∧ (∀ k, (s.modRecord t f).slot k = s.slot k) ∧
    (∀ k, (s.modRecord t f).job k = s.job k) := by
  exact ⟨fun q => by cases q <;> rfl, fun d => by cases d <;> rfl, fun _ => rfl, fun _ => rfl, fun _ => rfl⟩

@[simp] theorem State.setSlot_fields (s : State) (i : SlotNum) (v : Slot) :
    (s.setSlot i v).pending = s.pending ∧ (s.setSlot i v).resetLow = s.resetLow ∧
    (s.setSlot i v).readBytes = s.readBytes ∧ (s.setSlot i v).cbaddr = s.cbaddr ∧ (s.setSlot i v).notice = s.notice ∧
    (s.setSlot i v).noticeEn = s.noticeEn ∧ (s.setSlot i v).tileChg = s.tileChg ∧ (s.setSlot i v).now = s.now ∧
    (s.setSlot i v).engine = s.engine ∧ (s.setSlot i v).fault = s.fault ∧ (s.setSlot i v).cbRead = s.cbRead ∧
    (s.setSlot i v).settings = s.settings ∧ (s.setSlot i v).walkerN = s.walkerN ∧
    (s.setSlot i v).walkerP = s.walkerP ∧ (s.setSlot i v).nextOrder = s.nextOrder ∧ (s.setSlot i v).tiles = s.tiles ∧
    (s.setSlot i v).records = s.records ∧ (s.setSlot i v).wakeHistory = s.wakeHistory ∧
    (s.setSlot i v).historyWindowMs = s.historyWindowMs ∧ (s.setSlot i v).wakePresented = s.wakePresented ∧
    (s.setSlot i v).portA = s.portA ∧ (s.setSlot i v).portB = s.portB ∧ (s.setSlot i v).waitList = s.waitList ∧
    (s.setSlot i v).stoppedReads = s.stoppedReads ∧ (s.setSlot i v).cutAccesses = s.cutAccesses ∧
    (s.setSlot i v).trig0 = s.trig0 ∧ (s.setSlot i v).trig1 = s.trig1 ∧ (s.setSlot i v).sync0 = s.sync0 ∧
    (s.setSlot i v).sync1 = s.sync1 ∧ (s.setSlot i v).choices = s.choices := by
  repeat' constructor

@[simp] theorem State.setSlot_reads (s : State) (i : SlotNum) (v : Slot) :
    (∀ q, (s.setSlot i v).port q = s.port q) ∧ (∀ d, (s.setSlot i v).walker d = s.walker d) ∧
    (∀ u, (s.setSlot i v).tile u = s.tile u) ∧ (∀ u, (s.setSlot i v).record u = s.record u) := by
  exact ⟨fun q => by cases q <;> rfl, fun d => by cases d <;> rfl, fun _ => rfl, fun _ => rfl⟩

@[simp] theorem State.modJob_fields (s : State) (i : SlotNum) (f : Job → Job) :
    (s.modJob i f).pending = s.pending ∧ (s.modJob i f).resetLow = s.resetLow ∧
    (s.modJob i f).readBytes = s.readBytes ∧ (s.modJob i f).cbaddr = s.cbaddr ∧ (s.modJob i f).notice = s.notice ∧
    (s.modJob i f).noticeEn = s.noticeEn ∧ (s.modJob i f).tileChg = s.tileChg ∧ (s.modJob i f).now = s.now ∧
    (s.modJob i f).engine = s.engine ∧ (s.modJob i f).fault = s.fault ∧ (s.modJob i f).cbRead = s.cbRead ∧
    (s.modJob i f).settings = s.settings ∧ (s.modJob i f).walkerN = s.walkerN ∧ (s.modJob i f).walkerP = s.walkerP ∧
    (s.modJob i f).nextOrder = s.nextOrder ∧ (s.modJob i f).tiles = s.tiles ∧ (s.modJob i f).records = s.records ∧
    (s.modJob i f).wakeHistory = s.wakeHistory ∧ (s.modJob i f).historyWindowMs = s.historyWindowMs ∧
    (s.modJob i f).wakePresented = s.wakePresented ∧ (s.modJob i f).portA = s.portA ∧
    (s.modJob i f).portB = s.portB ∧ (s.modJob i f).waitList = s.waitList ∧
    (s.modJob i f).stoppedReads = s.stoppedReads ∧ (s.modJob i f).cutAccesses = s.cutAccesses ∧
    (s.modJob i f).trig0 = s.trig0 ∧ (s.modJob i f).trig1 = s.trig1 ∧ (s.modJob i f).sync0 = s.sync0 ∧
    (s.modJob i f).sync1 = s.sync1 ∧ (s.modJob i f).choices = s.choices := by
  unfold State.modJob
  split <;> repeat' constructor

@[simp] theorem State.modJob_reads (s : State) (i : SlotNum) (f : Job → Job) :
    (∀ q, (s.modJob i f).port q = s.port q) ∧ (∀ d, (s.modJob i f).walker d = s.walker d) ∧
    (∀ u, (s.modJob i f).tile u = s.tile u) ∧ (∀ u, (s.modJob i f).record u = s.record u) := by
  unfold State.modJob
  split
  · exact ⟨fun q => by cases q <;> rfl, fun d => by cases d <;> rfl, fun _ => rfl, fun _ => rfl⟩
  · exact ⟨fun q => by cases q <;> rfl, fun d => by cases d <;> rfl, fun _ => rfl, fun _ => rfl⟩

@[simp] theorem State.raise_fields (s : State) (n : Notice) :
    (s.raise n).pending = s.pending ∧ (s.raise n).resetLow = s.resetLow ∧ (s.raise n).readBytes = s.readBytes ∧
    (s.raise n).cbaddr = s.cbaddr ∧ (s.raise n).noticeEn = s.noticeEn ∧ (s.raise n).tileChg = s.tileChg ∧
    (s.raise n).now = s.now ∧ (s.raise n).engine = s.engine ∧ (s.raise n).fault = s.fault ∧
    (s.raise n).cbRead = s.cbRead ∧ (s.raise n).settings = s.settings ∧ (s.raise n).walkerN = s.walkerN ∧
    (s.raise n).walkerP = s.walkerP ∧ (s.raise n).slots = s.slots ∧ (s.raise n).nextOrder = s.nextOrder ∧
    (s.raise n).tiles = s.tiles ∧ (s.raise n).records = s.records ∧ (s.raise n).wakeHistory = s.wakeHistory ∧
    (s.raise n).historyWindowMs = s.historyWindowMs ∧ (s.raise n).wakePresented = s.wakePresented ∧
    (s.raise n).portA = s.portA ∧ (s.raise n).portB = s.portB ∧ (s.raise n).waitList = s.waitList ∧
    (s.raise n).stoppedReads = s.stoppedReads ∧ (s.raise n).cutAccesses = s.cutAccesses ∧
    (s.raise n).trig0 = s.trig0 ∧ (s.raise n).trig1 = s.trig1 ∧ (s.raise n).sync0 = s.sync0 ∧
    (s.raise n).sync1 = s.sync1 ∧ (s.raise n).choices = s.choices := by
  repeat' constructor

@[simp] theorem State.raise_reads (s : State) (n : Notice) :
    (∀ q, (s.raise n).port q = s.port q) ∧ (∀ d, (s.raise n).walker d = s.walker d) ∧
    (∀ u, (s.raise n).tile u = s.tile u) ∧ (∀ u, (s.raise n).record u = s.record u) ∧
    (∀ k, (s.raise n).slot k = s.slot k) ∧ (∀ k, (s.raise n).job k = s.job k) := by
  exact ⟨fun q => by cases q <;> rfl, fun d => by cases d <;> rfl, fun _ => rfl, fun _ => rfl, fun _ => rfl, fun _ => rfl⟩

@[simp] theorem State.joinTileChg_fields (s : State) (t : TileNum) :
    (s.joinTileChg t).pending = s.pending ∧ (s.joinTileChg t).resetLow = s.resetLow ∧
    (s.joinTileChg t).readBytes = s.readBytes ∧ (s.joinTileChg t).cbaddr = s.cbaddr ∧
    (s.joinTileChg t).noticeEn = s.noticeEn ∧ (s.joinTileChg t).now = s.now ∧ (s.joinTileChg t).engine = s.engine ∧
    (s.joinTileChg t).fault = s.fault ∧ (s.joinTileChg t).cbRead = s.cbRead ∧
    (s.joinTileChg t).settings = s.settings ∧ (s.joinTileChg t).walkerN = s.walkerN ∧
    (s.joinTileChg t).walkerP = s.walkerP ∧ (s.joinTileChg t).slots = s.slots ∧
    (s.joinTileChg t).nextOrder = s.nextOrder ∧ (s.joinTileChg t).tiles = s.tiles ∧
    (s.joinTileChg t).records = s.records ∧ (s.joinTileChg t).wakeHistory = s.wakeHistory ∧
    (s.joinTileChg t).historyWindowMs = s.historyWindowMs ∧ (s.joinTileChg t).wakePresented = s.wakePresented ∧
    (s.joinTileChg t).portA = s.portA ∧ (s.joinTileChg t).portB = s.portB ∧ (s.joinTileChg t).waitList = s.waitList ∧
    (s.joinTileChg t).stoppedReads = s.stoppedReads ∧ (s.joinTileChg t).cutAccesses = s.cutAccesses ∧
    (s.joinTileChg t).trig0 = s.trig0 ∧ (s.joinTileChg t).trig1 = s.trig1 ∧ (s.joinTileChg t).sync0 = s.sync0 ∧
    (s.joinTileChg t).sync1 = s.sync1 ∧ (s.joinTileChg t).choices = s.choices := by
  repeat' constructor

@[simp] theorem State.joinTileChg_reads (s : State) (t : TileNum) :
    (∀ q, (s.joinTileChg t).port q = s.port q) ∧ (∀ d, (s.joinTileChg t).walker d = s.walker d) ∧
    (∀ u, (s.joinTileChg t).tile u = s.tile u) ∧ (∀ u, (s.joinTileChg t).record u = s.record u) ∧
    (∀ k, (s.joinTileChg t).slot k = s.slot k) ∧ (∀ k, (s.joinTileChg t).job k = s.job k) := by
  exact ⟨fun q => by cases q <;> rfl, fun d => by cases d <;> rfl, fun _ => rfl, fun _ => rfl, fun _ => rfl, fun _ => rfl⟩

/-! ## What the updated place holds -/

@[simp] theorem State.port_setPort (s : State) (p : PortId) (v : Port) : (s.setPort p v).port p = v := by
  cases p <;> rfl

theorem State.port_setPort_ne (s : State) {p q : PortId} (v : Port) (h : q ≠ p) : (s.setPort p v).port q = s.port q := by
  cases p <;> cases q <;> first | rfl | exact absurd rfl h

@[simp] theorem State.port_modPort (s : State) (p : PortId) (f : Port → Port) : (s.modPort p f).port p = f (s.port p) := by
  cases p <;> rfl

theorem State.port_modPort_ne (s : State) {p q : PortId} (f : Port → Port) (h : q ≠ p) :
    (s.modPort p f).port q = s.port q := State.port_setPort_ne s _ h

@[simp] theorem State.walker_setWalker (s : State) (c : Chain) (w : Walker) : (s.setWalker c w).walker c = w := by
  cases c <;> rfl

theorem State.walker_setWalker_ne (s : State) {c d : Chain} (w : Walker) (h : d ≠ c) :
    (s.setWalker c w).walker d = s.walker d := by
  cases c <;> cases d <;> first | rfl | exact absurd rfl h

@[simp] theorem State.walker_modWalker (s : State) (c : Chain) (f : Walker → Walker) :
    (s.modWalker c f).walker c = f (s.walker c) := by
  cases c <;> rfl

theorem State.walker_modWalker_ne (s : State) {c d : Chain} (f : Walker → Walker) (h : d ≠ c) :
    (s.modWalker c f).walker d = s.walker d := State.walker_setWalker_ne s _ h

theorem State.tile_setTile (s : State) (t u : TileNum) (e : TileEntry) :
    (s.setTile t e).tile u = if t = u then e else s.tile u := by
  simp only [State.tile, State.setTile, Fin.getElem_fin, Vector.getElem_set, Fin.val_inj]

@[simp] theorem State.tile_setTile_self (s : State) (t : TileNum) (e : TileEntry) : (s.setTile t e).tile t = e := by
  rw [State.tile_setTile, if_pos rfl]

theorem State.tile_modTile (s : State) (t u : TileNum) (f : TileEntry → TileEntry) :
    (s.modTile t f).tile u = if t = u then f (s.tile t) else s.tile u := State.tile_setTile s t u _

@[simp] theorem State.tile_modTile_self (s : State) (t : TileNum) (f : TileEntry → TileEntry) :
    (s.modTile t f).tile t = f (s.tile t) := State.tile_setTile_self s t _

theorem State.record_setRecord (s : State) (t u : TileNum) (r : RecordCtl) :
    (s.setRecord t r).record u = if t = u then r else s.record u := by
  simp only [State.record, State.setRecord, Fin.getElem_fin, Vector.getElem_set, Fin.val_inj]

@[simp] theorem State.record_setRecord_self (s : State) (t : TileNum) (r : RecordCtl) :
    (s.setRecord t r).record t = r := by
  rw [State.record_setRecord, if_pos rfl]

theorem State.record_modRecord (s : State) (t u : TileNum) (f : RecordCtl → RecordCtl) :
    (s.modRecord t f).record u = if t = u then f (s.record t) else s.record u := State.record_setRecord s t u _

@[simp] theorem State.record_modRecord_self (s : State) (t : TileNum) (f : RecordCtl → RecordCtl) :
    (s.modRecord t f).record t = f (s.record t) := State.record_setRecord_self s t _

theorem State.slot_setSlot (s : State) (i k : SlotNum) (v : Slot) :
    (s.setSlot i v).slot k = if i = k then v else s.slot k := by
  simp only [State.slot, State.setSlot, Fin.getElem_fin, Vector.getElem_set, Fin.val_inj]

@[simp] theorem State.slot_setSlot_self (s : State) (i : SlotNum) (v : Slot) : (s.setSlot i v).slot i = v := by
  rw [State.slot_setSlot, if_pos rfl]

theorem State.job_setSlot (s : State) (i k : SlotNum) (v : Slot) :
    (s.setSlot i v).job k = if i = k then v.job? else s.job k := by
  unfold State.job
  rw [State.slot_setSlot]
  split <;> rfl

theorem State.slot_modJob (s : State) (i k : SlotNum) (f : Job → Job) :
    (s.modJob i f).slot k = if i = k then (match s.slot i with | .job j => .job (f j) | v => v) else s.slot k := by
  unfold State.modJob State.job Slot.job?
  by_cases h : i = k
  · subst h
    cases hs : s.slot i <;> simp [hs]
  · cases hs : s.slot i <;> simp [h, State.slot_setSlot]

theorem State.job_modJob (s : State) (i k : SlotNum) (f : Job → Job) :
    (s.modJob i f).job k = if i = k then (s.job i).map f else s.job k := by
  unfold State.job
  rw [State.slot_modJob]
  by_cases h : i = k
  · subst h
    cases s.slot i <;> simp [Slot.job?]
  · simp [h]

end Sys2Proof.Machine
end

