-- ==== Sys2Proof/Laws/JobFrame.lean ====
section
/-! SUPPORT. Everything the Job Engine's part in the end of an event can do (`settle`), said once as a relation between the
state before and after it. -/

namespace Sys2Proof.Machine

/-- What `settle` and each of its pieces leaves, and what it keeps of what it changes. -/
structure JobFrame (s t : State) : Prop where
  rest : t.eraseJobs = s.eraseJobs
  tile : ∀ u, (t.tile u).eraseWork = (s.tile u).eraseWork
  empty : ∀ i, (s.slot i).job? = none → t.slot i = s.slot i
  slot : s.fatal = false → ∀ i, (t.slot i).erase = (s.slot i).erase
  still : ∀ i j, s.job i = some j → j.phase.isRunning = false → ∃ j', t.job i = some j' ∧ j'.still = j.still
  sync0 : s.sync0 = true → t.sync0 = true
  sync1 : s.sync1 = true → t.sync1 = true

namespace JobFrame

variable {s t r : State}

theorem refl (s : State) : JobFrame s s :=
  ⟨rfl, fun _ => rfl, fun _ _ => rfl, fun _ _ => rfl, fun _ j h _ => ⟨j, h, rfl⟩, id, id⟩

theorem pending (h : JobFrame s t) : t.pending = s.pending := (congrArg State.pending h.rest :)
theorem resetLow (h : JobFrame s t) : t.resetLow = s.resetLow := (congrArg State.resetLow h.rest :)
theorem readBytes (h : JobFrame s t) : t.readBytes = s.readBytes := (congrArg State.readBytes h.rest :)
theorem cbaddr (h : JobFrame s t) : t.cbaddr = s.cbaddr := (congrArg State.cbaddr h.rest :)
theorem notice (h : JobFrame s t) : t.notice = s.notice := (congrArg State.notice h.rest :)
theorem noticeEn (h : JobFrame s t) : t.noticeEn = s.noticeEn := (congrArg State.noticeEn h.rest :)
theorem tileChg (h : JobFrame s t) : t.tileChg = s.tileChg := (congrArg State.tileChg h.rest :)
theorem now (h : JobFrame s t) : t.now = s.now := (congrArg State.now h.rest :)
theorem engine (h : JobFrame s t) : t.engine = s.engine := (congrArg State.engine h.rest :)
theorem fault (h : JobFrame s t) : t.fault = s.fault := (congrArg State.fault h.rest :)
theorem cbRead (h : JobFrame s t) : t.cbRead = s.cbRead := (congrArg State.cbRead h.rest :)
theorem settings (h : JobFrame s t) : t.settings = s.settings := (congrArg State.settings h.rest :)
theorem walkerN (h : JobFrame s t) : t.walkerN = s.walkerN := (congrArg State.walkerN h.rest :)
theorem walkerP (h : JobFrame s t) : t.walkerP = s.walkerP := (congrArg State.walkerP h.rest :)
theorem nextOrder (h : JobFrame s t) : t.nextOrder = s.nextOrder := (congrArg State.nextOrder h.rest :)
theorem records (h : JobFrame s t) : t.records = s.records := (congrArg State.records h.rest :)
theorem wakeHistory (h : JobFrame s t) : t.wakeHistory = s.wakeHistory := (congrArg State.wakeHistory h.rest :)
theorem historyWindowMs (h : JobFrame s t) : t.historyWindowMs = s.historyWindowMs :=
  (congrArg State.historyWindowMs h.rest :)
theorem stoppedReads (h : JobFrame s t) : t.stoppedReads = s.stoppedReads := (congrArg State.stoppedReads h.rest :)
theorem wakePresented (h : JobFrame s t) : t.wakePresented = s.wakePresented := (congrArg State.wakePresented h.rest :)
theorem portA (h : JobFrame s t) : t.portA = s.portA := (congrArg State.portA h.rest :)
theorem portB (h : JobFrame s t) : t.portB = s.portB := (congrArg State.portB h.rest :)
theorem trig0 (h : JobFrame s t) : t.trig0 = s.trig0 := (congrArg State.trig0 h.rest :)
theorem trig1 (h : JobFrame s t) : t.trig1 = s.trig1 := (congrArg State.trig1 h.rest :)

theorem fatal (h : JobFrame s t) : t.fatal = s.fatal := by
  unfold State.fatal
  rw [h.engine, h.fault]

theorem port (h : JobFrame s t) (p : PortId) : t.port p = s.port p := by
  cases p
  · exact h.portA
  · exact h.portB

theorem walker (h : JobFrame s t) (c : Chain) : t.walker c = s.walker c := by
  cases c
  · exact h.walkerN
  · exact h.walkerP

theorem record (h : JobFrame s t) (u : TileNum) : t.record u = s.record u := by
  unfold State.record
  rw [h.records]

theorem tileState (h : JobFrame s t) (u : TileNum) : (t.tile u).state = (s.tile u).state :=
  (congrArg TileEntry.state (h.tile u) :)

theorem trans (h : JobFrame s t) (g : JobFrame t r) : JobFrame s r where
  rest := g.rest.trans h.rest
  tile u := (g.tile u).trans (h.tile u)
  empty i hi := (g.empty i (by rw [h.empty i hi]; exact hi)).trans (h.empty i hi)
  slot hf i := (g.slot (by rw [h.fatal]; exact hf) i).trans (h.slot hf i)
  still i j hj hr := by
    obtain ⟨j', hj', e⟩ := h.still i j hj hr
    have hr' : j'.phase.isRunning = false := by
      have := congrArg (fun x : Job => x.phase.isRunning) e
      exact this.trans hr
    obtain ⟨j'', hj'', e'⟩ := g.still i j' hj' hr'
    exact ⟨j'', hj'', e'.trans e⟩
  sync0 := g.sync0 ∘ h.sync0
  sync1 := g.sync1 ∘ h.sync1

theorem foldl {α : Type} {f : State → α → State} (hf : ∀ s a, JobFrame s (f s a)) (l : List α) (s : State) :
    JobFrame s (l.foldl f s) := by
  induction l generalizing s with
  | nil => exact refl s
  | cons a l ih => exact (hf s a).trans (ih (f s a))

/-- A step that touches nothing but one tile entry's work. -/
theorem modTile (s : State) (t : TileNum) {f : TileEntry → TileEntry} (hf : ∀ e, (f e).eraseWork = e.eraseWork) :
    JobFrame s (s.modTile t f) where
  rest := rfl
  tile u := by
    rw [State.tile_modTile]
    split
    · next h => rw [← h]; exact hf _
    · rfl
  empty _ _ := rfl
  slot _ _ := rfl
  still _ j hj _ := ⟨j, hj, rfl⟩
  sync0 := id
  sync1 := id

/-- A step that touches nothing but one job, and of a job that does not run not even its phase. -/
theorem modJob (s : State) (i : SlotNum) {f : Job → Job}
    (hf : ∀ j, s.job i = some j → (f j).idn = j.idn ∧ (j.phase.isRunning = false → (f j).still = j.still)) :
    JobFrame s (s.modJob i f) where
  rest := by
    unfold State.modJob
    split <;> rfl
  tile u := by rw [(State.modJob_reads s i f).2.2.1]
  empty k hk := by
    rw [State.slot_modJob]
    split
    · next h => subst h; cases hs : s.slot i <;> simp_all [Slot.job?]
    · rfl
  slot _ k := by
    rw [State.slot_modJob]
    split
    · next h =>
      subst h
      cases hs : s.slot i with
      | job j => exact congrArg Slot.job (hf j (by unfold State.job; rw [hs]; rfl)).1
      | _ => rfl
    · rfl
  still k j hj hr := by
    rw [State.job_modJob]
    split
    · next h => subst h; rw [hj]; exact ⟨f j, rfl, (hf j hj).2 hr⟩
    · exact ⟨j, hj, rfl⟩
  sync0 := by simp
  sync1 := by simp

/-- A change of the wait list alone. -/
theorem setWaits (s : State) (l : List WaitEntry) : JobFrame s { s with waitList := l } :=
  ⟨rfl, fun _ => rfl, fun _ _ => rfl, fun _ _ => rfl, fun _ j h _ => ⟨j, h, rfl⟩, id, id⟩

end JobFrame

/-! ## The pieces of `settle` -/

theorem State.failPart_frame (s : State) (i : SlotNum) (t : TileNum) (c : ErrorCode) : JobFrame s (s.failPart i t c) := by
  unfold State.failPart
  split
  · exact JobFrame.refl s
  · split
    · exact JobFrame.refl s
    · have h1 : JobFrame s (s.markError t c) := by
        unfold State.markError
        split
        · exact JobFrame.modTile s t (fun _ => rfl)
        · exact JobFrame.refl s
      refine (h1.trans (JobFrame.modTile _ t fun e => ?_)).trans (JobFrame.modJob _ i fun j _ => ⟨rfl, fun _ => rfl⟩)
      unfold TileEntry.failStream
      split
      · split <;> rfl
      · rfl

theorem State.markError_frame (s : State) (t : TileNum) (c : ErrorCode) : JobFrame s (s.markError t c) := by
  unfold State.markError
  split
  · exact JobFrame.modTile s t (fun _ => rfl)
  · exact JobFrame.refl s

theorem State.completePart_frame (s : State) (i : SlotNum) (t : TileNum) : JobFrame s (s.completePart i t) := by
  unfold State.completePart
  split
  · exact JobFrame.refl s
  · split
    · exact JobFrame.refl s
    · split
      · exact JobFrame.refl s
      · dsimp only
        have h1 : JobFrame s (s.modJob i (fun j => j.dropPart t)) := JobFrame.modJob s i fun j _ => ⟨rfl, fun _ => rfl⟩
        split
        · exact h1.trans (JobFrame.modTile _ t fun _ => rfl)
        · exact h1

/-- A job that runs goes to DRAINING: the frame, and that it drains. -/
theorem State.enterDraining_frame (s : State) (i : SlotNum) (h : ∀ j, s.job i = some j → j.phase.isRunning = true) :
    JobFrame s (s.enterDraining i) := by
  unfold State.enterDraining
  refine JobFrame.trans ?_ (JobFrame.setWaits _ _)
  refine JobFrame.modJob s i fun j hj => ⟨rfl, fun hr => ?_⟩
  rw [h j hj] at hr
  exact absurd hr (by decide)

theorem State.enterRetiring_frame (s : State) (i : SlotNum) (cause : RetireCause)
    (h : ∀ j, s.job i = some j → j.phase.isRunning = true) : JobFrame s (s.enterRetiring i cause) := by
  unfold State.enterRetiring
  split
  · exact JobFrame.refl s
  · next j hj =>
    have hs : s.slot i = .job j := by
      unfold State.job at hj
      cases hv : s.slot i <;> simp_all [Slot.job?]
    split
    · next hf =>
      refine ⟨rfl, fun _ => rfl, fun k hk => ?_, fun h' => ?_, fun k j' hj' hr => ?_, id, id⟩
      · rw [State.slot_setSlot]
        split
        · next e => subst e; rw [hs] at hk; exact absurd hk (by simp [Slot.job?])
        · rfl
      · rw [h'] at hf; exact absurd hf (by decide)
      · rw [State.job_setSlot]
        split
        · next e => subst e; rw [h j' hj'] at hr; exact absurd hr (by decide)
        · exact ⟨j', hj', rfl⟩
    · refine ⟨rfl, fun _ => rfl, fun k hk => ?_, fun h' k => ?_, fun k j' hj' hr => ?_, id, id⟩
      · rw [State.slot_setSlot]
        split
        · next e => subst e; rw [hs] at hk; exact absurd hk (by simp [Slot.job?])
        · rfl
      · rw [State.slot_setSlot]
        split
        · next e => subst e; rw [hs]; rfl
        · rfl
      · rw [State.job_setSlot]
        split
        · next e => subst e; rw [h j' hj'] at hr; exact absurd hr (by decide)
        · exact ⟨j', hj', rfl⟩

theorem State.tidy_frame (s : State) (i : SlotNum) (g : TilePart → Option TilePart) :
    JobFrame s (s.modJob i (fun j => { j with parts := j.parts.filterMap g })) :=
  JobFrame.modJob s i fun _ _ => ⟨rfl, fun _ => rfl⟩

theorem State.resolveSlot_frame (s : State) (i : SlotNum) : JobFrame s (s.resolveSlot i) := by
  unfold State.resolveSlot
  split
  · exact JobFrame.refl s
  · next j hj =>
    dsimp only
    split
    · next hrun _ =>
      have noStill {p : Prop} (j' : Job) (hj' : s.job i = some j') (hr : j'.phase.isRunning = false) : p := by
        rw [hj] at hj'
        cases hj'
        rw [hrun] at hr
        exact absurd hr (by decide)
      split
      · refine JobFrame.trans ?_ (State.tidy_frame _ i _)
        exact JobFrame.modJob s i fun j' hj' => ⟨rfl, noStill j' hj'⟩
      · refine JobFrame.trans ?_ (State.tidy_frame _ i _)
        refine JobFrame.trans ?_ (State.enterDraining_frame _ i fun j' hj' => ?_)
        · exact JobFrame.modJob s i fun j' hj' => ⟨rfl, noStill j' hj'⟩
        · rw [State.job_modJob, if_pos rfl, hj] at hj'
          cases hj'
          exact hrun
    · exact State.tidy_frame s i _

/-- What a job that enters DRAINING keeps of a tile part: none that is a candidate, waits or has joined; a candidate as issued
or withdrawn; a failed one as it is (R36, R39). -/
theorem withdrawPart_cases {inFlight : Bool} {q q' : TilePart} (h : withdrawPart inFlight q = some q') :
    q'.tile = q.tile ∧ q'.cond ≠ .candidate ∧ q'.cond ≠ .waiting ∧ q'.cond ≠ .joined ∧
      (q.cond = .candidate → q' = ⟨q.tile, if inFlight then .issued else .withdrawn, .empty⟩) ∧
      (q.cond.hasFailed = true → q' = q) := by
  rcases q with ⟨t, c, g⟩
  cases c <;> cases inFlight <;> simp [withdrawPart, PartCond.hasFailed] at h ⊢ <;> subst h <;> simp

theorem State.resolveAll_frame (s : State) : JobFrame s s.resolveAll :=
  JobFrame.foldl State.resolveSlot_frame _ s

theorem State.rejudgePart_frame (s : State) (i : SlotNum) (t : TileNum) : JobFrame s (s.rejudgePart i t) := by
  have put (c : PartCond) (g : Staging) :
      JobFrame s (s.modJob i (fun j => j.setPart t (fun q => { q with cond := c, staging := g }))) :=
    JobFrame.modJob s i fun _ _ => ⟨rfl, fun _ => rfl⟩
  unfold State.rejudgePart
  split
  · exact JobFrame.refl s
  · split
    · dsimp only
      split
      · split
        · exact State.failPart_frame s i t _
        · exact JobFrame.refl s
        · exact put _ _
        · exact put _ _
        · exact State.completePart_frame s i t
      · split
        · exact State.failPart_frame s i t _
        · exact put _ _
        · exact put _ _
        · exact put _ _
        · exact State.completePart_frame s i t
      · split
        · exact State.failPart_frame s i t _
        · exact put _ _
        · exact put _ _
        · exact put _ _
        · exact State.completePart_frame s i t
      · split
        · split
          · exact State.failPart_frame s i t _
          · exact JobFrame.refl s
        · exact JobFrame.refl s
      · exact JobFrame.refl s
      · exact JobFrame.refl s
      · exact JobFrame.refl s
    · exact JobFrame.refl s

theorem State.rejudgeTile_frame (s : State) (t : TileNum) : JobFrame s (s.rejudgeTile t) :=
  JobFrame.foldl (fun s i => State.rejudgePart_frame s i t) _ s

theorem State.rejudgeChanged_frame (before s : State) : JobFrame s (State.rejudgeChanged before s) := by
  refine JobFrame.foldl (fun s t => ?_) _ s
  split
  · exact JobFrame.refl s
  · exact State.rejudgeTile_frame s t

theorem State.rejudgePowerWaits_frame (s : State) (t : TileNum) : JobFrame s (s.rejudgePowerWaits t) := by
  refine JobFrame.foldl (fun s i => ?_) _ s
  split
  · exact JobFrame.refl s
  · split
    · split
      · exact State.rejudgePart_frame s i t
      · exact JobFrame.refl s
    · exact JobFrame.refl s

theorem State.occur_frame (s : State) (src : EventSource) : JobFrame s (s.occur src) := by
  unfold State.occur
  dsimp only
  refine JobFrame.trans ?_ (JobFrame.foldl (fun s w => ?_) _ _)
  · exact ⟨rfl, fun _ => rfl, fun _ _ => rfl, fun _ _ => rfl, fun _ j h _ => ⟨j, h, rfl⟩,
      fun h => by simp [h], fun h => by simp [h]⟩
  · exact JobFrame.modJob s _ fun _ _ => ⟨rfl, fun _ => rfl⟩

theorem State.startPart_frame (s : State) (i : SlotNum) (st : Step) (t : TileNum) : JobFrame s (s.startPart i st t) := by
  have h0 : JobFrame s (s.modTile t (fun e => { e with armed := false })) := JobFrame.modTile s t fun _ => rfl
  have add (r : State) (hr : JobFrame s r) (c : PartCond) (g : Staging) :
      JobFrame s (r.modJob i (fun j => { j with parts := j.parts ++ [⟨t, c, g⟩] })) :=
    hr.trans (JobFrame.modJob r i fun _ _ => ⟨rfl, fun _ => rfl⟩)
  unfold State.startPart
  dsimp only
  split
  · exact add _ (h0.trans (State.markError_frame _ t _)) _ _
  · exact add _ h0 _ _
  · exact add _ h0 _ _
  · exact add _ h0 _ _
  · exact h0

theorem State.stepCurrent_frame (s : State) (i : SlotNum) : JobFrame s (s.stepCurrent i) := by
  unfold State.stepCurrent
  split
  · exact JobFrame.refl s
  · next st _ =>
    split
    · split
      · exact JobFrame.setWaits _ _
      · exact JobFrame.refl s
    · exact JobFrame.modJob s i fun _ _ => ⟨rfl, fun _ => rfl⟩
    · exact (State.occur_frame s _).trans (JobFrame.modJob _ i fun _ _ => ⟨rfl, fun _ => rfl⟩)
    · exact (JobFrame.foldl (fun s t => State.startPart_frame s i st t) _ s).trans (State.resolveSlot_frame _ i)

theorem State.completeStep_frame (s : State) (i : SlotNum) (h : ∀ j, s.job i = some j → j.phase.isRunning = true) :
    JobFrame s (s.completeStep i) := by
  unfold State.completeStep
  split
  · exact JobFrame.refl s
  · next j hj =>
    dsimp only
    have hrun := h j hj
    have h1 : JobFrame s (s.modJob i (fun j => { j with stepsDone := j.stepsDone + 1, engineDone := false })) :=
      JobFrame.modJob s i fun j' hj' => ⟨rfl, fun hr => by rw [h j' hj'] at hr; exact absurd hr (by decide)⟩
    have run1 : ∀ j', (s.modJob i (fun j => { j with stepsDone := j.stepsDone + 1, engineDone := false })).job i = some j' →
        j'.phase.isRunning = true := by
      intro j' hj'
      rw [State.job_modJob, if_pos rfl, hj] at hj'
      cases hj'
      exact hrun
    split
    · refine JobFrame.trans ?_ (State.stepCurrent_frame _ i)
      refine h1.trans ?_
      refine JobFrame.modJob _ i fun j' hj' => ⟨rfl, fun hr => ?_⟩
      rw [run1 j' hj'] at hr
      exact absurd hr (by decide)
    · exact h1.trans (State.enterRetiring_frame _ i _ run1)

theorem State.running_of_ready {s : State} {i : SlotNum} (h : i ∈ s.readySlots) :
    ∀ j, s.job i = some j → j.phase.isRunning = true := by
  intro j hj
  have h2 := (List.mem_filter.1 h).2
  rw [hj] at h2
  unfold Job.stepOver at h2
  simp only [Bool.and_eq_true] at h2
  exact h2.1

theorem State.ready_of_next {s : State} {i : SlotNum} (h : i ∈ s.nextSlots) : i ∈ s.readySlots := by
  unfold State.nextSlots at h
  split at h
  · exact h
  · exact (List.mem_filter.1 h).1

/-- Some job can go on next as long as one stands ready. -/
theorem State.nextSlots_eq_nil {s : State} : s.nextSlots = [] ↔ s.readySlots = [] := by
  unfold State.nextSlots
  split
  · exact Iff.rfl
  · next l hl =>
    refine ⟨fun h => absurd h hl, fun h => ?_⟩
    rw [h] at hl
    exact absurd rfl hl

/-- While a WAIT is over, only WAITs go on. -/
theorem State.nextSlots_wait {s : State} {i k : SlotNum} (hi : i ∈ s.nextSlots) (hk : k ∈ s.readySlots)
    (hw : s.atWait k = true) : s.atWait i = true := by
  unfold State.nextSlots at hi
  split at hi
  · next h => exact absurd (List.mem_filter.2 ⟨hk, hw⟩) (by rw [h]; exact List.not_mem_nil)
  · exact (List.mem_filter.1 hi).2

theorem List.getD_mod_mem {α : Type} (a : α) (l : List α) (n : Nat) : (a :: l).getD (n % (a :: l).length) a ∈ a :: l := by
  have h : n % (a :: l).length < (a :: l).length := Nat.mod_lt _ (by simp)
  rw [List.getD_eq_getElem?_getD, List.getElem?_eq_getElem h]
  exact List.getElem_mem h

theorem State.advance_frame (n : Nat) (s : State) : JobFrame s (State.advance n s) := by
  induction n generalizing s with
  | zero => exact JobFrame.refl s
  | succ n ih =>
    unfold State.advance
    split
    · exact JobFrame.refl s
    · next i h =>
      exact (State.completeStep_frame s i (State.running_of_ready (State.ready_of_next (by rw [h]; simp)))).trans (ih _)
    · next i j rest h =>
      dsimp only
      have h0 : JobFrame s { s with choices := s.choices + 1 } :=
        ⟨rfl, fun _ => rfl, fun _ _ => rfl, fun _ _ => rfl, fun _ j h _ => ⟨j, h, rfl⟩, id, id⟩
      refine (h0.trans (State.completeStep_frame _ _ fun j' hj' => ?_)).trans (ih _)
      exact State.running_of_ready (s := s) (State.ready_of_next (by rw [h]; exact List.getD_mod_mem _ _ _)) j' hj'

theorem State.closeStreams_frame (s : State) : JobFrame s s.closeStreams := by
  refine JobFrame.foldl (fun s t => ?_) _ s
  unfold State.closeStream
  split
  · exact JobFrame.refl s
  · split
    · exact JobFrame.refl s
    · exact JobFrame.modTile s t fun _ => rfl

/-- What the Job Engine's part in the end of an event keeps. -/
theorem settle_frame (before s : State) : JobFrame s (settle before s) := by
  unfold settle
  exact (((State.rejudgeChanged_frame before s).trans (State.resolveAll_frame _)).trans
    (State.closeStreams_frame _)).trans (State.advance_frame _ _)

end Sys2Proof.Machine
end

