-- ==== Sys2Proof/Laws/EventFrame.lean ====
section
/-! SUPPORT. Everything the end of an event can do (`commit` and `finish`), said once as a relation between the state before
and after it. -/

namespace Sys2Proof.Machine

namespace EventFrame

variable {s t r : State}

theorem refl (s : State) : EventFrame s s :=
  ⟨rfl, fun _ => rfl, fun _ => rfl, fun _ => id, fun _ => id, id, fun _ _ => rfl, fun _ _ => rfl,
    fun _ j h _ => ⟨j, h, rfl⟩, id, id, [], (List.append_nil _).symm⟩

theorem ofJob (h : JobFrame s t) : EventFrame s t where
  rest := by
    have e := h.rest
    have n := h.notice
    unfold State.eraseEvent
    rw [e, n]
  tile := h.tile
  record u := by rw [h.record]
  mark u := by rw [h.record]; exact id
  chg n := by rw [h.tileChg]; exact id
  tileNotice := by rw [h.notice]; exact id
  empty := h.empty
  slot := h.slot
  still := h.still
  sync0 := h.sync0
  sync1 := h.sync1
  stopped := ⟨[], by rw [h.stoppedReads, List.append_nil]⟩

theorem pending (h : EventFrame s t) : t.pending = s.pending := (congrArg State.pending h.rest :)
theorem resetLow (h : EventFrame s t) : t.resetLow = s.resetLow := (congrArg State.resetLow h.rest :)
theorem readBytes (h : EventFrame s t) : t.readBytes = s.readBytes := (congrArg State.readBytes h.rest :)
theorem cbaddr (h : EventFrame s t) : t.cbaddr = s.cbaddr := (congrArg State.cbaddr h.rest :)
theorem noticeEn (h : EventFrame s t) : t.noticeEn = s.noticeEn := (congrArg State.noticeEn h.rest :)
theorem now (h : EventFrame s t) : t.now = s.now := (congrArg State.now h.rest :)
theorem engine (h : EventFrame s t) : t.engine = s.engine := (congrArg State.engine h.rest :)
theorem fault (h : EventFrame s t) : t.fault = s.fault := (congrArg State.fault h.rest :)
theorem cbRead (h : EventFrame s t) : t.cbRead = s.cbRead := (congrArg State.cbRead h.rest :)
theorem settings (h : EventFrame s t) : t.settings = s.settings := (congrArg State.settings h.rest :)
theorem walkerN (h : EventFrame s t) : t.walkerN = s.walkerN := (congrArg State.walkerN h.rest :)
theorem walkerP (h : EventFrame s t) : t.walkerP = s.walkerP := (congrArg State.walkerP h.rest :)
theorem nextOrder (h : EventFrame s t) : t.nextOrder = s.nextOrder := (congrArg State.nextOrder h.rest :)
theorem wakeHistory (h : EventFrame s t) : t.wakeHistory = s.wakeHistory := (congrArg State.wakeHistory h.rest :)
theorem historyWindowMs (h : EventFrame s t) : t.historyWindowMs = s.historyWindowMs :=
  (congrArg State.historyWindowMs h.rest :)
theorem portA (h : EventFrame s t) : t.portA = s.portA := (congrArg State.portA h.rest :)
theorem portB (h : EventFrame s t) : t.portB = s.portB := (congrArg State.portB h.rest :)
theorem trig0 (h : EventFrame s t) : t.trig0 = s.trig0 := (congrArg State.trig0 h.rest :)
theorem trig1 (h : EventFrame s t) : t.trig1 = s.trig1 := (congrArg State.trig1 h.rest :)

/-- Of the notices only TILE can rise. -/
theorem notice (h : EventFrame s t) : t.notice = { s.notice with tile := t.notice.tile } := by
  have e : ({ t.notice with tile := false } : NoticeSet) = { s.notice with tile := false } :=
    (congrArg State.notice h.rest :)
  have := congrArg (fun n : NoticeSet => { n with tile := t.notice.tile }) e
  exact this

theorem fatal (h : EventFrame s t) : t.fatal = s.fatal := by
  unfold State.fatal
  rw [h.engine, h.fault]

theorem port (h : EventFrame s t) (p : PortId) : t.port p = s.port p := by
  cases p
  · exact h.portA
  · exact h.portB

theorem walker (h : EventFrame s t) (c : Chain) : t.walker c = s.walker c := by
  cases c
  · exact h.walkerN
  · exact h.walkerP

theorem trans (h : EventFrame s t) (g : EventFrame t r) : EventFrame s r where
  rest := g.rest.trans h.rest
  tile u := (g.tile u).trans (h.tile u)
  record u := (g.record u).trans (h.record u)
  mark u := g.mark u ∘ h.mark u
  chg n := g.chg n ∘ h.chg n
  tileNotice := g.tileNotice ∘ h.tileNotice
  empty i hi := (g.empty i (by rw [h.empty i hi]; exact hi)).trans (h.empty i hi)
  slot hf i := (g.slot (by rw [h.fatal]; exact hf) i).trans (h.slot hf i)
  still i j hj hr := by
    obtain ⟨j', hj', e⟩ := h.still i j hj hr
    have hr' : j'.phase.isRunning = false := by
      have := congrArg (fun x : Job => x.phase.isRunning) e
      exact this.trans hr
    obtain ⟨j'', hj'', e'⟩ := g.still i j' hj' hr'
    exact ⟨j'', hj'', e'.trans e⟩
  sync0 := g.sync0 ∘ h.sync0
  sync1 := g.sync1 ∘ h.sync1
  stopped := by
    obtain ⟨k, hk⟩ := h.stopped
    obtain ⟨l, hl⟩ := g.stopped
    exact ⟨k ++ l, by rw [hl, hk, List.append_assoc]⟩

theorem foldl {α : Type} {f : State → α → State} (hf : ∀ s a, EventFrame s (f s a)) (l : List α) (s : State) :
    EventFrame s (l.foldl f s) := by
  induction l generalizing s with
  | nil => exact refl s
  | cons a l ih => exact (hf s a).trans (ih (f s a))

end EventFrame

theorem State.joinTileChg_frame (s : State) (t : TileNum) : EventFrame s (s.joinTileChg t) where
  rest := rfl
  tile _ := rfl
  record _ := rfl
  mark _ := id
  chg n h := by
    show (s.tileChg ||| (1#24 <<< t.val)).getLsbD n = true
    rw [BitVec.getLsbD_or, h]
    rfl
  tileNotice _ := rfl
  empty _ _ := rfl
  slot _ _ := rfl
  still _ j h _ := ⟨j, h, rfl⟩
  sync0 := id
  sync1 := id
  stopped := ⟨[], (List.append_nil _).symm⟩

theorem State.recordChange_frame (s : State) (t : TileNum) : EventFrame s (s.recordChange t) := by
  unfold State.recordChange
  split
  · refine ⟨rfl, fun _ => rfl, fun u => ?_, fun u h => ?_, fun _ => id, id, fun _ _ => rfl, fun _ _ => rfl,
      fun _ j h _ => ⟨j, h, rfl⟩, id, id, [], (List.append_nil _).symm⟩
    · rw [State.record_modRecord]
      split
      · next h => subst h; rfl
      · rfl
    · rw [State.record_modRecord]
      split
      · rfl
      · exact h
  · exact State.joinTileChg_frame s t

theorem State.noteRecordChanges_frame (before s : State) : EventFrame s (State.noteRecordChanges before s) := by
  refine EventFrame.foldl (fun s t => ?_) _ s
  split
  · exact EventFrame.refl s
  · exact State.recordChange_frame s t

theorem State.examineWakes_frame (s : State) : EventFrame s s.examineWakes :=
  ⟨rfl, fun _ => rfl, fun _ => rfl, fun _ => id, fun _ => id, id, fun _ _ => rfl, fun _ _ => rfl,
    fun _ j h _ => ⟨j, h, rfl⟩, id, id, [], (List.append_nil _).symm⟩

theorem State.keepStoppedReads_frame (before s : State) : EventFrame s (State.keepStoppedReads before s) :=
  ⟨rfl, fun _ => rfl, fun _ => rfl, fun _ => id, fun _ => id, id, fun _ _ => rfl, fun _ _ => rfl,
    fun _ j h _ => ⟨j, h, rfl⟩, id, id, _, rfl⟩

/-- What the System Port's, the Tile Manager's and the Wake Budget Unit's part in the end of an event keeps. -/
theorem commit_frame (before s : State) : EventFrame s (commit before s) := by
  have h := (State.keepStoppedReads_frame before s).trans (State.noteRecordChanges_frame before _)
  unfold commit
  dsimp only
  split
  · exact h.trans (State.examineWakes_frame _)
  · exact h

/-- What the end of an event keeps. -/
theorem finish_frame (before s : State) : EventFrame s (finish before s) :=
  (EventFrame.ofJob (settle_frame before s)).trans (commit_frame before _)

/-! ## Marks and joins at a record change (R18, R21) -/

theorem State.recordChange_marks (s : State) (t : TileNum) :
    (s.marksRewrites = true → ((s.recordChange t).record t).markChange = true) ∧
    (s.marksRewrites = false → (s.recordChange t).tileChg.getLsbD t.val = true ∧ (s.recordChange t).notice.tile = true) := by
  constructor
  · intro h
    unfold State.recordChange
    rw [if_pos h, State.record_modRecord_self]
  · intro h
    unfold State.recordChange
    rw [if_neg (by rw [h]; decide)]
    refine ⟨?_, rfl⟩
    show (s.tileChg ||| (1#24 <<< t.val)).getLsbD t.val = true
    rw [BitVec.getLsbD_or]
    simp [t.isLt]

end Sys2Proof.Machine
end

