-- ==== Sys2Proof/Laws/Body.lean ====
section
/-! SUPPORT. What the operations over ports, tiles, jobs and records leave alone: the body of the state (registers, engine,
settings, walkers, Timebase, wake history, pins), read through one function so that `simp` carries it through every
composition. -/

namespace Sys2Proof.Machine

/-- The state with its ports, tiles, jobs, records, notices and their helpers blanked. -/
def State.body (s : State) : State :=
  { s.eraseEvent with notice := NoticeSet.clear, portA := Port.reset, portB := Port.reset }

/-- The body with the engine and the walkers blanked as well. -/
def State.outer (s : State) : State :=
  { s.body with
    engine := .off, fault := .none, cbRead := false, cutAccesses := [],
    walkerN := Walker.reset, walkerP := Walker.reset, nextOrder := 0 }

theorem foldl_keeps {α β : Type} {f : State → α → State} (g : State → β) (hf : ∀ s a, g (f s a) = g s) (l : List α)
    (s : State) : g (l.foldl f s) = g s := by
  induction l generalizing s with
  | nil => rfl
  | cons a l ih => exact (ih (f s a)).trans (hf s a)

theorem State.outer_of_body {s t : State} (h : t.body = s.body) : t.outer = s.outer := (congrArg State.outer h :)

/-! ## Reading fields back -/

section
variable {s t : State}
theorem State.engine_of_body (h : t.body = s.body) : t.engine = s.engine := (congrArg State.engine h :)
theorem State.fault_of_body (h : t.body = s.body) : t.fault = s.fault := (congrArg State.fault h :)
theorem State.settings_of_body (h : t.body = s.body) : t.settings = s.settings := (congrArg State.settings h :)
theorem State.cbRead_of_body (h : t.body = s.body) : t.cbRead = s.cbRead := (congrArg State.cbRead h :)
theorem State.walkerN_of_body (h : t.body = s.body) : t.walkerN = s.walkerN := (congrArg State.walkerN h :)
theorem State.walkerP_of_body (h : t.body = s.body) : t.walkerP = s.walkerP := (congrArg State.walkerP h :)
theorem State.walker_of_body (h : t.body = s.body) (c : Chain) : t.walker c = s.walker c := by
  cases c
  · exact State.walkerN_of_body h
  · exact State.walkerP_of_body h
theorem State.wakeHistory_of_body (h : t.body = s.body) : t.wakeHistory = s.wakeHistory := (congrArg State.wakeHistory h :)
theorem State.nextOrder_of_body (h : t.body = s.body) : t.nextOrder = s.nextOrder := (congrArg State.nextOrder h :)
theorem State.now_of_body (h : t.body = s.body) : t.now = s.now := (congrArg State.now h :)
theorem State.fatal_of_body (h : t.body = s.body) : t.fatal = s.fatal := by
  unfold State.fatal
  rw [State.engine_of_body h, State.fault_of_body h]
theorem State.pending_of_outer (h : t.outer = s.outer) : t.pending = s.pending := (congrArg State.pending h :)
theorem State.resetLow_of_outer (h : t.outer = s.outer) : t.resetLow = s.resetLow := (congrArg State.resetLow h :)
theorem State.cbaddr_of_outer (h : t.outer = s.outer) : t.cbaddr = s.cbaddr := (congrArg State.cbaddr h :)
theorem State.noticeEn_of_outer (h : t.outer = s.outer) : t.noticeEn = s.noticeEn := (congrArg State.noticeEn h :)
theorem State.settings_of_outer (h : t.outer = s.outer) : t.settings = s.settings := (congrArg State.settings h :)
theorem State.wakeHistory_of_outer (h : t.outer = s.outer) : t.wakeHistory = s.wakeHistory :=
  (congrArg State.wakeHistory h :)
theorem State.now_of_outer (h : t.outer = s.outer) : t.now = s.now := (congrArg State.now h :)
end

/-! ## The basic updates -/

@[simp] theorem State.body_modPort (s : State) (p : PortId) (f : Port → Port) : (s.modPort p f).body = s.body := by
  cases p <;> rfl
@[simp] theorem State.body_setPort (s : State) (p : PortId) (v : Port) : (s.setPort p v).body = s.body := by
  cases p <;> rfl
@[simp] theorem State.body_modTile (s : State) (t : TileNum) (f : TileEntry → TileEntry) :
    (s.modTile t f).body = s.body := rfl
@[simp] theorem State.body_setSlot (s : State) (i : SlotNum) (v : Slot) : (s.setSlot i v).body = s.body := rfl
@[simp] theorem State.body_modJob (s : State) (i : SlotNum) (f : Job → Job) : (s.modJob i f).body = s.body := by
  unfold State.modJob
  split <;> rfl
@[simp] theorem State.body_setRecord (s : State) (t : TileNum) (r : RecordCtl) : (s.setRecord t r).body = s.body := rfl
@[simp] theorem State.body_modRecord (s : State) (t : TileNum) (f : RecordCtl → RecordCtl) :
    (s.modRecord t f).body = s.body := rfl
@[simp] theorem State.body_dropWait (s : State) (i : SlotNum) : (s.dropWait i).body = s.body := rfl
@[simp] theorem State.body_raise (s : State) (n : Notice) : (s.raise n).body = s.body := rfl
@[simp] theorem State.body_joinTileChg (s : State) (t : TileNum) : (s.joinTileChg t).body = s.body := rfl
@[simp] theorem State.body_enterTile (s : State) (t : TileNum) (st : TileState) : (s.enterTile t st).body = s.body := rfl
@[simp] theorem State.body_setError (s : State) (t : TileNum) (c : ErrorCode) : (s.setError t c).body = s.body := rfl
@[simp] theorem State.body_examineWakes (s : State) : s.examineWakes.body = s.body := rfl

theorem EventFrame.body {s t : State} (h : EventFrame s t) : t.body = s.body := (congrArg State.body h.rest :)
theorem JobFrame.body {s t : State} (h : JobFrame s t) : t.body = s.body := (congrArg State.body h.rest :)

@[simp] theorem State.body_finish (b s : State) : (finish b s).body = s.body := (finish_frame b s).body
@[simp] theorem State.body_commit (b s : State) : (commit b s).body = s.body := (commit_frame b s).body
@[simp] theorem State.body_settle (b s : State) : (settle b s).body = s.body := (settle_frame b s).body
@[simp] theorem State.body_failPart (s : State) (i : SlotNum) (t : TileNum) (c : ErrorCode) :
    (s.failPart i t c).body = s.body := (s.failPart_frame i t c).body
@[simp] theorem State.body_completePart (s : State) (i : SlotNum) (t : TileNum) : (s.completePart i t).body = s.body :=
  (s.completePart_frame i t).body
@[simp] theorem State.body_rejudgePowerWaits (s : State) (t : TileNum) : (s.rejudgePowerWaits t).body = s.body :=
  (s.rejudgePowerWaits_frame t).body
@[simp] theorem State.body_occur (s : State) (src : EventSource) : (s.occur src).body = s.body := (s.occur_frame src).body
@[simp] theorem State.body_stepCurrent (s : State) (i : SlotNum) : (s.stepCurrent i).body = s.body :=
  (s.stepCurrent_frame i).body

/-! ## Jobs -/

@[simp] theorem State.body_enterDraining (s : State) (i : SlotNum) : (s.enterDraining i).body = s.body :=
  State.body_modJob s i _

@[simp] theorem State.body_enterRetiring (s : State) (i : SlotNum) (cause : RetireCause) :
    (s.enterRetiring i cause).body = s.body := by
  unfold State.enterRetiring
  split
  · rfl
  · split <;> rfl

@[simp] theorem State.body_abortJob (s : State) (i : SlotNum) : (s.abortJob i).body = s.body := by
  unfold State.abortJob
  split
  · rfl
  · split <;> simp

@[simp] theorem State.body_skipQueued (s : State) (c : Chain) : (s.skipQueued c).body = s.body := by
  refine foldl_keeps State.body (fun s i => ?_) _ s
  split
  · split <;> simp
  · rfl

@[simp] theorem State.body_abortAll (s : State) : s.abortAll.body = s.body :=
  foldl_keeps State.body State.body_abortJob _ s

@[simp] theorem State.body_disarmAll (s : State) : s.disarmAll.body = s.body := by
  refine foldl_keeps State.body (fun s t => ?_) _ s
  exact State.body_modTile s t _

@[simp] theorem State.body_abortChain (s : State) (c : Chain) : (s.abortChain c).body = s.body := by
  refine foldl_keeps State.body (fun s i => ?_) _ s
  split
  · split <;> simp
  · rfl

@[simp] theorem State.body_admit (s : State) (i : SlotNum) : (s.admitJob i).body = s.body := by
  simp [State.admitJob]

@[simp] theorem State.body_failEngineStep (s : State) (i : SlotNum) (c : ErrorCode) :
    (s.failEngineStep i c).body = s.body := by
  simp [State.failEngineStep]

/-! ## Transactions -/

@[simp] theorem State.body_endEntry (s : State) (p : PortId) (e : Entry) (q : Bool) : (s.endEntry p e q).body = s.body := by
  unfold State.endEntry
  dsimp only
  split <;> simp

@[simp] theorem State.body_windowChanged (s : State) (t : TileNum) (o : Option SlotNum) :
    (s.windowChanged t o).body = s.body := by
  unfold State.windowChanged
  split
  · split <;> simp
  · rfl

@[simp] theorem State.body_applyAck (s : State) (e : Entry) (n : Bool) : (s.applyAck e n).body = s.body := by
  unfold State.applyAck
  dsimp only
  split <;> simp

@[simp] theorem State.body_applyReport (s : State) (t : TileNum) (w : Word) : (s.applyReport t w).body = s.body := rfl

@[simp] theorem State.body_wakeTold (s : State) (i : SlotNum) (t : TileNum) : (s.wakeTold i t).body = s.body := by
  unfold State.wakeTold
  repeat' split
  all_goals simp

@[simp] theorem State.body_streamTold (s : State) (i : SlotNum) (t : TileNum) : (s.streamTold i t).body = s.body := by
  unfold State.streamTold
  repeat' split
  all_goals simp

@[simp] theorem State.body_tellOwner (s : State) (e : Entry) (f : Option ErrorCode) : (s.tellOwner e f).body = s.body := by
  unfold State.tellOwner
  repeat' split
  all_goals simp

@[simp] theorem State.body_cutEntry (p : PortId) (s : State) (e : Entry) : (State.cutEntry p s e).body = s.body := by
  unfold State.cutEntry
  dsimp only
  split <;> simp

@[simp] theorem State.body_cutEntries (s : State) (p : PortId) : (s.cutEntries p).body = s.body :=
  foldl_keeps State.body (State.body_cutEntry p) _ s

@[simp] theorem State.body_endWithAck (s : State) (p : PortId) (e : Entry) (f : Option ErrorCode) (n : Bool) :
    (s.endWithAck p e f n).body = s.body := by
  unfold State.endWithAck
  dsimp only
  repeat' split
  all_goals simp

@[simp] theorem State.body_stray (s : State) (p : PortId) (d : Position) : (s.stray p d).body = s.body := by
  unfold State.stray
  split <;> simp

@[simp] theorem State.body_keepOlderWrite (s : State) (p : PortId) (e : Entry) : (s.keepOlderWrite p e).body = s.body := by
  unfold State.keepOlderWrite
  split <;> simp

@[simp] theorem State.body_discardData (s : State) (p : PortId) (e : Entry) (ws : List Word) :
    (s.discardData p e ws).body = s.body := by
  unfold State.discardData
  dsimp only
  split <;> simp

@[simp] theorem State.body_startDestWrite (s : State) (p : PortId) (e : Entry) (w : DestWrite) :
    (s.startDestWrite p e w).body = s.body := by
  simp [State.startDestWrite]

@[simp] theorem State.body_endDestWrite (s : State) (p : PortId) (e : Entry) (w : DestWrite) (ok : Bool) :
    (s.endDestWrite p e w ok).body = s.body := by
  unfold State.endDestWrite
  dsimp only
  repeat' split
  all_goals simp

@[simp] theorem State.body_endTileEntries (s : State) (p : PortId) (t : TileNum) : (s.endTileEntries p t).body = s.body := by
  unfold State.endTileEntries
  rw [State.body_modTile]
  exact foldl_keeps State.body (fun s e => State.body_endEntry s p e true) _ s

@[simp] theorem State.body_timeoutTile (s : State) (p : PortId) (e : Entry) : (s.timeoutTile p e).body = s.body := by
  unfold State.timeoutTile
  dsimp only
  rw [foldl_keeps State.body (fun s f => State.body_tellOwner s f (some .tileLost))]
  simp

@[simp] theorem State.body_faultIssuedPart (s : State) (t : TileNum) (i : SlotNum) : (s.faultIssuedPart t i).body = s.body := by
  unfold State.faultIssuedPart
  repeat' split
  all_goals simp

@[simp] theorem State.body_takeFault (s : State) (t : TileNum) (code : BitVec 4) : (s.takeFault t code).body = s.body := by
  unfold State.takeFault
  dsimp only
  split
  · rfl
  · rw [foldl_keeps State.body (fun s i => State.body_faultIssuedPart s t i)]
    simp

/-! ## The chain link -/

@[simp] theorem State.body_enterTraining (s : State) (p : PortId) : (s.enterTraining p).body = s.body := by
  simp [State.enterTraining]

@[simp] theorem State.body_enterEnumerating (s : State) (p : PortId) : (s.enterEnumerating p).body = s.body := by
  simp [State.enterEnumerating]

@[simp] theorem State.body_portUp (s : State) (p : PortId) : (s.portUp p).body = s.body := by
  simp [State.portUp]

@[simp] theorem State.body_issueProbe (s : State) (p : PortId) (d : Position) : (s.issueProbe p d).body = s.body := by
  unfold State.issueProbe
  split <;> simp

theorem State.body_enterTiles (l : List TileNum) (s : State) (st : TileState) :
    (l.foldl (fun s t => s.enterTile t st) s).body = s.body := by
  refine foldl_keeps State.body (fun s t => ?_) l s
  exact State.body_enterTile s t st

@[simp] theorem State.body_silence (s : State) (p : PortId) : (s.silence p).body = s.body := by
  unfold State.silence
  split
  · rfl
  · rw [State.body_portUp, State.body_enterTiles]

@[simp] theorem State.body_probeRefused (s : State) (p : PortId) (e : Entry) : (s.probeRefused p e).body = s.body := by
  simp [State.probeRefused]

@[simp] theorem State.body_probeAnswered (s : State) (p : PortId) (ws : List Word) : (s.probeAnswered p ws).body = s.body := by
  unfold State.probeAnswered
  split
  · rfl
  · dsimp only
    split <;> simp

@[simp] theorem State.body_portFailed (s : State) (p : PortId) : (s.portFailed p).body = s.body := by
  unfold State.portFailed
  rw [State.body_raise, State.body_enterTiles, State.body_modPort]

@[simp] theorem State.body_losePort (s : State) (p : PortId) : (s.losePort p).body = s.body := by
  refine foldl_keeps State.body (fun s t => ?_) _ s
  split <;> simp

@[simp] theorem State.body_attemptFailed (s : State) (p : PortId) : (s.attemptFailed p).body = s.body := by
  unfold State.attemptFailed
  split <;> simp

@[simp] theorem State.body_enumeratePort (s : State) (p : PortId) : (s.enumeratePort p).body = s.body := by
  unfold State.enumeratePort
  split <;> simp

@[simp] theorem State.body_bringUp (s : State) (p : PortId) : (s.bringUp p).body = s.body := by
  unfold State.bringUp
  split <;> simp

/-! ## Records -/

@[simp] theorem State.body_faultRecord (s : State) (t : TileNum) : (s.faultRecord t).body = s.body := by
  unfold State.faultRecord
  dsimp only
  split <;> simp

@[simp] theorem State.body_failRecord (s : State) (t : TileNum) : (s.failRecord t).body = s.body := rfl

@[simp] theorem State.body_dropStartMarks (s : State) : s.dropStartMarks.body = s.body := by
  refine foldl_keeps State.body (fun s t => ?_) _ s
  exact State.body_modRecord s t _

@[simp] theorem State.body_endRewrite (s : State) (t : TileNum) (j : Bool) : (s.endRewrite t j).body = s.body := by
  unfold State.endRewrite
  dsimp only
  split <;> simp

@[simp] theorem State.body_markAllRecords (s : State) : s.markAllRecords.body = s.body := by
  refine foldl_keeps State.body (fun s t => ?_) _ s
  exact State.body_modRecord s t _

@[simp] theorem State.body_latchGates (s : State) : s.latchGates.body = s.body := by
  refine foldl_keeps State.body (fun s t => ?_) _ s
  unfold readyGateOpenEffect sleepGateOpenEffect
  repeat' split
  all_goals simp

end Sys2Proof.Machine
end

