-- ==== Sys2Proof/Laws/Outer.lean ====
section
/-! SUPPORT. What the operations over the engine and the walkers leave alone: the outer state (the queue, the reset pin,
CBADDR, NOTICEEN, the Timebase, the trigger filters, the settings and the wake history), read through one function. -/

namespace Sys2Proof.Machine

@[simp] theorem State.outer_modWalker (s : State) (c : Chain) (f : Walker → Walker) : (s.modWalker c f).outer = s.outer := by
  cases c <;> rfl

/-- What keeps the body keeps the outer state. -/
theorem State.outer_eq {s t : State} (h : t.body = s.body) : t.outer = s.outer := State.outer_of_body h

section
variable (s : State)
@[simp] theorem State.outer_modPort (p : PortId) (f : Port → Port) : (s.modPort p f).outer = s.outer :=
  State.outer_eq (by simp)
@[simp] theorem State.outer_modTile (t : TileNum) (f : TileEntry → TileEntry) : (s.modTile t f).outer = s.outer := rfl
@[simp] theorem State.outer_setSlot (i : SlotNum) (v : Slot) : (s.setSlot i v).outer = s.outer := rfl
@[simp] theorem State.outer_modJob (i : SlotNum) (f : Job → Job) : (s.modJob i f).outer = s.outer :=
  State.outer_eq (by simp)
@[simp] theorem State.outer_setRecord (t : TileNum) (r : RecordCtl) : (s.setRecord t r).outer = s.outer := rfl
@[simp] theorem State.outer_modRecord (t : TileNum) (f : RecordCtl → RecordCtl) : (s.modRecord t f).outer = s.outer := rfl
@[simp] theorem State.outer_raise (n : Notice) : (s.raise n).outer = s.outer := rfl
@[simp] theorem State.outer_examineWakes : s.examineWakes.outer = s.outer := rfl
@[simp] theorem State.outer_finish (b : State) : (finish b s).outer = s.outer := State.outer_eq (by simp)
@[simp] theorem State.outer_commit (b : State) : (commit b s).outer = s.outer := State.outer_eq (by simp)
@[simp] theorem State.outer_abortJob (i : SlotNum) : (s.abortJob i).outer = s.outer := State.outer_eq (by simp)
@[simp] theorem State.outer_abortAll : s.abortAll.outer = s.outer := State.outer_eq (by simp)
@[simp] theorem State.outer_abortChain (c : Chain) : (s.abortChain c).outer = s.outer := State.outer_eq (by simp)
@[simp] theorem State.outer_disarmAll : s.disarmAll.outer = s.outer := State.outer_eq (by simp)
@[simp] theorem State.outer_skipQueued (c : Chain) : (s.skipQueued c).outer = s.outer := State.outer_eq (by simp)
@[simp] theorem State.outer_enterRetiring (i : SlotNum) (c : RetireCause) : (s.enterRetiring i c).outer = s.outer :=
  State.outer_eq (by simp)
@[simp] theorem State.outer_admit (i : SlotNum) : (s.admitJob i).outer = s.outer := State.outer_eq (by simp)
@[simp] theorem State.outer_endRewrite (t : TileNum) (j : Bool) : (s.endRewrite t j).outer = s.outer :=
  State.outer_eq (by simp)
@[simp] theorem State.outer_bringUp (p : PortId) : (s.bringUp p).outer = s.outer := State.outer_eq (by simp)
@[simp] theorem State.outer_latchGates : s.latchGates.outer = s.outer := State.outer_eq (by simp)
@[simp] theorem State.outer_markAllRecords : s.markAllRecords.outer = s.outer := State.outer_eq (by simp)
@[simp] theorem State.outer_dropStartMarks : s.dropStartMarks.outer = s.outer := State.outer_eq (by simp)
@[simp] theorem State.outer_idleWalkers : s.idleWalkers.outer = s.outer := rfl

/-! ## Engine -/

@[simp] theorem State.outer_enterStopping : s.enterStopping.outer = s.outer := by
  unfold State.enterStopping
  simp only [State.outer_disarmAll, State.outer_abortAll, State.outer_idleWalkers]
  rfl

@[simp] theorem State.outer_fatalFault (f : EngineFault) : (s.fatalFault f).outer = s.outer := by
  unfold State.fatalFault
  split
  · dsimp only
    rw [foldl_keeps State.outer (fun s t => State.outer_of_body (State.body_faultRecord s t))]
    split
    · rw [State.outer_enterStopping]
      rfl
    · rfl
  · rfl

@[simp] theorem State.outer_startFails (f : EngineFault) : (s.startFails f).outer = s.outer := by
  unfold State.startFails
  rw [foldl_keeps State.outer (fun s t => State.outer_of_body (State.body_failRecord s t))]
  rfl

@[simp] theorem State.outer_cutControlBlockRead : s.cutControlBlockRead.outer = s.outer := by
  unfold State.cutControlBlockRead
  split <;> rfl

@[simp] theorem State.outer_cutWalkerAccess (c : Chain) : (s.cutWalkerAccess c).outer = s.outer := rfl

@[simp] theorem State.outer_dropCut (a : AccessId) : (s.dropCut a).outer = s.outer := rfl

@[simp] theorem State.outer_portsPhaseIfDone : s.portsPhaseIfDone.outer = s.outer := by
  unfold State.portsPhaseIfDone
  split
  · simp only [State.outer_bringUp]
    rfl
  · rfl

@[simp] theorem State.outer_statusWriteFailed (t : TileNum) (w : Rewrite) :
    (s.statusWriteFailed t w).outer = s.outer := by
  unfold State.statusWriteFailed
  split <;> simp

@[simp] theorem State.outer_nextStatusWrite (t : TileNum) (w : Rewrite) : (s.nextStatusWrite t w).outer = s.outer := by
  unfold State.nextStatusWrite
  split <;> simp

/-- A valid control block replaces the settings and trims the wake history, and leaves the rest of the outer state. -/
theorem State.outer_takeSettings (st : Settings) : (s.takeSettings st).outer =
    { s.outer with settings := st, wakeHistory := trimHistory st.wakeLimit s.wakeHistory } := by
  have h (t : State) : State.outer
      { t with settings := st, wakeHistory := trimHistory st.wakeLimit t.wakeHistory,
               engine := .starting .statusRecords } =
      { t.outer with settings := st, wakeHistory := trimHistory st.wakeLimit t.wakeHistory } := rfl
  unfold State.takeSettings
  dsimp only
  refine (State.outer_markAllRecords _).trans ((h _).trans ?_)
  rw [State.outer_latchGates, State.wakeHistory_of_body (State.body_latchGates s)]

/-! ## Walkers -/

@[simp] theorem State.outer_haltWalker (c : Chain) (k : HaltCause) : (s.haltWalker c k).outer = s.outer := by
  unfold State.haltWalker
  dsimp only
  repeat' split
  all_goals simp

@[simp] theorem State.outer_parkWalker (c : Chain) : (s.parkWalker c).outer = s.outer := by simp [State.parkWalker]

@[simp] theorem State.outer_endWork (c : Chain) : (s.endWork c).outer = s.outer := by simp [State.endWork]

@[simp] theorem State.outer_beginFetch (c : Chain) (a : Word) : (s.beginFetch c a).outer = s.outer := by
  unfold State.beginFetch
  split <;> simp

@[simp] theorem State.outer_followLink (c : Chain) (a : Word) : (s.followLink c a).outer = s.outer := by
  unfold State.followLink
  split <;> simp

@[simp] theorem State.outer_failAtFetch (c : Chain) (a : Word) (h : List Byte) (k : ErrorCode) (n : Nat) :
    (s.failAtFetch c a h k n).outer = s.outer := by simp [State.failAtFetch]

@[simp] theorem State.outer_check4 (c : Chain) (a : Word) (h : List Byte) : (s.check4 c a h).outer = s.outer := by
  unfold State.check4
  split <;> simp

@[simp] theorem State.outer_fetchHeader (c : Chain) (a : Word) (r : ReadResult) : (s.fetchHeader c a r).outer = s.outer := by
  unfold State.fetchHeader
  repeat' split
  all_goals simp

@[simp] theorem State.outer_rescanHeader (c : Chain) (a : Word) (r : ReadResult) :
    (s.rescanHeader c a r).outer = s.outer := by
  unfold State.rescanHeader
  repeat' split
  all_goals simp

@[simp] theorem State.outer_claim (c : Chain) (d : Fetched) (i : SlotNum) : (s.claim c d i).outer = s.outer := by
  simp [State.claim]

@[simp] theorem State.outer_fetchPassed (c : Chain) (d : Fetched) : (s.fetchPassed c d).outer = s.outer := by
  unfold State.fetchPassed
  dsimp only
  repeat' split
  all_goals simp

@[simp] theorem State.outer_fetchSteps (c : Chain) (a : Word) (h : List Byte) (r : ReadResult) :
    (s.fetchSteps c a h r).outer = s.outer := by
  unfold State.fetchSteps
  repeat' split
  all_goals simp

@[simp] theorem State.outer_taken (c : Chain) (d : Fetched) (i : SlotNum) : (s.taken c d i).outer = s.outer := by
  have h (t : State) : (t.enterSlot c d i).outer = t.outer := rfl
  unfold State.taken
  dsimp only
  repeat' split
  all_goals simp [h]

@[simp] theorem State.outer_directlyRetired (c : Chain) (d : DirectRetire) : (s.directlyRetired c d).outer = s.outer := by
  unfold State.directlyRetired
  dsimp only
  repeat' split
  all_goals simp

@[simp] theorem State.outer_beginRescan (c : Chain) : (s.beginRescan c).outer = s.outer := by simp [State.beginRescan]

@[simp] theorem State.outer_rescanCause (c : Chain) : (s.rescanCause c).outer = s.outer := by
  unfold State.rescanCause
  dsimp only
  repeat' split
  all_goals simp

@[simp] theorem State.outer_rescanValue (c : Chain) (r : ReadResult) : (s.rescanValue c r).outer = s.outer := by
  unfold State.rescanValue
  split
  · simp
  · split
    · simp
    · dsimp only
      split
      · simp
      · split <;> simp

@[simp] theorem State.outer_resumeWalker (c : Chain) : (s.resumeWalker c).outer = s.outer := by simp [State.resumeWalker]

@[simp] theorem State.outer_retireFailed (i : SlotNum) : (s.retireFailed i).outer = s.outer := by simp [State.retireFailed]

@[simp] theorem State.outer_offerSlot (i : SlotNum) : (s.offerSlot i).outer = s.outer := by
  unfold State.offerSlot
  dsimp only
  repeat' split
  all_goals simp

@[simp] theorem State.outer_retired (i : SlotNum) (j : Job) (r : Retirement) : (s.retired i j r).outer = s.outer := by
  unfold State.retired
  dsimp only
  repeat' split
  all_goals simp

@[simp] theorem State.outer_startWalker (c : Chain) (a : Word) : (s.startWalker c a).outer = s.outer := by
  simp [State.startWalker]

/-! ## The scheduler -/

@[simp] theorem State.body_issuePacket (p : PortId) (x : TileNum) (g : Tag) (o : Owner) (sh : Shape) :
    (s.issuePacket p x g o sh).body = s.body := by simp [State.issuePacket]

@[simp] theorem State.body_segmentIssued (i : SlotNum) (x : TileNum) (st : Step) (o : Option Stream) (n : Nat) :
    (s.segmentIssued i x st o n).body = s.body := by simp [State.segmentIssued]

@[simp] theorem State.body_holdRiders (x : TileNum) : (s.holdRiders x).body = s.body := by
  refine foldl_keeps State.body (fun s i => ?_) _ s
  split <;> simp

/-- The WAKE of a job is granted with the issue of `c`. -/
def State.grants (s : State) (c : Cand) : Bool :=
  match (c.slot.bind s.job).bind Job.step? with
  | some st => decide (st.kind = .wake)
  | none => false

/-- Of the body an issue changes the wake history alone, and that only by a grant. -/
theorem State.body_issue (p : PortId) (c : Cand) (g : Tag) : (s.issue p c g).body =
    { s.body with wakeHistory := if s.grants c then s.wakeHistory ++ [s.now] else s.wakeHistory } := by
  have hw (t : State) (h : t.body = s.body) : t.recordGrant.body =
      { s.body with wakeHistory := s.wakeHistory ++ [s.now] } := by
    have : t.recordGrant.body = { t.body with wakeHistory := t.wakeHistory ++ [t.now] } := rfl
    rw [this, h, State.wakeHistory_of_body h, State.now_of_body h]
  have keep (b : Bool) (hb : b = false) (t : State) (h : t.body = s.body) : t.body =
      { s.body with wakeHistory := if b then s.wakeHistory ++ [s.now] else s.wakeHistory } := by
    rw [h, hb]
    rfl
  unfold State.issue
  dsimp only
  split
  · next hc =>
    refine keep _ ?_ _ (by simp)
    simp [State.grants, hc]
  · next i hc =>
    split
    · next hj =>
      refine keep _ ?_ _ rfl
      simp [State.grants, hc, hj]
    · next j hj =>
      split
      · next hs =>
        refine keep _ ?_ _ rfl
        simp [State.grants, hc, hj, hs]
      · next st hs =>
        have hg : s.grants c = decide (st.kind = .wake) := by simp [State.grants, hc, hj, hs]
        split
        · next hk =>
          refine keep _ ?_ _ (by simp)
          rw [hg]
          have h : st.kind ≠ .wake := by
            intro h
            rw [h] at hk
            cases hk
          simpa using h
        · split
          · next hk =>
            rw [hg, if_pos (by simpa using hk), State.body_holdRiders]
            exact hw _ (by simp)
          · next hk =>
            refine keep _ ?_ _ (by simp)
            rw [hg]
            simpa using hk

@[simp] theorem State.outer_presentAfterIssue (p : PortId) (c : Cand) : (s.presentAfterIssue p c).outer = s.outer := by
  unfold State.presentAfterIssue
  repeat' split
  all_goals rfl

end

end Sys2Proof.Machine
end

