-- ==== Sys2Proof/Laws/Accesses.lean ====
section
/-! SUPPORT. The shared-memory accesses under way: what the end of one can do, and that a reset keeps them all. -/

namespace Sys2Proof.Machine

/-- Everything the end of an access can do. -/
theorem endOfAccess_spec {a : AccessId} {s t : State} {effect : State → State} (h : endOfAccess a s effect = .next t) :
    (s.accessCut a = true ∧ t = s.dropCut a) ∨ (s.accessCut a = false ∧ s.resetLow = true ∧ t = s) ∨
    (s.accessCut a = false ∧ s.resetLow = false ∧ t = effect s) := by
  unfold endOfAccess outOfReset at h
  split at h
  · next hc =>
    cases h
    exact .inl ⟨hc, rfl⟩
  · next hc =>
    cases h
    have hc := Bool.eq_false_iff.2 hc
    cases hl : s.resetLow
    · exact .inr (.inr ⟨hc, rfl, by simp⟩)
    · exact .inr (.inl ⟨hc, rfl, by simp⟩)

theorem State.accessCut_iff {s : State} {a : AccessId} : s.accessCut a = true ↔ ∃ v ∈ s.cutAccesses, v.id = a := by
  simp [State.accessCut]

theorem State.accessCut_eq_false {s : State} {a : AccessId} : s.accessCut a = false ↔ ∀ v ∈ s.cutAccesses, v.id ≠ a := by
  simp [State.accessCut]

@[simp] theorem State.dropCut_fields (s : State) (a : AccessId) : { s.dropCut a with cutAccesses := [] } =
    { s with cutAccesses := [] } := rfl

/-- Nothing that a reset leaves has an access of its own under way. -/
theorem State.ownAccesses_afterReset (s : State) : s.afterReset.ownAccesses = [] := by
  have h : s.afterReset.ownAccesses = State.reset.ownAccesses := rfl
  rw [h]
  decide +kernel

/-- A reset ends no access that has begun, and begins none (R178). -/
theorem State.accesses_afterReset (s : State) : s.afterReset.accesses = s.accesses := by
  unfold State.accesses
  rw [s.ownAccesses_afterReset, List.append_nil]
  rfl

/-- The result of a control-block read that has been cut is not used, and the read stays under way. -/
theorem State.cutControlBlockRead_keeps (s : State) {v : Access} (h : v ∈ s.accesses) : v ∈ s.cutControlBlockRead.accesses := by
  unfold State.cutControlBlockRead
  split
  · next hc =>
    simp only [State.accesses, State.ownAccesses, hc, if_true, List.append_assoc, List.mem_append] at h ⊢
    rcases h with h | h | h
    · exact .inl h
    · exact .inr (.inl h)
    · exact .inr (.inr (.inr h))
  · exact h

end Sys2Proof.Machine
end

