-- ==== Sys2Proof/Laws/Arbiter.lean ====
section
/-! SUPPORT. What a port's arbiter picks, and what stands in a candidate set. -/

namespace Sys2Proof.Machine

theorem bestCand_mem {l : List Cand} {c : Cand} (h : bestCand l = some c) : c ∈ l := by
  induction l generalizing c with
  | nil => exact absurd h (by simp [bestCand])
  | cons a l ih =>
    unfold bestCand at h
    split at h
    · cases h
      exact List.mem_cons_self
    · next d hd =>
      split at h
      · cases h
        exact List.mem_cons_of_mem _ (ih hd)
      · cases h
        exact List.mem_cons_self

/-- The arbiter picks an issuable candidate that is not held. -/
theorem State.arbiterPick_spec {s : State} {p : PortId} {c : Cand} (h : s.arbiterPick p = some c) :
    c ∈ s.candidates p ∧ s.issuable c = true ∧ s.heldBehindSleep c = false := by
  simpa using List.mem_filter.1 (bestCand_mem h)

theorem State.mem_offers {s : State} {p : PortId} {c : Cand} (h : c ∈ s.offers p) :
    c.slot = none ∧ c.kind = .sleep ∧ c.cls = 1 ∧ c.tile ∈ portTiles p ∧ (s.tile c.tile).armed = true := by
  unfold State.offers at h
  obtain ⟨t, ht, rfl⟩ := List.mem_map.1 h
  obtain ⟨ht, ha⟩ := List.mem_filter.1 ht
  exact ⟨rfl, rfl, rfl, ht, ha⟩

theorem State.mem_jobCandidates {s : State} {p : PortId} {i : SlotNum} {c : Cand} (h : c ∈ s.jobCandidates p i) :
    ∃ j st q, s.job i = some j ∧ j.phase.isRunning = true ∧ j.step? = some st ∧ q ∈ j.parts ∧ q.cond = .candidate ∧
      c = ⟨some i, q.tile, st.kind, j.rank.1, j.order⟩ ∧ portOf c.tile = p := by
  unfold State.jobCandidates at h
  split at h
  · exact absurd h (by simp)
  · next j hj =>
    split at h
    · next st hr hs =>
      obtain ⟨q, hq, rfl⟩ := List.mem_map.1 h
      obtain ⟨hq, hc⟩ := List.mem_filter.1 hq
      simp only [Bool.and_eq_true, decide_eq_true_eq] at hc
      exact ⟨j, st, q, hj, hr, hs, hq, hc.1, rfl, hc.2⟩
    · exact absurd h (by simp)

theorem State.mem_candidates {s : State} {p : PortId} {c : Cand} (h : c ∈ s.candidates p) :
    (∃ i, c ∈ s.jobCandidates p i) ∨ c ∈ s.offers p := by
  unfold State.candidates at h
  rcases List.mem_append.1 h with h | h
  · obtain ⟨l, hl, hc⟩ := List.mem_flatten.1 h
    obtain ⟨i, _, rfl⟩ := List.mem_map.1 hl
    exact .inl ⟨i, hc⟩
  · exact .inr h

/-- A job's candidate carries the kind of the job's current step. -/
theorem State.candidate_job {s : State} {p : PortId} {c : Cand} {i : SlotNum} (h : c ∈ s.candidates p)
    (hc : c.slot = some i) : ∃ j st q, s.job i = some j ∧ j.phase.isRunning = true ∧ j.step? = some st ∧ q ∈ j.parts ∧
      q.cond = .candidate ∧ q.tile = c.tile ∧ c.kind = st.kind ∧ c.order = j.order ∧ portOf c.tile = p := by
  rcases State.mem_candidates h with ⟨k, h⟩ | h
  · obtain ⟨j, st, q, hj, hr, hs, hq, hd, rfl, hp⟩ := State.mem_jobCandidates h
    cases hc
    exact ⟨j, st, q, hj, hr, hs, hq, hd, rfl, rfl, rfl, hp⟩
  · exact absurd ((State.mem_offers h).1.symm.trans hc) (by simp)

/-- What a held entry is (R128, log 37): nothing is held of a step without ON_FRAME, nor while no SLEEP is in flight. -/
theorem State.heldBehindSleep_iff {s : State} {c : Cand} {i : SlotNum} (hc : c.slot = some i) :
    s.heldBehindSleep c = true ↔ (StepKind.isDisplay c.kind = true ∧ s.onFrameStep i = true) ∧
      s.sleepInFlight c.tile = true ∧ Config.onFrameWaitsForSleep = true := by
  simp [State.heldBehindSleep, hc, and_assoc]

/-- A grant is the issue of a WAKE candidate, made while the budget is open (R89, R90). -/
theorem State.budgetOpen_of_grant {s : State} {p : PortId} {c : Cand} (h : s.arbiterPick p = some c)
    (hg : s.grants c = true) : c.kind = .wake ∧ s.budgetOpen = true := by
  obtain ⟨hm, hi, -⟩ := State.arbiterPick_spec h
  unfold State.grants at hg
  cases hc : c.slot with
  | none => rw [hc] at hg; cases hg
  | some i =>
    obtain ⟨j, st, q, hj, _, hs, _, _, _, hk, _⟩ := State.candidate_job hm hc
    have hw : st.kind = .wake := by
      rw [hc] at hg
      simpa [hj, hs] using hg
    have hcw : c.kind = .wake := hk.trans hw
    refine ⟨hcw, ?_⟩
    unfold State.issuable State.kindGates at hi
    rw [hc, hcw] at hi
    simp only [Bool.and_eq_true] at hi
    exact hi.2.1.2

end Sys2Proof.Machine
end

