-- ==== Sys2Proof/Laws/TileSide.lean ====
section
/-! SUPPORT. Bytes and bits read back from the line (R179), packets and their CRC (R141, R142), and: whatever a tile takes or
detects keeps its frame memory and its window on the panel (R4). -/

namespace Sys2Proof

/-- The bits of a line give back the bytes they carry (R179). -/
theorem bytesOfBits_lineBits (bs : List Byte) : bytesOfBits (lineBits bs) = bs := by
  induction bs with
  | nil => rfl
  | cons b bs ih =>
    have h : BitVec.ofBoolListLE [b.getLsbD 0, b.getLsbD 1, b.getLsbD 2, b.getLsbD 3, b.getLsbD 4, b.getLsbD 5, b.getLsbD 6,
        b.getLsbD 7] = b := by revert b; decide +kernel
    show bytesOfBits (_ :: _ :: _ :: _ :: _ :: _ :: _ :: _ :: lineBits bs) = b :: bs
    simp only [bytesOfBits, ih, h]

/-- A halfword is its two bytes, least significant first (R179). -/
theorem half_of_bytes (h : Half) : (h >>> 8).setWidth 8 ++ h.setWidth 8 = h := by
  apply BitVec.eq_of_getLsbD_eq
  intro i hi
  refine (BitVec.getLsbD_append (x := (h >>> 8).setWidth 8) (y := h.setWidth 8) (i := i)).trans ?_
  rcases Nat.lt_or_ge i 8 with h8 | h8
  · simp [h8]
  · simp [Nat.not_lt.mpr h8, show i - 8 < 8 by omega, show 8 + (i - 8) = i by omega]

theorem halfAt_halfBytes (bs : List Byte) (h : Half) : halfAt (bs ++ halfBytes h) bs.length = h := by
  simp [halfAt, byteAt, halfBytes, List.getD_eq_getElem?_getD, half_of_bytes]

/-- A word is its four bytes, least significant first (R179). -/
theorem word_of_bytes (w : Word) :
    ((w >>> 24).setWidth 8 : Byte) ++ ((w >>> 16).setWidth 8 : Byte) ++ ((w >>> 8).setWidth 8 : Byte) ++
      (w.setWidth 8 : Byte) = w := by
  apply BitVec.eq_of_getLsbD_eq
  intro i hi
  have split (n : Nat) (x : BitVec n) (y : Byte) (k : Nat) :
      (x ++ y).getLsbD k = if k < 8 then y.getLsbD k else x.getLsbD (k - 8) := by
    rw [BitVec.getLsbD_append]
  refine (split 24 _ _ i).trans ?_
  refine (congrArg (ite _ _) ((split 16 _ _ (i - 8)).trans (congrArg (ite _ _) (split 8 _ _ (i - 8 - 8))))).trans ?_
  have e1 : ¬ i < 8 → 8 + (i - 8) = i := by omega
  have e2 : ¬ i - 8 < 8 → 16 + (i - 8 - 8) = i := by omega
  have e3 : ¬ i - 8 - 8 < 8 → 24 + (i - 8 - 8 - 8) = i := by omega
  (split_ifs <;> simp_all [BitVec.getLsbD_setWidth, BitVec.getLsbD_ushiftRight]); omega

theorem wordAt_wordBytes (pre post : List Byte) (w : Word) : wordAt (pre ++ (wordBytes w ++ post)) pre.length = w := by
  simp only [wordAt, byteAt, wordBytes, List.getD_eq_getElem?_getD]
  simp [word_of_bytes]

/-- Words read back from their bytes (R179). -/
theorem wordsAt_wordsBytes (ws : List Word) (pre post : List Byte) :
    wordsAt (pre ++ ((ws.map wordBytes).flatten ++ post)) pre.length ws.length = ws := by
  induction ws generalizing pre with
  | nil => rfl
  | cons w ws ih =>
    have h := ih (pre ++ wordBytes w)
    simp only [List.append_assoc, List.length_append, show (wordBytes w).length = 4 from rfl] at h
    simp only [List.map_cons, List.flatten_cons, List.append_assoc, List.length_cons, wordsAt, wordAt_wordBytes, h]

end Sys2Proof

namespace Sys2Proof.Machine

/-- A CRC behind a body holds exactly when it is the body's (R141). -/
theorem crcHolds_append (body : List Byte) (h : Half) :
    crcHolds (body ++ halfBytes h) = decide (crc16 body = h) := by
  have hl : (body ++ halfBytes h).length - 2 = body.length := by simp [halfBytes]
  simp only [crcHolds, hl, halfAt_halfBytes, List.take_left]

theorem failingCrc_ne (body : List Byte) : failingCrc body ≠ crc16 body := by
  unfold failingCrc
  intro h
  have h2 := congrArg (crc16 body ^^^ ·) h
  simp only [← BitVec.xor_assoc, BitVec.xor_self, BitVec.zero_xor] at h2
  split at h2
  · exact absurd h2 (by decide)
  · contradiction

/-- A relayed packet's CRC holds exactly when the CRC it came with did (R141). -/
theorem crcHolds_relayed (place : BitVec 4 → BitVec 4) (bs : List Byte) : crcHolds (relayed place bs) = crcHolds bs := by
  unfold relayed
  rw [crcHolds_append]
  cases crcHolds bs with
  | true => simp
  | false => simpa using (failingCrc_ne _).symm

theorem PacketKind.ofCode_code (k : PacketKind) : PacketKind.ofCode (BitVec.ofNat 8 k.code).toNat = some k := by
  cases k <;> decide

theorem PacketKind.lengthOk_lt (k : PacketKind) (n : Nat) (h : k.lengthOk n = true) : n < 256 := by
  cases k <;> simp only [PacketKind.lengthOk, Bool.and_eq_true, decide_eq_true_eq] at h <;> omega

theorem wordsBytes_length (ws : List Word) : (wordsBytes ws).length = 4 * ws.length := by
  simp only [wordsBytes, List.length_flatten, List.map_map]
  induction ws with
  | nil => rfl
  | cons w ws ih => simpa [Nat.mul_add, Nat.add_comm, wordBytes] using ih

/-- A tile reads every packet of a right length back from its bytes, bit for bit (R141, R142). -/
theorem judgeDownstream_bytes (p : Packet) (h : p.kind.lengthOk p.payload.length = true) :
    judgeDownstream p.bytes = some p := by
  obtain ⟨k, hop, tag, fl, ws⟩ := p
  have hlen := PacketKind.lengthOk_lt _ _ h
  have hl : (BitVec.ofNat 8 ws.length).toNat = ws.length := by simp; omega
  have hb : ∀ hop tag : BitVec 4, (tag ++ hop).setWidth 4 = hop ∧ ((tag ++ hop) >>> 4).setWidth 4 = tag := by decide +kernel
  let pre : List Byte := [BitVec.ofNat 8 k.code, tag ++ hop, BitVec.ofNat 8 (bit fl 0), BitVec.ofNat 8 ws.length]
  have hbytes : Packet.bytes ⟨k, hop, tag, fl, ws⟩ =
      (pre ++ wordsBytes ws) ++ halfBytes (crc16 (pre ++ wordsBytes ws)) := rfl
  have hlength := wordsBytes_length ws
  have hwords : wordsAt (Packet.bytes ⟨k, hop, tag, fl, ws⟩) 4 ws.length = ws := by
    rw [hbytes, List.append_assoc]; exact wordsAt_wordsBytes ws pre _
  have hcrc : crcHolds (Packet.bytes ⟨k, hop, tag, fl, ws⟩) = true := by rw [hbytes, crcHolds_append]; simp
  have h0 : byteAt (Packet.bytes ⟨k, hop, tag, fl, ws⟩) 0 = BitVec.ofNat 8 k.code := rfl
  have h1 : byteAt (Packet.bytes ⟨k, hop, tag, fl, ws⟩) 1 = tag ++ hop := rfl
  have h2 : (byteAt (Packet.bytes ⟨k, hop, tag, fl, ws⟩) 2).getLsbD 0 = fl := by
    change (BitVec.ofNat 8 (bit fl 0)).getLsbD 0 = fl
    cases fl <;> decide
  have h3 : (byteAt (Packet.bytes ⟨k, hop, tag, fl, ws⟩) 3).toNat = ws.length := hl
  have hn : (Packet.bytes ⟨k, hop, tag, fl, ws⟩).length = 4 + 4 * ws.length + 2 := by
    rw [hbytes]; simp [pre, hlength, halfBytes]; omega
  simp only [judgeDownstream, h0, h1, h2, h3, PacketKind.ofCode_code, hn, hcrc, hwords, (hb hop tag).1, (hb hop tag).2]
  simp [h]

theorem TileDev.wf_writePixels (f : PixelFormat) (ws : List Word) (n k : Nat) (d : TileDev) (h : d.Wf) :
    (TileDev.writePixels f ws k n d).Wf := by
  induction n generalizing k d with
  | zero => exact h
  | succ n ih => exact ih _ _ (by simpa [TileDev.Wf] using h)

theorem TileDev.wf_chainReset (d : TileDev) (h : d.Wf) : d.chainReset.Wf := by
  obtain ⟨h1, h2, h3, h4, h5⟩ := h
  refine ⟨h1, ?_, ?_, ?_, ?_⟩ <;> simp only [TileDev.chainReset] <;> bv_omega

theorem TileDev.wf_closeUnlessPixels (p : Packet) (d : TileDev) (h : d.Wf) : (d.closeUnlessPixels p).Wf := by
  unfold TileDev.closeUnlessPixels; split <;> exact h

theorem TileDev.wf_accept (d : TileDev) (p : Packet) (h : d.Wf) (hv : d.valid p = true) : (d.accept p).Wf := by
  unfold TileDev.accept
  cases hk : p.kind <;> simp only [] <;>
    first
    | exact h
    | exact TileDev.wf_writePixels _ _ _ _ _ h
    | (obtain ⟨h1, -⟩ := h
       simp only [TileDev.valid, hk, Bool.and_eq_true, decide_eq_true_eq] at hv
       exact ⟨h1, hv.1.1.1, hv.1.1.2, hv.1.2, hv.2⟩)
    | (split <;> exact h)

theorem TileDev.valid_of_ok (d : TileDev) (p : Packet) (h : d.ackStatus p = .ok) : d.valid p = true := by
  by_contra hv
  have hf : d.inFault = true → p.kind = .sleep := by
    intro hf; by_contra hk; simp [TileDev.ackStatus, hf, hk] at h
  cases hi : d.inFault with
  | true => exact hv (by simp [TileDev.valid, hf hi])
  | false => unfold TileDev.ackStatus at h; split at h <;> simp_all; (cases hk : p.kind <;> simp_all [TileDev.valid])

theorem TileDev.wf_obeyAcked (d : TileDev) (p : Packet) (h : d.Wf) : (d.obeyAcked p).1.Wf := by
  apply TileDev.wf_closeUnlessPixels
  cases hs : d.ackStatus p with
  | ok => exact TileDev.wf_accept d p h (TileDev.valid_of_ok d p hs)
  | nochange => exact h
  | reject => exact h

theorem TileDev.wf_obey (d : TileDev) (p : Packet) (h : d.Wf) : (d.obey p).1.Wf := by
  have hc := TileDev.wf_closeUnlessPixels p d h
  unfold TileDev.obey
  split
  · exact TileDev.wf_chainReset d h
  · exact hc
  · exact hc
  · exact hc
  · simp only []; split <;> exact hc
  · exact TileDev.wf_obeyAcked d p h

theorem TileDev.wf_obeyHeld (ps : List Packet) (d : TileDev) (h : d.Wf) : (TileDev.obeyHeld ps d).1.Wf := by
  induction ps generalizing d with
  | nil => exact h
  | cons p rest ih =>
    unfold TileDev.obeyHeld
    split
    · exact TileDev.wf_obey _ _ (ih d h)
    · exact ih _ (TileDev.wf_obey d p h)

theorem TileDev.wf_take (d : TileDev) (p : Packet) (h : d.Wf) : (d.take p).1.Wf := by
  unfold TileDev.take
  split
  · split
    · exact h
    · exact TileDev.wf_closeUnlessPixels p d h
  · split
    · exact TileDev.wf_obey _ _ (TileDev.wf_obeyHeld _ _ h)
    · exact TileDev.wf_obey d p h

theorem TileDev.wf_receive (d : TileDev) (p : Packet) (h : d.Wf) : (d.receive p).1.Wf := by
  have ht := TileDev.wf_take d p h
  unfold TileDev.receive
  split_ifs <;> assumption

theorem TileDev.wf_receiveBytes (d : TileDev) (bs : List Byte) (h : d.Wf) : (d.receiveBytes bs).1.Wf := by
  have ht : (match judgeDownstream bs with | some p => d.take p | none => (d, [])).1.Wf := by
    split
    · exact TileDev.wf_take d _ h
    · exact h
  unfold TileDev.receiveBytes
  dsimp only
  split_ifs <;> assumption

/-- Bytes that are no packet leave the tile as it was and draw no reply (R142). -/
theorem TileDev.receiveBytes_bad (d : TileDev) (bs : List Byte) (h : judgeDownstream bs = none) :
    (d.receiveBytes bs).1 = d ∧ (d.receiveBytes bs).2.1 = [] := by
  unfold TileDev.receiveBytes
  rw [h]
  dsimp only
  split_ifs <;> exact ⟨rfl, rfl⟩

theorem TileDev.wf_boundary (d : TileDev) (h : d.Wf) : d.boundary.1.Wf := by
  unfold TileDev.boundary
  split
  · exact TileDev.wf_obeyHeld _ _ h
  · exact h

theorem TileDev.wf_tick (d : TileDev) (h : d.Wf) : d.tick.1.Wf := by
  unfold TileDev.tick
  split
  · split
    · exact TileDev.wf_boundary d h
    · exact h
  · exact h

theorem TileDev.wf_detectFault (d : TileDev) (code : BitVec 4) (h : d.Wf) : (d.detectFault code).1.Wf := h

/-- What a tile sends by itself carries distance 0 (R1). -/
theorem replyTo_distance (p : Packet) (m : TileMsg) : ∀ u ∈ replyTo p m, u.distance = 0 := by
  unfold replyTo; split <;> simp [TileMsg.own]

/-- The RGB16 colours of a pixel stay in the low half of its word (R106). -/
theorem TileDev.pixelAt_rgb16 (d : TileDev) (off : Nat) : d.pixelAt .rgb16 off &&& 0xFFFF0000#32 = 0 := by
  unfold TileDev.pixelAt colourBits
  rw [BitVec.and_assoc, show (0x0000FFFF#32 &&& 0xFFFF0000#32) = 0 from by decide]
  exact BitVec.and_zero

end Sys2Proof.Machine
end

