-- ==== Sys2Proof/Laws/Transactions.lean ====
section
/-! SUPPORT. What ending an entry and settling its tile and owner can do, said once for each operation. -/

namespace Sys2Proof.Machine

/-! ## One tile and its jobs -/

/-- `t` is `s` after work on the entry of tile `x` and on the jobs: ports, records, registers and walkers as they were, every
other tile touched in its work only, the credits and the configuration flag of `x` as they were, and no job changed in what it
was taken with. -/
structure TileFrame (x : TileNum) (s t : State) : Prop where
  rest : t.eraseJobs = s.eraseJobs
  other : ∀ u, u ≠ x → (t.tile u).eraseWork = (s.tile u).eraseWork
  credits : (t.tile x).credits = (s.tile x).credits
  config : (t.tile x).configInFlight = (s.tile x).configInFlight
  slot : s.fatal = false → ∀ i, (t.slot i).erase = (s.slot i).erase
  still : ∀ i j, s.job i = some j → j.phase.isRunning = false → ∃ j', t.job i = some j' ∧ j'.still = j.still

namespace TileFrame

variable {x : TileNum} {s t r : State}

theorem ofJob (h : JobFrame s t) : TileFrame x s t where
  rest := h.rest
  other u _ := h.tile u
  credits := (congrArg TileEntry.credits (h.tile x) :)
  config := (congrArg TileEntry.configInFlight (h.tile x) :)
  slot := h.slot
  still := h.still

theorem refl (x : TileNum) (s : State) : TileFrame x s s := ofJob (JobFrame.refl s)

theorem body (h : TileFrame x s t) : t.body = s.body := (congrArg State.body h.rest :)
theorem portA (h : TileFrame x s t) : t.portA = s.portA := (congrArg State.portA h.rest :)
theorem portB (h : TileFrame x s t) : t.portB = s.portB := (congrArg State.portB h.rest :)
theorem port (h : TileFrame x s t) (p : PortId) : t.port p = s.port p := by
  cases p
  · exact h.portA
  · exact h.portB
theorem records (h : TileFrame x s t) : t.records = s.records := (congrArg State.records h.rest :)
theorem notice (h : TileFrame x s t) : t.notice = s.notice := (congrArg State.notice h.rest :)
theorem tileChg (h : TileFrame x s t) : t.tileChg = s.tileChg := (congrArg State.tileChg h.rest :)

theorem trans (h : TileFrame x s t) (g : TileFrame x t r) : TileFrame x s r where
  rest := g.rest.trans h.rest
  other u hu := (g.other u hu).trans (h.other u hu)
  credits := g.credits.trans h.credits
  config := g.config.trans h.config
  slot hf i := (g.slot (by rw [State.fatal_of_body h.body]; exact hf) i).trans (h.slot hf i)
  still i j hj hr := by
    obtain ⟨j', hj', e⟩ := h.still i j hj hr
    have hr' : j'.phase.isRunning = false := (congrArg (fun k : Job => k.phase.isRunning) e :).trans hr
    obtain ⟨j'', hj'', e'⟩ := g.still i j' hj' hr'
    exact ⟨j'', hj'', e'.trans e⟩

/-- A change of the entry of `x` that leaves its credits and its configuration flag. -/
theorem modTile (s : State) (x : TileNum) {f : TileEntry → TileEntry} (hc : (f (s.tile x)).credits = (s.tile x).credits)
    (hg : (f (s.tile x)).configInFlight = (s.tile x).configInFlight) : TileFrame x s (s.modTile x f) where
  rest := rfl
  other u hu := by rw [State.tile_modTile, if_neg (Ne.symm hu)]
  credits := by rw [State.tile_modTile_self]; exact hc
  config := by rw [State.tile_modTile_self]; exact hg
  slot _ _ := rfl
  still _ j hj _ := ⟨j, hj, rfl⟩

end TileFrame

section
variable (s : State) (e : TileEntry)

@[simp] theorem TileEntry.enter_credits (now : Word) (st : TileState) : (e.enter now st).credits = e.credits := by
  unfold TileEntry.enter
  cases st <;> dsimp only <;> repeat' split
  all_goals rfl

@[simp] theorem TileEntry.enter_config (now : Word) (st : TileState) :
    (e.enter now st).configInFlight = e.configInFlight := by
  unfold TileEntry.enter
  cases st <;> dsimp only <;> repeat' split
  all_goals rfl

@[simp] theorem TileEntry.enter_state (now : Word) (st : TileState) : (e.enter now st).state = st := by
  unfold TileEntry.enter
  cases st <;> dsimp only <;> repeat' split
  all_goals rfl

@[simp] theorem TileEntry.mismatch_credits (b : Bool) : (e.mismatch b).credits = e.credits := by
  unfold TileEntry.mismatch
  split <;> rfl

@[simp] theorem TileEntry.mismatch_config (b : Bool) : (e.mismatch b).configInFlight = e.configInFlight := by
  unfold TileEntry.mismatch
  split <;> rfl

@[simp] theorem TileEntry.mismatch_eraseWork (b : Bool) : (e.mismatch b).eraseWork = e.eraseWork := by
  unfold TileEntry.mismatch
  split <;> rfl

@[simp] theorem TileEntry.streamAcked_eraseWork (o : Option SlotNum) (n : Nat) :
    (e.streamAcked o n).eraseWork = e.eraseWork := by
  unfold TileEntry.streamAcked
  split
  · split <;> rfl
  · rfl

theorem TileEntry.streamAcked_credits (o : Option SlotNum) (n : Nat) : (e.streamAcked o n).credits = e.credits :=
  (congrArg TileEntry.credits (e.streamAcked_eraseWork o n) :)

theorem TileEntry.streamAcked_config (o : Option SlotNum) (n : Nat) :
    (e.streamAcked o n).configInFlight = e.configInFlight :=
  (congrArg TileEntry.configInFlight (e.streamAcked_eraseWork o n) :)

theorem TileEntry.wakeAcked_frame (now : Word) (st : Settings) (b : Bool) :
    (e.wakeAcked now st b).credits = e.credits ∧ (e.wakeAcked now st b).configInFlight = e.configInFlight := by
  unfold TileEntry.wakeAcked
  split <;> simp

theorem TileEntry.sleepAcked_frame (now : Word) (st : Settings) (b : Bool) :
    (e.sleepAcked now st b).credits = e.credits ∧ (e.sleepAcked now st b).configInFlight = e.configInFlight := by
  unfold TileEntry.sleepAcked
  split
  · simp
  · split <;> simp
  · simp

theorem TileEntry.bandAcked_frame (x y : Word) :
    (e.bandAcked x y).credits = e.credits ∧ (e.bandAcked x y).configInFlight = e.configInFlight := by
  unfold TileEntry.bandAcked
  split <;> simp

theorem TileEntry.reportPower_frame (now w : Word) :
    (e.reportPower now w).credits = e.credits ∧ (e.reportPower now w).configInFlight = e.configInFlight := by
  unfold TileEntry.reportPower
  split <;> simp

theorem State.windowChanged_frame (t : TileNum) (o : Option SlotNum) : JobFrame s (s.windowChanged t o) := by
  unfold State.windowChanged
  split
  · split
    · exact JobFrame.refl s
    · exact s.failPart_frame _ t _
  · exact JobFrame.refl s

/-- An acknowledgement applied works on the entry's tile alone. -/
theorem State.applyAck_frame (a : Entry) (b : Bool) : TileFrame a.tile s (s.applyAck a b) := by
  unfold State.applyAck
  dsimp only
  split
  · exact TileFrame.modTile s _ (TileEntry.wakeAcked_frame ..).1 (TileEntry.wakeAcked_frame ..).2
  · exact TileFrame.modTile s _ (TileEntry.sleepAcked_frame ..).1 (TileEntry.sleepAcked_frame ..).2
  · exact TileFrame.modTile s _ (by simp [TileEntry.displayAcked]) (by simp [TileEntry.displayAcked])
  · exact TileFrame.modTile s _ (by simp [TileEntry.displayAcked]) (by simp [TileEntry.displayAcked])
  · exact TileFrame.modTile s _ (by simp [TileEntry.invertAcked]) (by simp [TileEntry.invertAcked])
  · exact (TileFrame.modTile s _ rfl rfl).trans (TileFrame.ofJob (State.windowChanged_frame _ _ _))
  · exact TileFrame.modTile s _ (TileEntry.bandAcked_frame ..).1 (TileEntry.bandAcked_frame ..).2
  · exact TileFrame.modTile s _ rfl rfl
  · exact TileFrame.modTile s _ rfl rfl
  all_goals first
    | exact TileFrame.refl _ s
    | exact TileFrame.modTile s _ (TileEntry.streamAcked_credits ..) (TileEntry.streamAcked_config ..)

theorem State.applyReport_frame (t : TileNum) (w : Word) : TileFrame t s (s.applyReport t w) :=
  TileFrame.modTile s t
    ((TileEntry.reportPower_frame ..).1.trans (by simp [TileEntry.reportMirrors]))
    ((TileEntry.reportPower_frame ..).2.trans (by simp [TileEntry.reportMirrors]))

theorem State.setError_frame (t : TileNum) (c : ErrorCode) : JobFrame s (s.setError t c) :=
  JobFrame.modTile s t fun _ => rfl

/-- A job's part changed alone. -/
theorem State.modParts_frame (i : SlotNum) {f : Job → Job} (hi : ∀ j, (f j).idn = j.idn) (hs : ∀ j, (f j).still = j.still) :
    JobFrame s (s.modJob i f) := JobFrame.modJob s i fun j _ => ⟨hi j, fun _ => hs j⟩

theorem State.wakeTold_frame (i : SlotNum) (t : TileNum) : JobFrame s (s.wakeTold i t) := by
  unfold State.wakeTold
  repeat' split
  all_goals first
    | exact JobFrame.refl s
    | exact State.modParts_frame s i (fun _ => rfl) (fun _ => rfl)

theorem State.streamTold_frame (i : SlotNum) (t : TileNum) : JobFrame s (s.streamTold i t) := by
  unfold State.streamTold
  repeat' split
  all_goals first
    | exact JobFrame.refl s
    | exact s.completePart_frame i t

/-- Telling the owner is work of the Job Engine. -/
theorem State.tellOwner_frame (a : Entry) (f : Option ErrorCode) : JobFrame s (s.tellOwner a f) := by
  unfold State.tellOwner
  repeat' split
  all_goals first
    | exact JobFrame.refl s
    | exact s.failPart_frame _ _ _
    | exact s.wakeTold_frame _ _
    | exact s.streamTold_frame _ _
    | exact s.completePart_frame _ _

end

/-! ## The end of an entry -/

/-- A write that runs on stands with the port's others, and nothing else of the port changes (R147). -/
theorem Port.keepWrite_eq (v : Port) (e : Entry) :
    v.keepWrite e = { v with cutWrites := v.cutWrites ++ e.writeUnderWay } := by
  unfold Port.keepWrite Entry.writeUnderWay
  cases e.phase <;> simp

section
variable (s : State) (p : PortId) (e : Entry) (q : Bool)

/-- All that a further reply does by itself to an entry in WRITING. -/
theorem State.keepOlderWrite_eq : s.keepOlderWrite p e =
    s.setPort p { s.port p with cutWrites := (s.port p).cutWrites ++ e.writeUnderWay } := by
  unfold State.keepOlderWrite Entry.writeUnderWay
  cases h : e.phase with
  | awaiting => cases p <;> simp [State.setPort, State.port]
  | writing w => simp [State.modPort, Port.keepWrite_eq, Entry.writeUnderWay, h]

@[simp] theorem State.endEntry_port : (s.endEntry p e q).port p =
    (let v := { s.port p with inFlight := (s.port p).inFlight.filter (fun f => decide (f.tag ≠ e.tag)) }
     if q then (v.quarantine e.tag).keepWrite e else v) := by
  unfold State.endEntry
  dsimp only
  split <;> simp

theorem State.endEntry_port_ne {r : PortId} (h : r ≠ p) : (s.endEntry p e q).port r = s.port r := by
  unfold State.endEntry
  dsimp only
  split <;> simp [State.port_modPort_ne _ _ h]

theorem State.endEntry_tile (u : TileNum) : (s.endEntry p e q).tile u =
    if e.tile = u then
      { s.tile e.tile with
        credits := (s.tile e.tile).credits - 1
        configInFlight := if e.kind.isConfig then false else (s.tile e.tile).configInFlight }
    else s.tile u := by
  unfold State.endEntry
  dsimp only
  split <;> simp [State.tile_modTile]

theorem State.endEntry_job (i : SlotNum) : (s.endEntry p e q).job i =
    if e.owner.slot? = some i then (s.job i).map (fun j => { j with outstanding := j.outstanding - 1 }) else s.job i := by
  unfold State.endEntry
  dsimp only
  split
  · next k hk =>
    rw [State.job_modJob, hk]
    by_cases h : k = i <;> simp [h]
  · next hk => rw [hk]; simp

@[simp] theorem State.endEntry_fields : (s.endEntry p e q).records = s.records ∧
    (s.endEntry p e q).notice = s.notice ∧ (s.endEntry p e q).tileChg = s.tileChg ∧
    (s.endEntry p e q).waitList = s.waitList := by
  unfold State.endEntry
  dsimp only
  split <;> simp

end

end Sys2Proof.Machine
end

