-- ==== Sys2Proof/WellFormed.lean ====
section
/-! DEFINITION. Which commands can occur: the operands that the row's own event allows. A command that is not well formed is
no event of the part; `exec` is total and a wrong operand does what its text says all the same. -/

namespace Sys2Proof

/-- Bytes of a register read: 1, 2 or 4, aligned, inside the word (R182). -/
def accessOk (off len : Nat) : Bool := (len == 1 || len == 2 || len == 4) && off % len == 0 && off + len ≤ 4

def readLengthIs (ok : Nat → Bool) : ReadResult → Bool
  | .bytes bs => ok bs.length
  | .busError => true

/-- The operands of a command are ones its event can have. -/
def Instr.wf : Instr → Bool
  | .unknownCommand code => commandOfCode code == .unknownCommand code
  | .tilechgRead off len => accessOk off len
  | .registerWriteIgnored off len =>
      (len == 1 || len == 2 || len == 4) && off % len == 0 && off + len ≤ 64 &&
        registerWriteCommand off len 0 == .registerWriteIgnored off len
  | .dataReceived _ _ _ ws => 1 ≤ ws.length && ws.length ≤ 128
  | .faultNotice _ _ code => code != 0
  | .linkErrorPacket p bs => upstreamCommand p bs == .linkErrorPacket p bs
  | .controlBlockReadDone r => readLengthIs (· == 128) r
  | .headerReadDone _ r => readLengthIs (· == 32) r
  | .stepReadDone _ r => readLengthIs (fun n => n % 16 == 0 && 16 ≤ n && n ≤ 512) r
  | .rescanReadDone _ r => readLengthIs (· == 4) r
  | .stagingReadDone _ _ r => readLengthIs (fun n => n % 4 == 0 && 4 ≤ n && n ≤ 512) r
  | _ => true

end Sys2Proof
end

