-- ==== Sys2Proof/Tests/Slice0.lean ====
section
/-! SUPPORT. Checks on fixed values: each check of `Instr.wf` with a command it refuses, raw writes and raw packets read into
commands, a few meanings on one step each, and for every statement with hypotheses a state and operands that meet them. -/

namespace Sys2Proof.Tests

set_option Elab.async false

open Sys2Proof.Machine

/-! ## Well-formedness: one ill-formed command for each check -/

theorem test_wf_unknownCommand :
    (Instr.unknownCommand 0x01).wf = false ∧ (Instr.unknownCommand 0x16).wf = true := by decide +kernel

theorem test_wf_tilechgRead :
    (Instr.tilechgRead 0 3).wf = false ∧ (Instr.tilechgRead 1 2).wf = false ∧ (Instr.tilechgRead 4 4).wf = false ∧
    (Instr.tilechgRead 0 4).wf = true ∧ (Instr.tilechgRead 2 2).wf = true ∧ (Instr.tilechgRead 3 1).wf = true := by
  decide +kernel

theorem test_wf_registerWriteIgnored :
    (Instr.registerWriteIgnored 0 3).wf = false ∧ (Instr.registerWriteIgnored 1 2).wf = false ∧
    (Instr.registerWriteIgnored 64 1).wf = false ∧ (Instr.registerWriteIgnored 0 4).wf = false ∧
    (Instr.registerWriteIgnored 8 4).wf = true ∧ (Instr.registerWriteIgnored 63 1).wf = true := by decide +kernel

theorem test_wf_dataReceived :
    (Instr.dataReceived .A 0 0 []).wf = false ∧ (Instr.dataReceived .A 0 0 (List.replicate 129 0)).wf = false ∧
    (Instr.dataReceived .A 0 0 (List.replicate 128 0)).wf = true := by decide +kernel

theorem test_wf_faultNotice :
    (Instr.faultNotice .A 0 0).wf = false ∧ (Instr.faultNotice .B 11 15).wf = true := by decide +kernel

/-- A FRAME notice from distance 2, its CRC good: it is no faulty packet. -/
def framePacket : List Byte := [0x03, 0x02, 0x10, 0x00] ++ halfBytes (crc16 [0x03, 0x02, 0x10, 0x00])

theorem test_wf_linkErrorPacket :
    (Instr.linkErrorPacket .A framePacket).wf = false ∧ (Instr.linkErrorPacket .A []).wf = true := by decide +kernel

theorem test_wf_readLengths :
    (Instr.controlBlockReadDone (.bytes [])).wf = false ∧ (Instr.headerReadDone .normal (.bytes [])).wf = false ∧
    (Instr.stepReadDone .normal (.bytes [])).wf = false ∧
    (Instr.stepReadDone .normal (.bytes (List.replicate 17 0))).wf = false ∧
    (Instr.stepReadDone .normal (.bytes (List.replicate 528 0))).wf = false ∧
    (Instr.rescanReadDone .normal (.bytes [])).wf = false ∧ (Instr.stagingReadDone 0 0 (.bytes [])).wf = false ∧
    (Instr.stagingReadDone 0 0 (.bytes (List.replicate 6 0))).wf = false ∧
    (Instr.stagingReadDone 0 0 (.bytes (List.replicate 516 0))).wf = false ∧
    (Instr.rescanReadDone .normal .busError).wf = true := by decide +kernel

/-! ## Raw inputs read into commands -/

theorem test_tableWords : decodeTableWord 32 1 = none := rfl

theorem test_commandCodes :
    [0x01, 0x02, 0x03, 0x04, 0x10, 0x11, 0x12, 0x13, 0x14, 0x15].map (fun c => registerWriteCommand 4 4 c) =
      [Instr.start, .stop, .reset, .enumerate, .rescanN, .rescanP, .resumeN, .resumeP, .abortN, .abortP] := by decide +kernel

theorem test_registerWrites :
    registerWriteCommand 0x00 4 64 = .cbaddrWrite 64 ∧ registerWriteCommand 0x14 4 1 = .noticeWrite 1 ∧
    registerWriteCommand 0x18 4 1 = .noticeenWrite 1 ∧ registerWriteCommand 0x05 1 1 = .registerWriteIgnored 5 1 ∧
    registerWriteCommand 0x04 4 5 = .unknownCommand 5 := by decide +kernel

theorem test_crc : crc16 [0x31, 0x32, 0x33, 0x34, 0x35, 0x36, 0x37, 0x38, 0x39] = 0x6F91#16 := by decide +kernel

theorem test_upstreamFrame : upstreamCommand .B framePacket = .frameNotice .B 2 := by decide +kernel

theorem test_upstreamAck :
    upstreamCommand .A ([0x01, 0x51, 0x01, 0x00] ++ halfBytes (crc16 [0x01, 0x51, 0x01, 0x00])) =
      .ackReceived .A 1 5 .nochange := by decide +kernel

/-- 0x03 goes out as 1, 1, 0, 0, 0, 0, 0, 0; the bits of a packet give its command, and with one bit more they are no packet.
-/
theorem test_lineBits :
    lineBits [0x03] = [true, true, false, false, false, false, false, false] ∧
    lineCommand .B (lineBits framePacket) = .frameNotice .B 2 ∧
    lineCommand .B (lineBits framePacket ++ [true]) = .linkErrorPacket .B [] := by decide +kernel

theorem test_upstreamSoftError : judgeUpstream [0x03, 0x02, 0x10, 0x00, 0x00, 0x00] = .softError := by decide +kernel

/-! ## Small states -/

/-- A running engine, everything else as after reset. -/
def run : State := { State.reset with engine := .running }

def low : State := { State.reset with resetLow := true }

/-- One window, 0x1000 to 0x2FFF, open both ways, and a status area. -/
def open1 : Settings :=
  { Settings.reset with
    apertures := #v[⟨0x1000, 0x2000, .readWrite⟩, ⟨0, 0, .none⟩, ⟨0, 0, .none⟩, ⟨0, 0, .none⟩], statusArea := some 0x2000 }

/-- A running engine whose Normal walker stands as given. -/
def walking (st : WalkerState) (w : WalkerWork) : State :=
  { run with settings := open1, walkerN := { Walker.reset with state := st, work := w } }

def stepOf (k : StepKind) (x y : Word) : Step :=
  { kind := k, onFrame := false, sleepAfter := false, tolerant := false, pass := false, tiles := 1, x := x, y := y }

def jobOf (ph : Phase) (st : Step) (ps : List TilePart) : Job :=
  { chain := .normal, addr := 0x1000, order := 1, notify := true, haltOnFail := true, steps := [st], tiles := st.tiles,
    phase := ph, current := 0, parts := ps, outstanding := 0, firstFailure := none, tolerated := 0, stepsDone := 0,
    startedAt := 0, abortRequested := false, pauseDue := none, engineDone := false }

/-- A running engine with one job, in slot 0. -/
def withJob (j : Job) : State := run.setSlot 0 (.job j)

def failedAt (st : RetireStage) : Retirement :=
  { terminal := .failed, code := some .badStep, failingStep := 255, failingTile := none, tolerated := 0, stepsDone := 0,
    startedAt := 0, endedAt := 0, stage := st }

def fetched : Fetched := { addr := 0x1000, link := 0, notify := true, haltOnFail := true, steps := [] }

def retire (st : RetireStage) : DirectRetire :=
  { addr := 0x1000, link := 0, notify := true, haltOnFail := false, results := failedAt st }

def entryOf (k : PacketKind) (ph : EntryPhase) : Entry :=
  { tag := 0, tile := 0, owner := .autoSleep, kind := k, issueTime := 0, deadline := some 0, phase := ph, x := 0, y := 0,
    first := 0, pixels := 1, format := .rgb24 }

def tileIn (st : TileState) : TileEntry := { TileEntry.reset with state := st, geometry := some ⟨8, 8, 5⟩ }

/-- A running engine with port A as given and tile 0 as given. -/
def onPort (v : Port) (e : TileEntry) : State := { run with portA := v }.setTile 0 e

def portIn (st : PortState) : Port := { Port.reset with state := st }

/-- Port A UP with one packet in flight to tile 0. -/
def inFlightTo (e : Entry) (x : TileEntry) : State := onPort { portIn .up with inFlight := [e] } { x with credits := 1 }

/-- Port A probing position `d`, with the probe in flight. -/
def probingAt (d : Position) : State :=
  onPort { portIn .enumerating with
    probing := some d,
    inFlight := [{ entryOf .probe .awaiting with tile := tileOf .A d, owner := .enumeration }] } (tileIn .absent)

def wordsToBytes (ws : List Word) : List Byte := (ws.map wordBytes).flatten

/-- A running engine with a job of the Normal chain in slot 0 and one of the Priority chain, for tile 1, in slot 1. -/
def twoJobs (j k : Job) : State := (withJob j).setSlot 1 (.job { k with chain := .priority, order := 2, tiles := 2 })

def queuedShow : Job := jobOf .queued (stepOf .show 0 0) []
def runningShow : Job := jobOf .running (stepOf .show 0 0) [⟨0, .candidate, .empty⟩]
def runningPut (g : Staging) : Job := jobOf .running (stepOf .put 0x1000 1) [⟨0, .candidate, g⟩]
def waitJob (p : Bool) : Job := jobOf .running { stepOf .wait 0x20 1 with tiles := 0, pass := p } []
def pauseJob : Job := { jobOf .running { stepOf .pause 1 0 with tiles := 0 } [] with pauseDue := some 0 }

/-- A running engine with a WAIT in the list, for the source given. -/
def waiting (p : Bool) (src : EventSource) : State := { withJob (waitJob p) with waitList := [⟨0, src, 0⟩] }

/-- Port A UP, and a packet of the job in slot 0 in flight to tile 0. -/
def inFlightOf (k : PacketKind) (st : StepKind) (ph : EntryPhase) (x : TileEntry) : State :=
  (inFlightTo { entryOf k ph with owner := .job 0 0 } x).setSlot 0
    (.job { jobOf .running (stepOf st 0x1000 1) [⟨0, .issued, .empty⟩] with outstanding := 1 })

/-- The state after the command. -/
def after (c : Instr) (s : State) : State := match exec c s with | .next t => t | _ => s

/-- The entry of `inFlightOf`. -/
def owned (k : PacketKind) (ph : EntryPhase) : Entry := { entryOf k ph with owner := .job 0 0 }

theorem quiet_reset : Quiet State.reset := by unfold Quiet; decide +kernel
theorem quiet_run : Quiet run := by unfold Quiet; decide +kernel

/-! ## The premises of each statement are met -/

/-- No access outlives its work in a state built from the reset state. -/
theorem test_no_access_cut : (∀ a, State.reset.accessCut a = false) ∧ (∀ a, run.accessCut a = false) :=
  ⟨fun _ => rfl, fun _ => rfl⟩

theorem test_NoOccasionNoChange_premises :
    occasion .stop low = false ∧ occasion (.slotOffer 0) State.reset = false ∧
    occasion (.settleTimerExpiry 23) run = false := by decide +kernel

theorem test_RegistersChangeOnlyByTheirRows_premises :
    ∃ t, exec .timebaseTick run = .next t ∧ (∀ v, Instr.timebaseTick ≠ .cbaddrWrite v) ∧
      (∀ v, Instr.timebaseTick ≠ .noticeenWrite v) ∧ Instr.timebaseTick ≠ .hardReset :=
  ⟨_, rfl, fun _ => nofun, fun _ => nofun, nofun⟩

/-- The three invariants on a state with a full wake history of its limit, and a command in front. -/
theorem test_invariant_premises :
    let s : State := { run with pending := [.timebaseTick], wakeHistory := [0] }
    s.wakeHistory.length ≤ s.settings.wakeLimit ∧ (s.engine.isStartingOrRunning = true → s.fault = .none) ∧
    (∀ p, ((s.port p).inFlight.map (fun e => e.tag)).Nodup) ∧ (∀ p, ∀ e ∈ (s.port p).inFlight, portOf e.tile = p) ∧
    ∃ t, step s = .next t :=
  ⟨by decide, fun _ => rfl, fun p => by cases p <;> exact List.nodup_nil, fun p _ => by cases p <;> exact nofun, _, rfl⟩

/-- Of two reads cut for one thing the first begun ends, while RESET_N is low too; another access is not its end. -/
theorem test_reset_premises :
    let a : Access := ⟨.staging 0 0, .read 0x1000 4⟩
    let b : Access := ⟨.staging 0 0, .read 0x1100 4⟩
    let u : State := { low with cutAccesses := [a, b] }
    State.reset.resetLow = false ∧ low.resetLow = true ∧ accessEnded (.stagingReadDone 0 0 .busError) = some (.staging 0 0) ∧
    (∃ v ∈ u.cutAccesses, v.id = .staging 0 0) ∧ (after (.stagingReadDone 0 0 .busError) u).cutAccesses = [b] ∧
    u.accessCut (.results 0) = false ∧ accessEnded (.resultWriteDone 0 true true) = some (.results 0) := by decide +kernel

/-- A reset keeps the read under way for a PUT, and RESET_N's assertion keeps it too. -/
theorem test_reset_keeps_accesses :
    let s := (onPort (portIn .up) (tileIn .awake)).setSlot 0 (.job (runningPut .reading))
    s.accesses = [⟨.staging 0 0, .read 0x1000 4⟩] ∧ (after .reset s).cutAccesses = s.accesses ∧
    (after .hardReset (after .reset s)).accesses = s.accesses := by decide +kernel

theorem test_WindowAccesses_premises :
    State.reset.resetLow = false ∧ (3 % 1 = 0 ∧ 0 < 1) ∧ (6 % 2 = 0 ∧ 1 < 2) ∧ (0x20 % 4 = 0 ∧ 3 < 4) ∧
    (1 ≤ 4 ∧ 0 + 4 ≤ 4) ∧ (3 + 1 ≤ 4) ∧ (1 ≠ 4 ∧ 7 < 8) ∧ (1 ≠ 4 ∧ 8 ≤ 8) ∧ 0x24 ≤ 0x24 := by decide +kernel

theorem test_RegistersReadAndWritten_premises :
    State.reset.engine.isOffOrHalted = true ∧ EngineState.halted.isOffOrHalted = true := by decide +kernel

theorem test_RefusedCommandsChangeNothingElse_premises :
    commandRefused .start .running = true ∧ commandRefused .enumerate .stopping = true ∧
    commandRefused (.cbaddrWrite 64) (.starting .ports) = true ∧ commandRefused .stop .halted = true ∧
    commandRefused .rescanN .off = true ∧ commandRefused .rescanP .stopping = true ∧
    commandRefused .resumeN .off = true ∧ commandRefused .resumeP .halted = true ∧
    commandRefused .abortN .off = true ∧ commandRefused .abortP (.starting .ports) = true ∧
    commandRefused (.unknownCommand 0x16) .running = true ∧
    commandRefused (.registerWriteIgnored 7 1) .running = true := by decide +kernel

theorem test_StartTaken_premises :
    State.reset.engine.isOffOrHalted = true ∧ ((64 : Word) ≠ 0 ∧ (64 : Word).toNat % 64 = 0) ∧ State.reset.cbaddr = 0 ∧
    (32 : Word).toNat % 64 ≠ 0 := by decide +kernel

/-- The least and the greatest value of every setting that has both, one window 0x1000 to 0x2FFF. -/
def leastBlock : List Byte :=
  wordsToBytes ([0, 0, 0x2000, 0, 0x1000, 0x2000, 3] ++ List.replicate 9 0 ++
    [0x00010000, 0x000A0001, 0x0001000A, 0x00000001, 0, 0xFFFF] ++ List.replicate 10 0)

def greatestBlock : List Byte :=
  wordsToBytes ([0xFFFFFFF0, 0xFFFFFFF0, 0x2000, 0, 0x1000, 0x2000, 3] ++ List.replicate 9 0 ++
    [0x00FF03E8, 0x13880008, 0x03E803E8, 0x07D007D0, 0x03E82710, 0x3317] ++ List.replicate 10 0)

theorem test_leastBlock_inRange : ControlBlockInRange 0x1000 leastBlock := by unfold ControlBlockInRange; decide +kernel

theorem test_greatestBlock_inRange : ControlBlockInRange 0x1000 greatestBlock := by unfold ControlBlockInRange; decide +kernel

/-- A block of zeros has a reply time of 0, which is out of range. -/
theorem test_zeroBlock_notInRange : ¬ ControlBlockInRange 0x1000 (List.replicate 128 0) := fun h => by
  have h1 := h.2.2.2.2.2.2.2.1
  revert h1
  decide +kernel

def readingBlock : State := { State.reset with engine := .starting .controlBlock, cbRead := true, cbaddr := 0x1000 }

theorem test_ControlBlockRead_premises :
    readingBlock.resetLow = false ∧ readingBlock.cbRead = true ∧ readingBlock.engine = .starting .controlBlock ∧
    (parseSettings readingBlock.cbaddr leastBlock).isSome = true ∧
    (parseSettings readingBlock.cbaddr greatestBlock).isSome = true ∧ parseSettings readingBlock.cbaddr [] = none ∧
    ({ readingBlock with engine := .stopping } : State).engine ≠ .starting .controlBlock ∧
    readingBlock.cbaddr = 0x1000 ∧ byteAt leastBlock 0x54 = 0xFF ∧ byteAt greatestBlock 0x54 = 0x17 ∧
    byteAt greatestBlock 0x55 = 0x33 := by decide +kernel

theorem test_SettingsRead_holds :
    ∃ st, parseSettings 0x1000 greatestBlock = some st ∧ st.pollMs = 1000 ∧ st.replyMs = 255 ∧ st.wakeLimit = 8 ∧
      st.wakeWindowMs = 5000 ∧ st.sync0 = some (.frame 23) ∧ st.sync1 = some (.mark 3) :=
  ⟨_, rfl, by decide +kernel⟩

def rewriting (st : RewriteStage) (e : EngineState) : State :=
  { run with settings := open1, engine := e }.setRecord 23
    ⟨false, false, some { area := 0x2000, stage := st, joins := true, byStart := true, stopped := false }⟩

def parted (c : PartCond) : TilePart := ⟨0, c, .empty⟩

def showJob (ph : Phase) : Job := jobOf ph (stepOf .show 0 0) [parted .candidate]

theorem test_StopTaken_premises :
    run.engine.isStartingOrRunning = true ∧ EngineState.isStartingOrRunning (.starting .statusRecords) = true ∧
    run.fault = .none ∧ (withJob (showJob .queued)).job 0 = some (showJob .queued) ∧
    (withJob (showJob .running)).job 0 = some (showJob .running) ∧
    (withJob (showJob .draining)).job 0 = some (showJob .draining) ∧
    (withJob (showJob (.retiring (failedAt .results)))).job 0 = some (showJob (.retiring (failedAt .results))) ∧
    (withJob (runningPut .reading)).job 0 = some (runningPut .reading) ∧ (runningPut .reading).phase = .running ∧
    (runningPut .reading).step? = some (stepOf .put 0x1000 1) ∧ ⟨0, .candidate, .reading⟩ ∈ (runningPut .reading).parts ∧
    PartCond.candidate.hasFailed = false := by
  decide +kernel

def entering (head : Word) : State :=
  { State.reset with engine := .starting .ports, settings := { open1 with normalHead := head } }

theorem test_EngineTransitions_premises :
    (entering 0).engine = .starting .ports ∧ (entering 0).portA.state ≠ .training ∧
    (entering 0).portB.state ≠ .enumerating ∧ (entering 0).settings.normalHead = 0 ∧
    (entering 0x1000).settings.permits (0x1000 : Word).toNat 32 true true = true ∧ (0x1008 : Word).toNat % 16 ≠ 0 ∧
    (entering 0x4000).settings.permits (0x4000 : Word).toNat 32 true true = false ∧
    (entering 0).walkerN.state ≠ .halted := by decide +kernel

/-- A START while the read left by a START that failed is under way: the engine cannot stop before both reads have ended. -/
theorem test_control_block_reads :
    let s := (rewriting .countOdd (.starting .statusRecords)).setRecord 23
      ⟨false, false, some ⟨0x2000, .countOdd, false, true, false⟩⟩
    let failed := after (.statusWriteDone 23 false) { s with cbRead := true, cbaddr := 0x1000 }
    let t := after .stop (after .start failed)
    failed.cutAccesses = [⟨.controlBlock, .read 0x1000 128⟩] ∧ failed.cbRead = false ∧ t.engine = .stopping ∧ t.cbRead = true ∧
    (∃ v ∈ t.accesses, v.id = .controlBlock) ∧ (after .engineStopped t).engine = .stopping ∧
    (let u := after (.controlBlockReadDone .busError) t
     u.cutAccesses = [] ∧ u.cbRead = true ∧ (after .engineStopped u).engine = .stopping ∧
      (after .engineStopped (after (.controlBlockReadDone .busError) u)).engine = .off) := by decide +kernel

/-- A header read that an earlier STOP left running is still under way when the walker starts. -/
theorem test_walker_read_runs_on :
    let s : State := { entering 0x1000 with walkerN := { Walker.reset with work := .readHeader 0x1100 } }
    ⟨.header .normal, .read 0x1100 32⟩ ∈ (after .engineEntersRunning s).cutAccesses ∧
    (after .engineEntersRunning s).walkerN.work = .readHeader 0x1000 := by decide +kernel

theorem test_EngineStopped_premises :
    let s : State := { State.reset with engine := .stopping }
    (∀ i, s.slot i = .free) ∧ (∀ p, (s.port p).state ≠ .training ∧ (s.port p).state ≠ .enumerating) ∧
    (∀ c d, (s.walker c).work ≠ .retire d) ∧ s.cbRead = false ∧
    ∀ x, (s.record x).rewrite = none ∧ (s.record x).markChange = false ∧ (s.record x).markStart = false :=
  ⟨by decide +kernel, fun p => by cases p <;> decide +kernel, fun c _ => by cases c <;> exact nofun, rfl,
    by decide +kernel⟩

theorem test_RescansAndResumes_premises :
    (walking .parked .none).engine = .running ∧ (walking .parked .none).walkerN.work = .none ∧
    (walking .parked (.rescanLink 0x1000)).walkerN.work ≠ .none ∧ (walking .fetching .none).walkerN.state = .fetching ∧
    (walking .blocked (.held fetched [])).walkerN.state = .blocked ∧ run.walkerN.state = .idle ∧
    (walking .halted .none).walkerN.state = .halted ∧ reached 50 50 = true ∧
    ({ Walker.reset with state := .parked, pollDue := some 0 } : Walker).pollDue = some 0 ∧
    ({ Walker.reset with state := .parked, rescanPending := true } : Walker).rescanPending = true ∧
    ({ Walker.reset with state := .halted, resumePending := true } : Walker).resumePending = true := by decide +kernel

/-- The two walkers of a state between two events, one HALTED already, jobs of both chains, and a WAIT in the list. -/
def aborting : State := { twoJobs (waitJob false) queuedShow with
  waitList := [⟨0, .trig .zero, 5⟩], walkerP := { Walker.reset with state := .halted } }

theorem test_AbortsAct_premises :
    Quiet aborting ∧ aborting.resetLow = false ∧ aborting.engine = .running ∧ (aborting.walker .normal).state ≠ .halted ∧
    (aborting.walker .priority).state = .halted ∧ aborting.job 0 = some (waitJob false) ∧
    (∃ j ∈ aborting.job 1, j.chain ≠ .normal ∧ j.phase = .queued) ∧ aborting.job 7 = none ∧
    (withJob (showJob .draining)).job 0 = some (showJob .draining) := by unfold Quiet; decide +kernel

/-- A READY header of one step, and of none, and a header that is not READY. -/
def header (count : Word) : List Byte := wordsToBytes [0, 1, count, 0, 0, 0, 0, 0]
def freeHeader : List Byte := wordsToBytes [0, 0, 1, 0, 0, 0, 0, 0]

theorem test_HeaderChecked_premises :
    let s := walking .fetching (.readHeader 0x1000)
    s.resetLow = false ∧ s.engine = .running ∧ s.walkerN.state = .fetching ∧ wordAt freeHeader 4 ≠ 1 ∧
    wordAt (header 1) 4 = 1 ∧ (byteAt (header 1) 8).toNat = 1 ∧ (byteAt (header 32) 8).toNat = 32 ∧
    s.settings.permits (0x1000 : Word).toNat (32 + 16 * 32) true true = true ∧ (byteAt (header 0) 8).toNat = 0 ∧
    (byteAt (header 33) 8).toNat = 33 := by decide +kernel

/-- A state between two events with a QUEUED job of each chain, as the halt of a walker meets it. -/
theorem test_QueuedSkipped_premises :
    let s := twoJobs queuedShow queuedShow
    Quiet s ∧ s.job 0 = some queuedShow ∧ queuedShow.phase = .queued ∧ queuedShow.chain = .normal ∧
    (∃ j ∈ s.job 1, j.phase = .queued ∧ j.chain ≠ .normal) ∧ s.job 7 = none := by unfold Quiet; decide +kernel

theorem test_RescanReads_premises :
    let s := walking .parked (.rescanLink 0x1000)
    s.engine = .running ∧ s.walkerN.state = .parked ∧ wordAt (wordsToBytes [0]) 0 = 0 ∧
    (wordAt (wordsToBytes [0x1000]) 0).toNat % 16 = 0 ∧
    s.settings.permits (wordAt (wordsToBytes [0x1000]) 0).toNat 32 true true = true ∧
    (wordAt (wordsToBytes [0x1008]) 0).toNat % 16 ≠ 0 ∧
    s.settings.permits (wordAt (wordsToBytes [0x3000]) 0).toNat 32 true true = false ∧
    (walking .parked (.rescanHeader 0x1000)).walkerN.work = .rescanHeader 0x1000 ∧
    wordAt (header 32) 4 = 1 ∧ (byteAt (header 32) 8).toNat = 32 ∧ (byteAt (header 33) 8).toNat = 33 ∧
    s.settings.permits (0x1000 : Word).toNat (32 + 16 * 32) true true = true := by decide +kernel

/-- A header of one MARK step whose check field is right, and the MARK step's record. -/
def markHeader : List Byte := wordsToBytes [0, 1, 0x00110001, 0, 0, 0, 0, 0]
def markRecord : List Byte := wordsToBytes [0x10, 0, 0, 0]

/-- The Normal chain holds the first `n` slots, and the others are free. -/
def normals (n : Nat) : Vector Slot 8 := Vector.ofFn (fun k => if k.val < n then .claimed .normal else .free)

/-- A record of a kind that does not exist, and a PUT whose words lie outside every window. -/
def badRecord : List Byte := wordsToBytes [0x11, 0, 0, 0]
def farRecord : List Byte := wordsToBytes [0x0A, 1, 0x8000, 1]

set_option synthInstance.maxSize 512 in
/-- A record that passes both tests, one that fails the first, and one that fails only the second. -/
theorem test_StepsChecked_records :
    (StepWellFormed markRecord 0 ∧ StepPermitted open1 markRecord 0) ∧ ¬ StepWellFormed badRecord 0 ∧
    StepWellFormed farRecord 0 ∧ ¬ StepPermitted open1 farRecord 0 := by
  unfold StepWellFormed StepPermitted ValidSource
  refine ⟨⟨?_, ?_⟩, ?_, ?_, ?_⟩ <;> decide +kernel

theorem test_StepsChecked_premises :
    let s := walking .fetching (.readSteps 0x1000 markHeader)
    s.resetLow = false ∧ s.engine = .running ∧ s.walkerN.state = .fetching ∧
    descriptorSum markHeader markRecord = halfAt markHeader 10 ∧ descriptorSum (header 1) markRecord ≠ halfAt (header 1) 10 ∧
    (byteAt markHeader 8).toNat = 1 ∧
    descriptorSum (wordsToBytes [0, 1, 0x00120001, 0, 0, 0, 0, 0]) badRecord = 0x12 ∧
    s.mayUse .normal = true ∧ s.slotOffers .priority = [] ∧ s.freeSlot = some 0 ∧
    ({ s with walkerP := { Walker.reset with state := .blocked, work := .held fetched [7] } } : State).slotOffers .priority
      = [7] ∧
    ({ s with slots := Vector.replicate 8 (.claimed .normal) } : State).mayUse .normal = false ∧
    ({ s with slots := normals 6 } : State).mayUse .normal = false ∧
    ({ s with slots := normals 5 } : State).mayUse .normal = true ∧
    ({ s with slots := Vector.replicate 8 (.claimed .priority) } : State).freeSlot = none ∧
    ({ s with slots := Vector.replicate 8 (.claimed .priority) } : State).mayUse .normal = true := by decide +kernel

theorem test_SlotsOffered_premises :
    let s := walking .blocked (.held fetched [7])
    s.resetLow = false ∧ s.slot 7 = .free ∧ s.walkerN.work = .held fetched [7] ∧ s.walkerP.work = .none ∧
    s.normalSlots < 6 ∧ (s.setWalker .priority s.walkerN).walkerP.work = .held fetched [7] ∧
    (walking .blocked (.held fetched [])).walkerN.work = .held fetched [] ∧
    ({ s with slots := normals 5 } : State).normalSlots = 5 ∧ ({ s with slots := normals 6 } : State).normalSlots = 6 := by
  decide +kernel

theorem test_TakenWritten_premises :
    let w := WalkerWork.takenWrite fetched 0
    (walking .halted w).fatal = false ∧ (walking .halted w).walkerN.work = w ∧ (walking .idle w).walkerN.state = .idle ∧
    ({ walking .idle w with engine := .stopping, fault := .resultWriteError } : State).fatal = true ∧
    (walking .fetching w).engine = .running ∧ (walking .fetching w).fault = .none ∧ fetched.link = 0 ∧
    open1.permits (0x1000 : Word).toNat 32 true true = true ∧ open1.permits (0x3000 : Word).toNat 32 true true = false := by
  decide +kernel

/-- The job taken is admitted, or QUEUED behind an older one of its chain, or SKIPPED there when the link is bad. -/
theorem test_taken_jobs :
    let taking := fun (a : Word) (older : Slot) =>
      let d := { fetched with link := a, steps := [stepOf .show 0 0] }
      { (walking .fetching (.takenWrite d 0)).setSlot 7 older with nextOrder := 2 }
    let phase := fun s => ((after (.takenWriteDone .normal true) s).job 0).map (fun j => j.phase)
    ⟨.taken .normal, .write 0x1004 [2, 0, 0, 0]⟩ ∈ (taking 0 .free).accesses ∧
    phase (taking 0 .free) ≠ some .queued ∧ phase (taking 0 (.job runningShow)) = some .queued ∧
    phase (taking 0x1000 (.job runningShow)) = some .queued ∧
    phase (taking 0x3000 (.job runningShow)) =
      some (.retiring { haltedResults .access 0 with terminal := .skipped, code := none }) := by decide +kernel

theorem test_DirectRetirement_premises :
    (walking .fetching (.retire (retire .results))).walkerN.work = .retire (retire .results) ∧
    (walking .fetching (.retire (retire .stateWord))).walkerN.state = .fetching ∧
    (retire .stateWord).results.code ≠ some .check ∧ (retire .stateWord).haltOnFail = false ∧
    (retire .stateWord).link = 0 := by decide +kernel

/-- A retirement's writes: code ABORTED, step 3, tile 23, 2 tolerated, 4 done, times 0x01020304 and 5; then FAILED. -/
theorem test_retirement_writes :
    let r : Retirement := { terminal := .failed, code := some .aborted, failingStep := 3, failingTile := some 23,
                            tolerated := 2, stepsDone := 4, startedAt := 0x01020304, endedAt := 5, stage := .results }
    r.write 0x1000 = .write 0x1010 [15, 3, 23, 2, 4, 0, 0, 0, 4, 3, 2, 1, 5, 0, 0, 0] ∧
    ({ r with stage := .stateWord } : Retirement).write 0x1000 = .write 0x1004 [5, 0, 0, 0] := by decide +kernel

theorem test_WalkersOutOfFetching_premises :
    (walking .idle (.readHeader 0x1000)).walkerN.state = .idle ∧
    (walking .idle (.rescanHeader 0x1000)).walkerN.work = .rescanHeader 0x1000 ∧
    (walking .idle (.readSteps 0x1000 [])).walkerN.work = .readSteps 0x1000 [] ∧
    (walking .idle (.rescanLink 0x1000)).walkerN.work = .rescanLink 0x1000 ∧
    (walking .halted (.readHeader 0x1000)).walkerN.state = .halted ∧ wordAt freeHeader 4 ≠ 1 ∧
    (walking .halted (.readSteps 0x1000 markHeader)).walkerN.work = .readSteps 0x1000 markHeader ∧
    checkSum markHeader markRecord = halfAt markHeader 10 ∧
    (walking .halted (.retire (retire .stateWord))).walkerN.work = .retire (retire .stateWord) ∧
    (retire .stateWord).results.stage = .stateWord := by decide +kernel

/-- A BLOCKED Normal walker with a held descriptor, and a FAILED job of its chain whose state word is being written. -/
def blockedAtHalt : State :=
  let j := queuedShow
  (walking .blocked (.held fetched [])).setSlot 0 (.job { j with phase := .retiring (retire .stateWord).results })

theorem test_held_descriptor :
    (∃ j ∈ blockedAtHalt.job 0, j.chain = .normal ∧ j.haltOnFail = true) ∧
    (retire .stateWord).results.terminal = .failed ∧ blockedAtHalt.accessCut (.stateWord 0) = false ∧
    HeldRetired fetched true 0 ((after .abortN blockedAtHalt).walker .normal).work ∧
    HeldRetired fetched false 0 ((after (.stateWordWriteDone 0 true) blockedAtHalt).walker .normal).work := by
  refine ⟨by decide +kernel, by decide +kernel, by decide +kernel, ⟨fetched.retire (haltedResults .aborted 0), ?_⟩,
    ⟨fetched.retire (haltedResults .jobFailed 0), ?_⟩⟩ <;> decide +kernel

theorem test_PartsJudgedAndFailuresRecorded_premises :
    let j := jobOf .running (stepOf .show 0 0) [parted (.failing .tileFault)]
    (withJob j).job 0 = some j ∧ j.phase = .running ∧ j.step? = some (stepOf .show 0 0) ∧
    lowestFailing j.parts = some (0, .tileFault) ∧ (stepOf .show 0 0).tolerant = false ∧
    ({ stepOf .show 0 0 with tolerant := true } : Step).tolerant = true := by decide +kernel

/-- Operands at the ends of their ranges on a tile of 8 by 8 pixels, and one past them. -/
theorem test_OperandsFit_bounds :
    entryCheck (tileIn .absent) (stepOf .wake 0 0) = some .noTile ∧
    entryCheck (tileIn .lost) (stepOf .wake 0 0) = some .tileLost ∧
    entryCheck (tileIn .faulted) (stepOf .wake 0 0) = some .tileFault ∧
    entryCheck (tileIn .faulted) (stepOf .sleep 0 0) = none ∧
    entryCheck (tileIn .awake) (stepOf .window 0x00070007 0x00070007) = none ∧
    entryCheck (tileIn .awake) (stepOf .window 0x00080007 0x00070007) = some .badOperand ∧
    entryCheck (tileIn .awake) (stepOf .band 1 0x00070000) = none ∧
    entryCheck (tileIn .awake) (stepOf .band 1 0x00080000) = some .badOperand ∧
    entryCheck (tileIn .awake) (stepOf .rollArea 7 1) = none ∧
    entryCheck (tileIn .awake) (stepOf .rollArea 8 1) = some .badOperand ∧
    entryCheck { tileIn .awake with roll := some ⟨2, 4, 2⟩ } (stepOf .rollTo 5 0) = none ∧
    entryCheck { tileIn .awake with roll := some ⟨2, 4, 2⟩ } (stepOf .rollTo 6 0) = some .badOperand := by decide +kernel

/-- A WAKE held behind a SLEEP in flight, and one that nothing holds. -/
theorem test_judge_premises :
    let s := inFlightTo (entryOf .sleep .awaiting) (tileIn .awake)
    entryCheck (s.tile 0) (stepOf .wake 0 0) = none ∧ entryOf .sleep .awaiting ∈ (s.port (portOf 0)).inFlight ∧
    s.judge (stepOf .wake 0 0) 0 = .waits ∧
    (onPort (portIn .up) (tileIn .awake)).judge (stepOf .wake 0 0) 0 = .completes := by decide +kernel

/-- A state between two events, with a command in front, and the step it takes. -/
theorem test_StepsGoOnAtTheirEvent_premises :
    let s : State := { run with pending := [.timebaseTick] }
    s.readySlots = [] ∧ Quiet s ∧ s.HasSteps ∧ ∃ t, step s = .next t :=
  ⟨by decide +kernel, by unfold Quiet; decide +kernel, ⟨by decide +kernel, fun c => by cases c <;> trivial⟩, _, rfl⟩

theorem test_JobsDrain_premises :
    let j := jobOf .draining (stepOf .show 0 0) []
    (withJob j).job 0 = some j ∧ j.outstanding = 0 ∧ (withJob j).fatal = false ∧
    ({ withJob j with engine := .stopping, fault := .statusWriteError } : State).fatal = true ∧
    ({ j with firstFailure := some ⟨.aborted, 0, none⟩ } : Job).firstFailure = some ⟨.aborted, 0, none⟩ := by decide +kernel

theorem test_JobsAdmitted_premises :
    let j := jobOf .queued (stepOf .show 0 0) []
    let s := (withJob j).setSlot 1 (.job { j with order := 2 })
    s.engine = .running ∧ s.job 0 = some j ∧
    (∀ k m, s.job k = some m → m.chain = j.chain → m.order < j.order → m.phase.isRetiring = false →
      m.tiles &&& j.tiles = 0) ∧
    ∃ k m, s.job k = some m ∧ m.chain = .normal ∧ m.order < 2 ∧ m.phase.isRetiring = false ∧ m.tiles &&& j.tiles ≠ 0 :=
  ⟨by decide +kernel, by decide +kernel, fun k m h _ hlt => by
    have := show ∀ k : SlotNum, ∀ m ∈ (((withJob (jobOf .queued (stepOf .show 0 0) [])).setSlot 1
      (.job { jobOf .queued (stepOf .show 0 0) [] with order := 2 })).job k), ¬ m.order < 1 by decide +kernel
    exact absurd hlt (this k m h), 0, _, rfl, by decide +kernel⟩

/-- Port A UP with tile 0 AWAKE, and a QUEUED job in slot 0 at the step given. -/
def admitting (st : Step) : State := (onPort (portIn .up) (tileIn .awake)).setSlot 0 (.job (jobOf .queued st []))

/-- The state between two events that every case of step 0 starts from: which parts it has, and which fail. -/
theorem test_JobsAdmitted_steps :
    let s := admitting (stepOf .show 0 0)
    let two := { stepOf .show 0 0 with tiles := 3 }
    let gone := { stepOf .show 0 0 with tiles := 2 }
    Quiet s ∧ s.job 0 = some queuedShow ∧ (∀ x, s.hasInFlight 0 x = false) ∧ queuedShow.step? = some (stepOf .show 0 0) ∧
    (s.failuresAtEntry (stepOf .show 0 0) = [] ∧ s.partsAtEntry (stepOf .show 0 0) ≠ []) ∧
    s.failuresAtEntry two = [(1, .noTile)] ∧ s.partsAtEntry two ≠ [] ∧
    s.failuresAtEntry gone = [(1, .noTile)] ∧ s.partsAtEntry gone = [] ∧
    ((after (.jobAdmission 0) (admitting two)).job 0).map (fun j => j.parts) = some [parted .withdrawn] ∧
    (s.failuresAtEntry (stepOf .wake 0 0) = [] ∧ s.partsAtEntry (stepOf .wake 0 0) = []) ∧
    (EventSource.ofCode (stepOf .wait 0x33 1).x.toNat = some (.mark 3)) ∧ (stepOf .mark 3 0).x.toNat = (3 : Fin 4).val := by
  unfold Quiet
  decide +kernel

/-- A job at WAIT MARK 1, WAIT MARK 2 in slot 0, and in slot 1 a QUEUED job of MARK 1, MARK 2. -/
def marking : State :=
  let waits := [{ stepOf .wait 0x31 9 with tiles := 0 }, { stepOf .wait 0x32 9 with tiles := 0 }]
  let marks := [{ stepOf .mark 1 0 with tiles := 0 }, { stepOf .mark 2 0 with tiles := 0 }]
  { twoJobs { waitJob false with steps := waits, tiles := 0 } { queuedShow with steps := marks } with
    waitList := [⟨0, .mark 1, 9⟩] }

/-- The second MARK finds the second WAIT listening: both jobs end. -/
theorem test_marks_reach_waits :
    Quiet marking ∧ (∃ w ∈ marking.waitList, w.source = .mark 1 ∧ ∃ k ∈ marking.job w.slot, k.phase = .running) ∧
    ((after (.jobAdmission 1) marking).job 0).map (fun j => (j.stepsDone, j.phase.isRetiring)) = some (2, true) ∧
    ((after (.jobAdmission 1) marking).job 1).map (fun j => (j.stepsDone, j.phase.isRetiring)) = some (2, true) := by
  unfold Quiet
  decide +kernel

theorem test_ResultsWritten_premises :
    let j := showJob (.retiring (failedAt .results))
    (withJob j).job 0 = some j ∧ j.phase = .retiring (failedAt .results) ∧ (failedAt .stateWord).stage = .stateWord ∧
    (failedAt .stateWord).terminal = .failed ∧ j.haltOnFail = true ∧ ((withJob j).walker j.chain).state ≠ .halted ∧
    ({ withJob j with engine := .stopping, fault := .statusWriteError } : State).fault ≠ .none ∧
    ({ withJob j with engine := .stopping } : State).fault = .none ∧
    ({ withJob j with walkerN := { Walker.reset with state := .blocked, work := .held fetched [] } } : State).walkerN.work =
      .held fetched [] ∧
    (({ withJob j with walkerN := { Walker.reset with state := .blocked, work := .held fetched [] } } : State).setSlot 0
      .free).mayUse .normal = true := by decide +kernel

theorem test_RecordsRewritten_premises :
    ({ run with settings := open1 } : State).marksRewrites = true ∧ State.reset.marksRewrites = false ∧
    (({ run with settings := open1 } : State).setRecord 23 ⟨true, false, none⟩).marksRewrites = true ∧
    ((rewriting .countOdd .running).record 23).rewrite.isSome = true ∧ (rewriting .countOdd .running).fatal = false ∧
    (rewriting (.fields []) .stopping).fault = .none ∧
    ({ rewriting .countEven .stopping with fault := .statusWriteError } : State).fatal = true ∧
    (rewriting .countEven (.starting .statusRecords)).engine = .starting .statusRecords ∧
    ((rewriting .countEven (.starting .statusRecords)).record 23).markStart = false ∧
    (∀ y, y ≠ 23 → ((rewriting .countEven (.starting .statusRecords)).record y).markStart = false ∧
      ((rewriting .countEven (.starting .statusRecords)).record y).rewrite = none) := by decide +kernel

/-- The record of tile 23, AWAKE and armed, byte by byte, and where its writes go. -/
theorem test_record_writes :
    let e : TileEntry := { tileIn .awake with
      shown := some true, inverted := some true, armed := true, lastError := some .badIdentity, lastFault := 3,
      identity := some ⟨0x0102, 0x0304, 0x0506⟩, band := some ⟨true, some (1, 2)⟩, window := some ⟨3, 4, 5, 6⟩,
      roll := some ⟨7, 8, 9⟩, changedAt := 0x0A0B0C0D, changeCount := 0x0201 }
    let s := fun st => (rewriting st .running).setTile 23 e
    e.view.bytes 23 = [3, 0xF, 18, 3, 1, 11, 2, 1, 4, 3, 6, 5, 5, 0, 8, 0, 8, 0, 3, 0, 4, 0, 5, 0, 6, 0, 1, 0, 2, 0, 7, 0, 8, 0,
      9, 0, 0, 0, 0xD, 0xC, 0xB, 0xA] ++ List.replicate 20 0 ∧
    ((s .countOdd).record 23).rewrite.map (fun w => w.area) = some 0x2000 ∧
    ⟨.record 23, .write 0x25C0 [1, 2]⟩ ∈ (s .countOdd).accesses ∧
    ⟨.record 23, .write 0x25C0 [1, 2]⟩ ∈ (s .countEven).accesses ∧
    ⟨.record 23, .write 0x25C2 [7]⟩ ∈ (s (.fields [7])).accesses := by decide +kernel

/-- An expiry that changes a record-visible field, with rewrites made and without. -/
theorem test_record_changes :
    let s := onPort (portIn .up) { tileIn .waking with settleDue := some 0 }
    (∃ t, exec (.settleTimerExpiry 0) { s with settings := open1 } = .next t ∧ t.marksRewrites = true ∧
      (s.tile 0).view ≠ (t.tile 0).view) ∧
    (∃ t, exec (.settleTimerExpiry 0) s = .next t ∧ t.marksRewrites = false ∧ (s.tile 0).view ≠ (t.tile 0).view) :=
  ⟨⟨_, rfl, by decide +kernel⟩, ⟨_, rfl, by decide +kernel⟩⟩

theorem test_stopped_rewrite :
    let s := { run with engine := .halted }.setRecord 0 ⟨false, false, some ⟨0x2000, .countEven, true, true, true⟩⟩
    ∃ w, (s.record 0).rewrite = some w ∧ w.stopped = true ∧ w.joins = true := ⟨_, rfl, by decide +kernel⟩

/-- An armed auto-sleep on port A, and a job's packet of each shape the arbiter judges. -/
def armedA : State := onPort (portIn .up) { tileIn .awake with armed := true }

def offering (k : StepKind) (e : TileEntry) (g : Staging) : State :=
  ({ onPort (portIn .up) e with wakePresented := some 0 }).setSlot 0
    (.job (jobOf .running (stepOf k 0x1000 1) [⟨0, .candidate, g⟩]))

theorem test_OnlyIssuableEntriesGo_premises :
    armedA.arbiterPick .A = some ⟨none, 0, .sleep, 1, 0⟩ ∧
    (offering .wake (tileIn .asleep) .empty).arbiterPick .A = some ⟨some 0, 0, .wake, 2, 1⟩ ∧
    (offering .band (tileIn .awake) .empty).arbiterPick .A = some ⟨some 0, 0, .band, 2, 1⟩ ∧
    (offering .put (tileIn .awake) (.staged [0])).arbiterPick .A = some ⟨some 0, 0, .put, 2, 1⟩ := by decide +kernel

theorem allOfNone (p : Word → Prop) : ∀ m ∈ (none : Option Word), p m := nofun

/-- The packet the arbiter picks may issue: a job's SHOW, and an armed auto-sleep's SLEEP. -/
theorem test_MayIssue_met :
    (offering .show (tileIn .awake) .empty).MayIssue ⟨some 0, 0, .show, 2, 1⟩ ∧ armedA.MayIssue ⟨none, 0, .sleep, 1, 0⟩ := by
  constructor
  · refine ⟨by unfold State.OtherwiseIssuable; decide +kernel, by decide +kernel, nofun, fun i h => ?_⟩
    cases h
    exact ⟨nofun, nofun, (by rintro (k | k | k) <;> cases k), nofun, nofun⟩
  · refine ⟨by unfold State.OtherwiseIssuable; decide +kernel, by decide +kernel, fun _ => ?_, nofun⟩
    exact ⟨⟨by decide +kernel, fun _ => allOfNone _, allOfNone _⟩, by decide +kernel⟩

/-- With no tag free the candidate is still there and nothing is picked. -/
theorem test_nothing_picked :
    let s := offering .show (tileIn .awake) .empty
    ({ s with portA := { s.portA with quarantined := 0xFFFF } } : State).arbiterPick .A = none ∧
    ({ s with portA := { s.portA with quarantined := 0xFFFF } } : State).candidates .A = [⟨some 0, 0, .show, 2, 1⟩] := by
  decide +kernel

theorem test_stream_packets :
    let o := fun b => offering .put { tileIn .awake with stream := some ⟨0, .put, 1, 1, b, false⟩ } (.staged [0])
    (o false).arbiterPick .A = some ⟨some 0, 0, .put, 2, 1⟩ ∧ ((o false).ownStream 0 0).isSome = true ∧
    (o true).arbiterPick .A = some ⟨some 0, 0, .put, 2, 1⟩ ∧ ((o true).ownStream 0 0).map (fun r => r.broken) = some true ∧
    (offering .put (tileIn .awake) (.staged [0])).ownStream 0 0 = none := by decide +kernel

theorem test_PacketsIssue_premises :
    armedA.portA.transmitting = none ∧ armedA.portA.freeTag = some 0 ∧
    ({ Port.reset with quarantined := 0x7FFF } : Port).freeTag = some 15 ∧
    (offering .get { tileIn .awake with readyDue := some 0 } .empty).arbiterPick .A = some ⟨some 0, 0, .get, 2, 1⟩ ∧
    (offering .show (tileIn .awake) .empty).arbiterPick .A = some ⟨some 0, 0, .show, 2, 1⟩ ∧
    ((offering .show (tileIn .awake) .empty).job 0).bind Job.step? = some (stepOf .show 0x1000 1) := by decide +kernel

/-- A SHOW of slot 0 goes to a tile on which another job has a stream open: a PUT stream breaks, a GET stream stays. -/
theorem test_streams_broken :
    let o := fun k => offering .show { tileIn .awake with stream := some ⟨1, k, 1, 1, false, false⟩ } .empty
    (∀ k : StreamKind, k = .put ∨ k = .get → (o k).arbiterPick .A = some ⟨some 0, 0, .show, 2, 1⟩) ∧
    (((after (.packetIssue .A) (o .put)).tile 0).stream.map (fun r => r.broken)) = some true ∧
    (((after (.packetIssue .A) (o .get)).tile 0).stream.map (fun r => r.broken)) = some false := by
  refine ⟨fun k _ => ?_, ?_⟩
  · cases k <;> decide +kernel
  · decide +kernel

/-- Two jobs want to wake tile 0: the WAKE of one is granted, and the other's part waits behind it (R90). -/
theorem test_riders :
    let s := (offering .wake (tileIn .asleep) .empty).setSlot 1
      (.job { jobOf .running (stepOf .wake 0 0) [parted .candidate] with order := 2 })
    s.arbiterPick .A = some ⟨some 0, 0, .wake, 2, 1⟩ ∧
    (((after (.packetIssue .A) s).job 1).map (fun j => j.parts)) = some [parted .waiting] := by decide +kernel

/-- A display packet without ON_FRAME goes behind a SLEEP in flight; one with ON_FRAME is issuable too (R71's table), and held as
the free value has it (R128, log 37). -/
theorem test_display_behind_sleep :
    let s := fun b => (offering .show (tileIn .awake) .empty).setPort .A
      { portIn .up with inFlight := [{ entryOf .sleep .awaiting with owner := .job 7 0 }] } |>.setSlot 0
        (.job (jobOf .running { stepOf .show 0 0 with onFrame := b } [parted .candidate]))
    ((s false).arbiterPick .A).isSome = true ∧
    (s true).issuable ⟨some 0, 0, .show, 2, 1⟩ = true ∧
    ((s true).heldBehindSleep ⟨some 0, 0, .show, 2, 1⟩ = true ↔ Config.onFrameWaitsForSleep = true) := by
  refine ⟨by decide +kernel, by decide +kernel, ?_⟩
  rw [State.heldBehindSleep_iff rfl]
  exact ⟨fun h => h.2.2, fun h => ⟨by decide +kernel, by decide +kernel, h⟩⟩

/-- What the owner's part becomes at the issue: issued with a SHOW and with a stream's last segment, a candidate that stages
the next segment before (R81, R109). -/
theorem test_parts_at_issue :
    let put := fun n => (offering .put (tileIn .awake) (.staged [0])).setSlot 0
      (.job (jobOf .running (stepOf .put 0x1000 n) [⟨0, .candidate, .staged [0]⟩]))
    let parts := fun (s : State) => ((after (.packetIssue .A) s).job 0).map (fun j => (j.parts, j.outstanding))
    parts (offering .show (tileIn .awake) .empty) = some ([parted .issued], 1) ∧
    parts (put 256) = some ([parted .issued], 1) ∧ parts (put 257) = some ([⟨0, .candidate, .reading⟩], 1) := by
  decide +kernel

theorem test_TransmissionsAndStagingReadsEnd_premises :
    let j := runningPut .reading
    let s := (onPort (portIn .up) (tileIn .awake)).setSlot 0 (.job j)
    let u := { s with stoppedReads := [⟨0, 0, 0x1000, 4⟩] }
    Quiet s ∧ ({ Port.reset with transmitting := some ⟨.show, 0, 0, false, []⟩ } : Port).transmitting ≠ none ∧
    s.job 0 = some j ∧ j.step? = some (stepOf .put 0x1000 1) ∧ j.part? 0 = some ⟨0, .candidate, .reading⟩ ∧
    PartCond.candidate.hasFailed = false ∧ s.stoppedReads = [] ∧ (∃ v ∈ u.stoppedReads, v.slot = 0 ∧ v.tile = 0) ∧
    s.Undisturbed 0 (some 0) :=
  ⟨by unfold Quiet; decide +kernel, by unfold State.Undisturbed; decide +kernel⟩

theorem test_GatesOpen_premises :
    let s := run.setTile 0 { tileIn .awake with wakeAck := some 0, readyDue := some 0, minAwakeOpen := true,
                                                holdOpen := true, readyOpen := true }
    s.minAwakePassed 0 = true ∧ reached s.now 0 = true ∧ (s.tile 0).readyDue = some 0 ∧
    (run.setTile 0 { tileIn .awake with lastPixelAck := some 0 }).holdPassed 0 = true := by decide +kernel

theorem test_TicksAdvance_premises :
    (offering .wake (tileIn .asleep) .empty).examination = some 0 ∧
    (let s : State := { run with wakeHistory := [0], now := 1000 }
     s.historyWindowMs ≤ (s.now - 0).toNat ∧ ((999 : Word) - 0).toNat < s.historyWindowMs) := by decide +kernel

/-- A WAKE on the list whose port can send it, with the budget open. -/
theorem test_Examined_premises :
    let s := offering .wake (tileIn .asleep) .empty
    s.WantsWake 0 0 ∧ s.OtherwiseIssuable 0 ∧ s.BudgetOpen ∧ s.portA.transmitting = none :=
  ⟨⟨_, _, _, rfl, rfl, rfl, rfl, rfl, rfl⟩, by unfold State.OtherwiseIssuable; decide +kernel,
    ⟨by decide +kernel, allOfNone _⟩, by decide +kernel⟩

theorem test_PowerTimersExpire_premises :
    let s := onPort (portIn .up) { tileIn .waking with settleDue := some 0 }
    let d := { onPort (portIn .up) { tileIn .dozing with restDue := some 1 } with now := 1 }
    (s.port (portOf 0)).state ≠ .enumerating ∧ reached s.now 0 = true ∧ (s.tile 0).settleDue = some 0 ∧
    reached d.now 1 = true ∧ (d.tile 0).restDue = some 1 ∧ d.now ≠ (d.tile 0).changedAt ∧
    ((probingAt 0).port (portOf 0)).state = .enumerating ∧
    ((probingAt 0).port (portOf 0)).answered (positionOf 0) = false := by decide +kernel

/-- A job in slot 0 with tile 0 among its tile parts, and tile 0 WAKING to its end. -/
def settling (k : StepKind) (c : PartCond) : State :=
  (onPort (portIn .up) { tileIn .waking with settleDue := some 0 }).setSlot 0
    (.job (jobOf .running (stepOf k 0x1000 1) [parted c]))

/-- At AWAKE a joined WAKE part completes, and a waiting PUT part becomes a candidate that stages. -/
theorem test_parts_at_awake :
    Quiet (settling .wake .joined) ∧ (settling .wake .joined).powerInFlight 0 = false ∧ Quiet (settling .put .waiting) ∧
    (((after (.settleTimerExpiry 0) (settling .wake .joined)).job 0).map (fun j => j.stepsDone)) = some 1 ∧
    (((after (.settleTimerExpiry 0) (settling .put .waiting)).job 0).map (fun j => j.parts)) =
      some [⟨0, .candidate, .reading⟩] :=
  ⟨by unfold Quiet; decide +kernel, by decide +kernel, by unfold Quiet; decide +kernel, by decide +kernel⟩

/-- At ASLEEP a WAKE part that waited becomes a candidate. -/
theorem test_parts_at_asleep :
    let s := { (onPort (portIn .up) { tileIn .dozing with restDue := some 1 }).setSlot 0
      (.job (jobOf .running (stepOf .wake 0 0) [parted .waiting])) with now := 1 }
    Quiet s ∧ s.powerInFlight 0 = false ∧ StepKind.isStream .wake = false ∧
    (((after (.restTimerExpiry 0) s).job 0).map (fun j => j.parts)) = some [parted .candidate] ∧
    (after (.restTimerExpiry 0) s).wakeCandidate 0 0 = true :=
  ⟨by unfold Quiet; decide +kernel, by decide +kernel⟩

theorem test_OccurrencesDelivered_premises :
    (onPort (portIn .up) (tileIn .awake)).portA.state = .up ∧
    ((onPort (portIn .up) (tileIn .awake)).tile (tileOf .A 0)).state.present = true ∧ run.portA.state ≠ .up ∧
    (run.tile (tileOf .B 11)).state.present = false ∧
    (withJob (jobOf .running (stepOf .wait 0x20 1) [])).job 0 ≠ none := by decide +kernel

/-- A state between two events with a WAIT in the list for an occurrence, and its job at the WAIT; sync 0 selects it. -/
theorem test_Delivered_premises :
    let s := { waiting false (.frame 0) with portA := portIn .up }.setTile 0 (tileIn .awake)
    let u : State := { s with settings := { s.settings with sync0 := some (.frame 0) } }
    Quiet s ∧ (⟨0, .frame 0, 0⟩ : WaitEntry) ∈ s.waitList ∧ s.job 0 = some (waitJob false) ∧
    (waitJob false).phase = .running ∧ s.portA.state = .up ∧ (s.tile (tileOf .A 0)).state.present = true ∧
    u.settings.sync0 = some (.frame 0) ∧ (∀ w ∈ s.waitList, w.slot ≠ 7) := by unfold Quiet; decide +kernel

theorem test_PinsFollowed_premises :
    (run.trig .zero).pin ≠ true ∧ (run.trig .one).running = true ∧
    (({ run with trig0 := ⟨true, some false, true⟩ } : State).trig .zero).level = some false ∧
    (({ run with trig0 := ⟨true, none, true⟩ } : State).trig .zero).level ≠ some false := by decide +kernel

theorem test_PinsFollowed_waits :
    let s := { waiting false (.trig .zero) with trig0 := ⟨true, some false, true⟩ }
    Quiet s ∧ (⟨0, .trig .zero, 0⟩ : WaitEntry) ∈ s.waitList ∧ (s.trig .zero).running = true ∧ (s.trig .zero).pin = true := by
  unfold Quiet
  decide +kernel

theorem test_WaitsAndPausesEnd_premises (p : Bool) :
    let s := waiting p (.trig .zero)
    Quiet s ∧ Quiet (withJob pauseJob) ∧ s.job 0 = some (waitJob p) ∧ (⟨0, .trig .zero, 0⟩ : WaitEntry) ∈ s.waitList ∧
    reached s.now 0 = true ∧ ((waitJob p).step?.map (fun st => st.pass)) = some p ∧
    (withJob pauseJob).job 0 = some pauseJob ∧ pauseJob.pauseDue = some 0 := by
  cases p <;> exact ⟨by unfold Quiet; decide +kernel, by unfold Quiet; decide +kernel, by decide +kernel⟩

theorem test_EnumerateTaken_premises :
    State.reset.engine.isOffOrHalted = true ∧ State.reset.portA.state = .down ∧
    (inFlightTo (entryOf .show .awaiting) (tileIn .awake)).portA.state = .up ∧
    entryOf .show .awaiting ∈ (inFlightTo (entryOf .show .awaiting) (tileIn .awake)).portA.inFlight ∧
    (probingAt 0).portA.state = .enumerating := by decide +kernel

/-- ENUMERATE in HALTED ends an auto-sleep's entry on an UP port: its tile takes LINK_LOST (R101, R135). -/
theorem test_enumerate_ends_auto_sleep :
    let s := { inFlightTo (entryOf .sleep .awaiting) (tileIn .awake) with engine := .halted }
    Quiet s ∧ s.engine.isOffOrHalted = true ∧ (entryOf .sleep .awaiting).owner = .autoSleep ∧
    ((after .enumerate s).tile 0).lastError = some .linkLost := by unfold Quiet; decide +kernel

def trainingPort (n : Nat) : Port := { portIn .training with attempt := n, attemptDue := some 0, rxLock := true }

theorem test_LocksGained_premises :
    (onPort (trainingPort 1) (tileIn .absent)).portA.state = .training ∧ (trainingPort 1).tileLock = false ∧
    (trainingPort 1).rxLock = true ∧ (portIn .training).rxLock = false ∧
    ({ portIn .training with tileLock := true } : Port).tileLock = true ∧ run.portB.state = .down := by decide +kernel

theorem test_AttemptsFail_premises :
    (onPort (trainingPort 2) (tileIn .absent)).portA.state = .training ∧ (trainingPort 2).attemptDue = some 0 ∧
    reached run.now 0 = true ∧ (trainingPort 2).attempt < 3 ∧ 3 ≤ (trainingPort 3).attempt ∧
    (trainingPort 3).rxLock = true := by decide +kernel

theorem test_HardErrorCutsThePort_premises :
    let s := inFlightTo (entryOf .show .awaiting) (tileIn .awake)
    s.portA.state = .up ∧ entryOf .show .awaiting ∈ s.portA.inFlight ∧
    (s.tile (tileOf .A 0)).state.present = true ∧ (s.tile (tileOf .A 11)).state.present = false ∧
    (probingAt 0).portA.state = .enumerating ∧ (portIn .training).rxLock = false := by decide +kernel

/-- What the clauses on last errors and on destination writes ask for: a state between two events, and a job's packet in
flight that nothing else can disturb. -/
theorem test_last_error_premises :
    let s := inFlightOf .show .show .awaiting (tileIn .awake)
    let e := { entryOf .show .awaiting with owner := .job 0 0 }
    Quiet s ∧ s.Undisturbed 0 (some 0) ∧ s.OwnPartSound e ∧ e ∈ s.portA.inFlight ∧ portOf e.tile = .A ∧
    (∃ j ∈ s.job 0, ∃ q ∈ j.part? e.tile, q.cond.hasFailed = false) ∧
    s.portA.matching 0 (tileOf .A 0) = some e ∧ s.portA.receives = true ∧ (s.portA.inFlight.map (fun e => e.tag)).Nodup ∧
    s.portA.inFlight.find? (fun e => decide (e.tag = 0) && e.isWaiting && decide (e.kind ≠ .probe) &&
      reachedOpt s.now e.deadline) = some e :=
  ⟨by unfold Quiet; decide +kernel, by unfold State.Undisturbed; decide +kernel,
    by unfold State.OwnPartSound; decide +kernel, by decide +kernel⟩

/-- The job of slot 0 after the command: its phase is DRAINING, with the first failure given. -/
def drainsWith (c : ErrorCode) (t : State) : Bool :=
  decide ((t.job 0).map (fun j => (j.phase, j.firstFailure)) = some (.draining, some ⟨c, 0, some 0⟩))

/-- How a packet's end reaches the tile part of its owner: success completes it, a REJECT, DATA of the wrong kind, a deadline
and a hard error fail it, and with it the job of a step that is not TOLERANT. -/
theorem test_owner_told :
    let s := inFlightOf .show .show .awaiting (tileIn .awake)
    (((after (.ackReceived .A 0 0 .ok) s).job 0).map (fun j => (j.stepsDone, j.outstanding, j.parts))) = some (1, 0, []) ∧
    drainsWith .tileReject (after (.ackReceived .A 0 0 .reject) s) = true ∧
    drainsWith .tileReject (after (.dataReceived .A 0 0 [0]) s) = true ∧
    drainsWith .timeout (after (.replyDeadlineExpiry .A 0) s) = true ∧
    drainsWith .linkLost (after (.hardError .A) s) = true ∧
    (((after (.hardError .A) s).job 0).map (fun j => j.outstanding)) = some 0 := by decide +kernel

/-- A WAKE acknowledged: its part is joined, and completes at AWAKE. A part that had failed leaves with its last transaction.
-/
theorem test_parts_joined_and_gone :
    let s := inFlightOf .wake .wake .awaiting (tileIn .asleep)
    let j := { jobOf .draining (stepOf .show 0 0) [parted .draining] with
      outstanding := 1, firstFailure := some ⟨.aborted, 0, none⟩ }
    let d := (inFlightOf .show .show .awaiting (tileIn .awake)).setSlot 0 (.job j)
    (((after (.ackReceived .A 0 0 .ok) s).job 0).map (fun j => (j.parts, j.outstanding))) = some ([parted .joined], 0) ∧
    Quiet d ∧ ¬ d.HasMore (owned .show .awaiting) 0 0 ∧
    (((after (.ackReceived .A 0 0 .ok) d).job 0).map (fun j => (j.parts, j.outstanding))) = some ([], 0) := by
  unfold Quiet State.HasMore
  decide +kernel

/-- A stream of slot 0 on tile 0, one of whose packets is in flight: the part stands as given, and the step has `n` pixels. -/
def streaming (k : PacketKind) (st : StepKind) (c : PartCond) (n : Word) (ph : EntryPhase) : State :=
  (inFlightTo (owned k ph)
    { tileIn .awake with stream := some ⟨0, if st = .put then .put else .get, 1, 0, false, false⟩ }).setSlot 0
    (.job { jobOf .running (stepOf st 0x1000 (0x01000000 + n)) [parted c] with outstanding := 1 })

/-- The last segment ends the part and closes the stream; a segment before it raises the pixels acknowledged. -/
theorem test_segments :
    let whole := streaming .pixStart .put .issued 1 .awaiting
    let half := streaming .pixStart .put .candidate 2 .awaiting
    let w : DestWrite := { addr := 0x1000, bytes := [], report := none }
    let got := streaming .pixRead .get .issued 1 (.writing w)
    Quiet whole ∧ (whole.portA.inFlight.map (fun e => e.tag)).Nodup ∧ (whole.tile 0).stream.map (fun r => r.owner) = some 0 ∧
    (((after (.ackReceived .A 0 0 .ok) whole).job 0).map (fun j => j.stepsDone)) = some 1 ∧
    ((after (.ackReceived .A 0 0 .ok) whole).tile 0).stream = none ∧
    ((after (.ackReceived .A 0 0 .ok) half).tile 0).stream.map (fun r => r.acked) = some 1 ∧
    (((after (.destinationWriteDone .A 0 true) got).job 0).map (fun j => j.stepsDone)) = some 1 ∧
    drainsWith .busError (after (.destinationWriteDone .A 0 false) got) = true := by
  unfold Quiet
  decide +kernel

theorem test_segments_sound :
    (streaming .pixStart .put .issued 1 .awaiting).OwnPartSound (owned .pixStart .awaiting) ∧
    (streaming .pixStart .put .candidate 2 .awaiting).OwnPartSound (owned .pixStart .awaiting) := by
  constructor <;> (unfold State.OwnPartSound; decide +kernel)

/-- A SLEEP_AFTER part that completes on an AWAKE tile arms it, unless another job has a part for the tile. -/
theorem test_arming :
    let j := { jobOf .running { stepOf .show 0 0 with sleepAfter := true } [parted .issued] with outstanding := 1 }
    let s := (inFlightTo (owned .show .awaiting) (tileIn .awake)).setSlot 0 (.job j)
    let u := s.setSlot 1 (.job { runningShow with order := 2 })
    Quiet s ∧ s.NoLaterStep 0 ∧ ((after (.ackReceived .A 0 0 .ok) s).tile 0).armed = true ∧ Quiet u ∧
    ((after (.ackReceived .A 0 0 .ok) u).tile 0).armed = false :=
  ⟨by unfold Quiet; decide +kernel, by unfold State.NoLaterStep; decide +kernel, by decide +kernel,
    by unfold Quiet; decide +kernel, by decide +kernel⟩

/-- A candidate with nothing in flight when its job is aborted stays pending, issues no more, and keeps another job's SLEEP_AFTER
part from arming their tile; a part that waits ends (R36, R39, R99, R112). -/
theorem test_withdrawn_parts :
    let j := { jobOf .running { stepOf .show 0 0 with sleepAfter := true } [parted .issued] with outstanding := 1 }
    let k := { runningShow with
      chain := .priority, order := 2, parts := [parted .candidate, ⟨1, .issued, .empty⟩, ⟨2, .waiting, .empty⟩] }
    let s := ((inFlightTo (owned .show .awaiting) (tileIn .awake)).setSlot 0 (.job j)).setSlot 1 (.job k)
    let u := after .abortP s
    (u.job 1).map (fun k => (k.phase, k.parts)) = some (.draining, [parted .withdrawn, ⟨1, .issued, .empty⟩]) ∧
    u.candidates .A = [] ∧ ((after (.ackReceived .A 0 0 .ok) u).tile 0).armed = false := by
  decide +kernel

/-- A WINDOW of slot 1 acknowledged while slot 0 streams to the tile. -/
theorem test_window_changed :
    let v := { portIn .up with inFlight := [{ entryOf .window .awaiting with owner := .job 1 0 }] }
    let s := ((streaming .pixStart .put .candidate 2 .awaiting).setPort .A v).setSlot 1
      (.job { jobOf .running (stepOf .window 0 0) [parted .issued] with order := 2, outstanding := 1 })
    Quiet s ∧ s.NoLaterStep 0 ∧ drainsWith .windowChanged (after (.ackReceived .A 0 0 .ok) s) = true ∧
    ((after (.ackReceived .A 0 0 .ok) s).tile 0).lastError = some .windowChanged ∧
    ((after (.ackReceived .A 0 0 .ok) s).tile 0).stream = none := by
  unfold Quiet State.NoLaterStep
  decide +kernel

/-- A FAULT notice fails an issued SHOW with TILE_FAULT, and leaves an issued READ ID as it is. -/
theorem test_faults_fail_parts :
    let s := inFlightOf .show .show .awaiting (tileIn .awake)
    let r := inFlightOf .readId .readId .awaiting (tileIn .awake)
    s.hasInFlight 0 0 = true ∧ drainsWith .tileFault (after (.faultNotice .A 0 3) s) = true ∧
    ((after (.faultNotice .A 0 3) s).tile 0).lastError = some .tileFault ∧ r.powerInFlight 0 = false ∧
    (after (.faultNotice .A 0 3) r).job 0 = r.job 0 := by decide +kernel

theorem test_power_last_errors :
    let s := inFlightOf .wake .wake .awaiting (tileIn .asleep)
    Quiet s ∧ s.Undisturbed 0 (some 0) ∧ s.OwnPartSound { entryOf .wake .awaiting with owner := .job 0 0 } ∧
    (s.tile 0).state = .asleep :=
  ⟨by unfold Quiet; decide +kernel, by unfold State.Undisturbed; decide +kernel,
    by unfold State.OwnPartSound; decide +kernel, by decide +kernel⟩

theorem test_writes_run_on :
    let w : DestWrite := { addr := 0x1000, bytes := [], report := none }
    let s := inFlightOf .readId .readId (.writing w) (tileIn .awake)
    Quiet s ∧ s.Undisturbed 0 (some 0) ∧ s.OwnPartSound { entryOf .readId (.writing w) with owner := .job 0 0 } ∧
    s.portA.writingEntry 0 = some ({ entryOf .readId (.writing w) with owner := .job 0 0 }, w) ∧ s.portA.cutWrites = [] ∧
    (s.portA.inFlight.map (fun e => e.tag)).Nodup ∧
    ({ Port.reset with cutWrites := [⟨0, w⟩] } : Port).cutWrites ≠ [] :=
  ⟨by unfold Quiet; decide +kernel, by unfold State.Undisturbed; decide +kernel,
    by unfold State.OwnPartSound; decide +kernel, by decide +kernel⟩

theorem test_ChainResetWaitEnds_premises :
    let s := onPort { portIn .enumerating with waitDue := some 0, quarantined := 1 } (tileIn .lost)
    s.portA.state = .enumerating ∧ reached s.now 0 = true ∧ (∀ e ∈ s.portA.inFlight, e.tag ≠ 0) ∧
    (∀ k < (0 : Tag), ∃ e ∈ s.portA.inFlight, e.tag = k) :=
  ⟨by decide +kernel, by decide +kernel, by decide +kernel, fun k h => absurd h (by simp)⟩

theorem test_quiet_ports :
    Quiet (onPort { portIn .enumerating with waitDue := some 0, quarantined := 1 } (tileIn .lost)) ∧ Quiet (probingAt 11) ∧
    (probingAt 11).Undisturbed (tileOf .A 11) none ∧ Quiet (onPort (portIn .up) (tileIn .awake)) ∧
    (portIn .up).answered 0 = true ∧ ((onPort (portIn .up) (tileIn .awake)).tile (tileOf .A 0)).state.present = true :=
  ⟨by unfold Quiet; decide +kernel, by unfold Quiet; decide +kernel, by unfold State.Undisturbed; decide +kernel,
    by unfold Quiet; decide +kernel, by decide +kernel⟩

theorem test_SilentPositions_premises :
    (probingAt 5).portA.state = .enumerating ∧ (probingAt 5).portA.probing = some 5 ∧
    ((probingAt 5).portA.inFlight.find? (fun e =>
      decide (e.owner = .enumeration) && reachedOpt (probingAt 5).now e.deadline)).isSome = true ∧
    ((probingAt 5).portA.matching 0 (tileOf .A 5)).isSome = true := by decide +kernel

/-- A probe answered by an ACK: the position is silent, and its tile's last error is TILE_REJECT (R150). -/
theorem test_probe_refused :
    let t := after (.ackReceived .A 5 0 .ok) (probingAt 5)
    (t.tile (tileOf .A 5)).lastError = some .tileReject ∧ t.portA.state = .up := by decide +kernel

theorem test_ProbesAnswered_premises :
    ((probingAt 10).portA.matching 0 (tileOf .A 10)).isSome = true ∧
    ((probingAt 11).portA.matching 0 (tileOf .A 11)).isSome = true ∧ (probingAt 10).portA.inFlight.length = 1 ∧
    (probingAt 10).portA.quarantined = 0 ∧ ([1, 1, 1, 5, 8, 1024] : List Word).length = 6 ∧
    (8 ≤ (lowHalf 8).toNat ∧ (lowHalf 1024).toNat ≤ 1024 ∧ 5 ≤ (lowHalf 5).toNat) ∧ ¬ 8 ≤ (lowHalf 7).toNat := by
  decide +kernel

theorem test_FaultyAndStrayPackets_premises :
    let s := onPort (portIn .up) (tileIn .awake)
    s.portA.receives = true ∧ run.portA.receives = false ∧ judgeUpstream [] = .framingError ∧
    judgeUpstream [0x03, 0x02, 0x10, 0x00, 0x00, 0x00] = .softError ∧ s.portA.matching 15 (tileOf .A 0) = none := by
  decide +kernel

theorem test_replies_premises :
    let s := inFlightTo (entryOf .wake .awaiting) (tileIn .asleep)
    s.portA.receives = true ∧ s.portA.matching 0 (tileOf .A 0) = some (entryOf .wake .awaiting) ∧
    PacketKind.wake ≠ .probe ∧ AckStatus.ok ≠ .reject := by decide +kernel

theorem test_AcksConfirmMirrors_premises :
    (inFlightTo { entryOf .rollTo .awaiting with x := 3 } { tileIn .awake with roll := some ⟨0, 8, 0⟩ }).portA.matching 0
      (tileOf .A 0) = some { entryOf .rollTo .awaiting with x := 3 } ∧
    (tileIn .awake).geometry = some ⟨8, 8, 5⟩ ∧ (8 : Half) ≠ 0 := by decide +kernel

theorem test_AcksMovePower_premises :
    ((inFlightTo (entryOf .sleep .awaiting) (tileIn .awake)).tile 0).state = .awake ∧
    ((inFlightTo (entryOf .sleep .awaiting) (tileIn .faulted)).tile 0).state = .faulted ∧
    Geometry.inRange ⟨8, 8, 5⟩ = true ∧ Geometry.inRange ⟨7, 8, 5⟩ = false := by decide +kernel

theorem test_DataTaken_premises :
    let s := inFlightTo (entryOf .readState .awaiting) (tileIn .awake)
    s.portA.matching 0 (tileOf .A 0) = some (entryOf .readState .awaiting) ∧ s.fatal = false ∧
    wordsOf .rgb24 (entryOf .pixRead .awaiting).pixels = 1 ∧
    (let q := withJob (jobOf .running (stepOf .get 0x1000 1) [parted .draining])
     q.partFailed { entryOf .pixRead .awaiting with owner := .job 0 0 } = true) ∧
    (let f : State := { s with engine := .stopping, fault := .statusWriteError }
     f.fatal = true ∧ f.portA.receives = true) := by decide +kernel

/-- A READ STATE reply after a fatal fault: nothing is written, and the report is judged (R152, R153). -/
theorem test_discarded_report :
    let s := { inFlightTo (entryOf .readState .awaiting) (tileIn .awake) with engine := .stopping, fault := .statusWriteError }
    let t := after (.dataReceived .A 0 0 [0]) s
    Quiet s ∧ s.ReportDisagrees 0 0 ∧ t.accesses = [] ∧ (t.tile 0).state = .faulted ∧
    (t.tile 0).lastError = some .mirrorMismatch := by
  unfold Quiet State.ReportDisagrees
  decide +kernel

/-- A further reply to a READ STATE in WRITING matches it (R149): an ACK ends the transaction with TILE_REJECT (R150), DATA
begins a write of its own, and the older write runs on both times. -/
theorem test_further_replies :
    let w : DestWrite := { addr := 0x1000, bytes := [], report := none }
    let s := inFlightOf .readState .readState (.writing w) (tileIn .awake)
    let d := after (.dataReceived .A 0 0 [1]) s
    (s.portA.matching 0 (tileOf .A 0)).map Entry.writeUnderWay = some [⟨0, w⟩] ∧ Quiet s ∧ s.fatal = false ∧
    drainsWith .tileReject (after (.ackReceived .A 0 0 .ok) s) = true ∧
    (after (.ackReceived .A 0 0 .ok) s).portA.cutWrites = [⟨0, w⟩] ∧
    d.portA.cutWrites = [⟨0, w⟩] ∧ (d.portA.writingEntry 0).map (fun v => v.2.report) = some (some 1) := by
  unfold Quiet
  decide +kernel

theorem test_DestinationWritesEnd_premises :
    let w : DestWrite := { addr := 0x1000, bytes := [], report := some 1 }
    (inFlightTo (entryOf .readState (.writing w)) (tileIn .asleep)).portA.writingEntry 0 =
      some (entryOf .readState (.writing w), w) ∧
    (1 : Word).getLsbD 0 = true ∧ (0 : Word).getLsbD 0 = false ∧ (4 : Word).getLsbD 2 = true ∧
    ({ tileIn .asleep with band := some ⟨true, none⟩ } : TileEntry).band = some ⟨true, none⟩ ∧
    (inFlightTo (entryOf .readState (.writing w)) (tileIn .asleep)).portA.cutWrites = [] := by decide +kernel

theorem test_DeadlinesExpire_premises :
    let s := inFlightTo (entryOf .show .awaiting) (tileIn .awake)
    s.portA.inFlight.find? (fun e => decide (e.tag = 0) && e.isWaiting && decide (e.kind ≠ .probe) &&
      reachedOpt s.now e.deadline) = some (entryOf .show .awaiting) := by decide +kernel

theorem test_FaultNotices_premises :
    ((onPort (portIn .up) (tileIn .faulted)).tile (tileOf .A 0)).state.present = true ∧
    (portIn .up).answered 11 = true ∧ (probingAt 5).portA.answered 5 = false ∧
    (run.tile 23).state.present = false := by decide +kernel

/-- A tile of 8 by 8 pixels, awake. -/
def panel : TileDev :=
  { identity := ⟨1, 1, 1⟩, geometry := ⟨8, 8, 5⟩, locked := true, trainsDown := false, awake := true,
    inFault := false, faultCode := 0,
    shown := true, bandMode := true, bandStart := 1, bandEnd := 2, inverted := true, window := ⟨1, 2, 1, 2⟩,
    roll := ⟨2, 4, 5⟩, pointer := 3, writeOpen := true, held := [], frameCounter := 7, toBoundary := 1,
    frame := List.replicate 64 ⟨.rgb24, 0⟩ }

/-- A BLANK for the tile itself, one for the third tile from it, and one whose CRC fails: obeyed, sent on, neither. -/
theorem test_tile_bytes :
    let own := (⟨.blank, 0, 5, false, []⟩ : Packet).bytes
    let far := (⟨.blank, 3, 5, false, []⟩ : Packet).bytes
    (panel.receiveBytes own).2.1 = [⟨0, .ack 5 .ok⟩] ∧ (panel.receiveBytes own).1.shown = false ∧
    panel.receiveBytes far = (panel, [], some (⟨.blank, 2, 5, false, []⟩ : Packet).bytes) ∧
    panel.receiveBytes (own.set 2 1) = (panel, [], none) ∧ judgeDownstream (own.dropLast) = none := by decide +kernel

theorem test_TileRollMapping_premises :
    1 ≤ panel.roll.height.toNat ∧ panel.roll.top.toNat + panel.roll.height.toNat ≤ panel.geometry.height.toNat ∧
    panel.roll.top.toNat ≤ panel.roll.start.toNat ∧
    panel.roll.start.toNat < panel.roll.top.toNat + panel.roll.height.toNat ∧
    (List.range 8).map (rowShown panel.roll) = [0, 1, 5, 2, 3, 4, 6, 7] ∧
    panel.valid ⟨.rollArea, 0, 0, false, [0, 8]⟩ = true ∧ panel.valid ⟨.rollTo, 0, 0, false, [2]⟩ = true ∧
    panel.valid ⟨.rollTo, 0, 0, false, [6]⟩ = false ∧
    (⟨.reset, 15, 0, false, []⟩ : Packet).kind = .reset := by decide +kernel

end Sys2Proof.Tests
end

section
/-! A RESET at a tile (R1, R5, R8): it is never held, is no SLEEP that lets held packets be obeyed first, and as a broadcast
it goes on to the next tile. -/

namespace Sys2Proof.Machine

/-- A RESET is obeyed by taking the defaults, without a reply (R8). -/
theorem TileDev.obey_of_reset (d : TileDev) (p : Packet) (hk : p.kind = .reset) : d.obey p = (d.chainReset, []) := by
  simp only [TileDev.obey, hk]

/-- A RESET is obeyed at once in every condition: it is neither held, with ON_FRAME too, nor does it apply the held queue as
a SLEEP does (R5). -/
theorem TileDev.take_of_reset (d : TileDev) (p : Packet) (hk : p.kind = .reset) : d.take p = (d.chainReset, []) := by
  have hheld : (p.onFrame && d.awake && !d.inFault && decide (p.kind ≠ .reset)) = false := by simp [hk]
  have hsleep : p.kind ≠ .sleep := by simp [hk]
  unfold TileDev.take
  rw [hheld, if_neg Bool.false_ne_true, if_neg hsleep]
  exact TileDev.obey_of_reset d p hk

/-- A broadcast is taken by the tile and passed on unchanged (R1). -/
theorem TileDev.receive_of_broadcast (d : TileDev) (p : Packet) (hh : p.hop = 15) :
    d.receive p = ((d.take p).1, (d.take p).2, some p) := by
  have hown : p.hop ≠ 0 := by rw [hh]; decide
  unfold TileDev.receive
  rw [if_neg hown, if_pos hh]

/-- Settles O59: the chain reset is a broadcast, so the tile takes it, and a RESET taken is the defaults of R8. -/
theorem tileChainReset : Obligations.TileChainReset := by
  unfold Obligations.TileChainReset
  intro d p hk hh
  rw [TileDev.receive_of_broadcast d p hh, TileDev.take_of_reset d p hk, TileDev.chainReset]

end Sys2Proof.Machine
end

section
/-! The control block's ranges (R47): a block parses into settings exactly when every setting lies in its range over the
bytes of 12.2. Each setting's own lemma comes first, then the settings of a whole block, then what the engine does. -/

namespace Sys2Proof.Machine

/-! ## Windows (R48, R49) -/

/-- The rights code of window `a`, as the block's bytes give it. -/
def windowRights (bs : List Byte) (a : Nat) : Nat := (byteAt bs (0x18 + 12 * a)).toNat

/-- Window `a` of the block is unused, or aligned, inside the address space and of a listed rights code (R48). -/
def WindowInRange (bs : List Byte) (a : Nat) : Prop :=
  (wordAt bs (0x14 + 12 * a)).toNat = 0 ∨
    ((wordAt bs (0x10 + 12 * a)).toNat % 16 = 0 ∧ (wordAt bs (0x14 + 12 * a)).toNat % 16 = 0 ∧
      (wordAt bs (0x10 + 12 * a)).toNat + (wordAt bs (0x14 + 12 * a)).toNat ≤ 2 ^ 32 ∧ windowRights bs a ≤ 3)

/-- Window `a` of the block is in use and contains the whole extent (R49). -/
def WindowContains (bs : List Byte) (a addr len : Nat) : Prop :=
  (wordAt bs (0x14 + 12 * a)).toNat ≠ 0 ∧ (wordAt bs (0x10 + 12 * a)).toNat ≤ addr ∧
    addr + len ≤ (wordAt bs (0x10 + 12 * a)).toNat + (wordAt bs (0x14 + 12 * a)).toNat

theorem parseRights_isSome_iff : ∀ n : Nat, (parseRights n).isSome = true ↔ n ≤ 3
  | 0 | 1 | 2 | 3 => by simp [parseRights]
  | n + 4 => by simp [parseRights]

theorem parseRights_canRead {n : Nat} {r : Rights} (h : parseRights n = some r) : r.canRead = true ↔ n = 1 ∨ n = 3 := by
  unfold parseRights at h
  split at h <;> cases h <;> simp [Rights.canRead]

theorem parseRights_canWrite {n : Nat} {r : Rights} (h : parseRights n = some r) : r.canWrite = true ↔ n = 2 ∨ n = 3 := by
  unfold parseRights at h
  split at h <;> cases h <;> simp [Rights.canWrite]

/-- A window that parses has its bytes' base and size, and in use also their rights. -/
theorem parseAperture_fields {bs : List Byte} {a : Nat} {w : Aperture} (h : parseAperture bs a = some w) :
    w.base = wordAt bs (0x10 + 12 * a) ∧ w.size = wordAt bs (0x14 + 12 * a) ∧
      (w.size ≠ 0 → parseRights (windowRights bs a) = some w.rights) := by
  unfold parseAperture at h
  dsimp only at h
  split at h
  · next r hr =>
    cases h
    exact ⟨rfl, rfl, fun _ => hr⟩
  · split at h
    · next hz =>
      cases h
      exact ⟨rfl, rfl, fun hn => absurd hz hn⟩
    · cases h

/-- Every window in range parses. -/
theorem exists_parseAperture {bs : List Byte} {a : Nat} (h : WindowInRange bs a) : ∃ w, parseAperture bs a = some w := by
  unfold parseAperture
  dsimp only
  split
  · exact ⟨_, rfl⟩
  · next hr =>
    have hz : wordAt bs (0x14 + 12 * a) = 0 := by
      rcases h with hz | ⟨-, -, -, hlisted⟩
      · exact BitVec.eq_of_toNat_eq hz
      · have := (parseRights_isSome_iff (windowRights bs a)).2 hlisted
        rw [windowRights, hr] at this
        cases this
    exact ⟨_, if_pos hz⟩

/-- A window that parses is valid exactly when its bytes are in range. -/
theorem valid_iff_windowInRange {bs : List Byte} {a : Nat} {w : Aperture} (h : parseAperture bs a = some w) :
    w.valid = true ↔ WindowInRange bs a := by
  obtain ⟨hbase, hsize, hrights⟩ := parseAperture_fields h
  by_cases hz : w.size = 0#32
  · have : (wordAt bs (0x14 + 12 * a)).toNat = 0 := by rw [← hsize, hz]; rfl
    simp [Aperture.valid, WindowInRange, hz, this]
  · have hlisted : windowRights bs a ≤ 3 := (parseRights_isSome_iff _).1 (by rw [hrights hz]; rfl)
    have hn : ¬ w.size.toNat = 0 := fun e => hz (BitVec.eq_of_toNat_eq e)
    simp [Aperture.valid, WindowInRange, ← hbase, ← hsize, hz, hn, hlisted, and_assoc]

/-- What a parsed window permits, over its bytes: `P` holds of the rights codes that permit the access. -/
theorem permits_iff_windowContains {bs : List Byte} {a addr len : Nat} {rd wr : Bool} {P : Nat → Prop} {w : Aperture}
    (h : parseAperture bs a = some w)
    (hP : ∀ r, parseRights (windowRights bs a) = some r →
      (((!rd || r.canRead) = true ∧ (!wr || r.canWrite) = true) ↔ P (windowRights bs a))) :
    w.permits addr len rd wr = true ↔ WindowContains bs a addr len ∧ P (windowRights bs a) := by
  obtain ⟨hbase, hsize, hrights⟩ := parseAperture_fields h
  unfold Aperture.permits WindowContains
  rw [← hbase, ← hsize]
  by_cases hz : w.size = 0#32
  · simp [hz]
  · have hn : ¬ w.size.toNat = 0 := fun e => hz (BitVec.eq_of_toNat_eq e)
    rw [← hP _ (hrights hz)]
    simp only [Bool.and_eq_true, bne_iff_ne, decide_eq_true_eq, ne_eq, BitVec.ofNat_eq_ofNat, hz, hn, not_false_eq_true,
      true_and, and_assoc]

theorem permits_read_iff {bs : List Byte} {a addr len : Nat} {w : Aperture} (h : parseAperture bs a = some w) :
    w.permits addr len true false = true ↔
      WindowContains bs a addr len ∧ (windowRights bs a = 1 ∨ windowRights bs a = 3) :=
  permits_iff_windowContains (P := fun n => n = 1 ∨ n = 3) h fun r hr => by simp [parseRights_canRead hr]

theorem permits_write_iff {bs : List Byte} {a addr len : Nat} {w : Aperture} (h : parseAperture bs a = some w) :
    w.permits addr len false true = true ↔
      WindowContains bs a addr len ∧ (windowRights bs a = 2 ∨ windowRights bs a = 3) :=
  permits_iff_windowContains (P := fun n => n = 2 ∨ n = 3) h fun r hr => by simp [parseRights_canWrite hr]

/-- The aperture test of R49, over the four windows. -/
theorem Settings.permits_iff (st : Settings) (addr len : Nat) (rd wr : Bool) :
    st.permits addr len rd wr = true ↔ ∃ i : Fin 4, st.apertures[i].permits addr len rd wr = true := by
  simp only [Settings.permits, List.any_eq_true, List.mem_finRange, true_and]

/-! ## Sync sources and times (R46) -/

theorem exists_parseSync_iff (b : Byte) :
    (∃ v, parseSync b = some v) ↔ b = 0xFF ∨ (EventSource.ofCode b.toNat).isSome = true := by
  unfold parseSync
  by_cases hb : b = 0xFF#8
  · simp [hb]
  · rw [if_neg hb]
    cases EventSource.ofCode b.toNat <;> simp [hb]

theorem inRange_iff (lo n hi : Nat) : inRange lo n hi = true ↔ lo ≤ n ∧ n ≤ hi := by simp [inRange]

/-- The ranges of the numbers in the block, over its halfwords (R47). -/
def NumbersInRange (bs : List Byte) : Prop :=
  let hf := fun i => (halfAt bs i).toNat
  hf 0x40 ≤ 1000 ∧ 1 ≤ hf 0x42 ∧ hf 0x42 ≤ 255 ∧ 1 ≤ hf 0x44 ∧ hf 0x44 ≤ 8 ∧
  10 ≤ hf 0x46 ∧ hf 0x46 ≤ 5000 ∧ hf 0x48 ≤ 1000 ∧ hf 0x48 ≤ hf 0x46 ∧ 1 ≤ hf 0x4A ∧ hf 0x4A ≤ 1000 ∧
  hf 0x4A ≤ hf 0x4C ∧ hf 0x4C ≤ 2000 ∧ hf 0x4E ≤ 2000 ∧ hf 0x50 ≤ 10000 ∧ hf 0x52 ≤ 1000

/-- `ControlBlockInRange` by its parts: the heads, the windows, the control block's and the status area's windows, the
numbers, the sync sources. -/
theorem controlBlockInRange_iff (cb : Word) (bs : List Byte) : ControlBlockInRange cb bs ↔
    ((wordAt bs 0x00).toNat % 16 = 0 ∧ (wordAt bs 0x04).toNat % 16 = 0 ∧ (∀ a, a < 4 → WindowInRange bs a) ∧
      (∃ a, a < 4 ∧ WindowContains bs a cb.toNat 128 ∧ (windowRights bs a = 1 ∨ windowRights bs a = 3)) ∧
      (wordAt bs 0x08).toNat % 64 = 0 ∧
      (∃ a, a < 4 ∧ WindowContains bs a (wordAt bs 0x08).toNat 1536 ∧
        (windowRights bs a = 2 ∨ windowRights bs a = 3)) ∧ NumbersInRange bs) ∧
    (∃ v, parseSync (byteAt bs 0x54) = some v) ∧ ∃ v, parseSync (byteAt bs 0x55) = some v := by
  simp only [exists_parseSync_iff, NumbersInRange, and_assoc]
  rfl

/-! ## A whole block -/

/-- The settings of a block whose windows and sync sources have been parsed. -/
def blockSettings (bs : List Byte) (w : Fin 4 → Aperture) (v0 v1 : Option EventSource) : Settings where
  normalHead := wordAt bs 0x00
  priorityHead := wordAt bs 0x04
  statusArea := some (wordAt bs 0x08)
  apertures := #v[w 0, w 1, w 2, w 3]
  pollMs := (halfAt bs 0x40).toNat
  replyMs := (halfAt bs 0x42).toNat
  wakeLimit := (halfAt bs 0x44).toNat
  wakeWindowMs := (halfAt bs 0x46).toNat
  wakeGapMs := (halfAt bs 0x48).toNat
  settleMs := (halfAt bs 0x4A).toNat
  readyMs := (halfAt bs 0x4C).toNat
  restMs := (halfAt bs 0x4E).toNat
  minAwakeMs := (halfAt bs 0x50).toNat
  holdMs := (halfAt bs 0x52).toNat
  sync0 := v0
  sync1 := v1

theorem blockSettings_aperture (bs : List Byte) (w : Fin 4 → Aperture) (v0 v1 : Option EventSource) :
    ∀ i : Fin 4, (blockSettings bs w v0 v1).apertures[i] = w i
  | 0 | 1 | 2 | 3 => rfl

/-- A block parses exactly when its windows and sync sources do and its settings are valid. -/
theorem parseSettings_eq_some_iff (cb : Word) (bs : List Byte) (st : Settings) : parseSettings cb bs = some st ↔
    ∃ w v0 v1, (∀ i : Fin 4, parseAperture bs i = some (w i)) ∧ parseSync (byteAt bs 0x54) = some v0 ∧
      parseSync (byteAt bs 0x55) = some v1 ∧ (blockSettings bs w v0 v1).valid cb (wordAt bs 0x08) = true ∧
      blockSettings bs w v0 v1 = st := by
  constructor
  · intro h
    unfold parseSettings at h
    split at h
    · next a0 a1 a2 a3 v0 v1 h0 h1 h2 h3 hv0 hv1 =>
      obtain ⟨hvalid, hst⟩ := Option.ite_none_right_eq_some.1 h
      have hw : ∀ i : Fin 4, parseAperture bs i = some (![a0, a1, a2, a3] i)
        | 0 => h0 | 1 => h1 | 2 => h2 | 3 => h3
      exact ⟨![a0, a1, a2, a3], v0, v1, hw, hv0, hv1, hvalid, Option.some.inj hst⟩
    · cases h
  · rintro ⟨w, v0, v1, hw, hv0, hv1, hvalid, rfl⟩
    have h0 : parseAperture bs 0 = some (w 0) := hw 0
    have h1 : parseAperture bs 1 = some (w 1) := hw 1
    have h2 : parseAperture bs 2 = some (w 2) := hw 2
    have h3 : parseAperture bs 3 = some (w 3) := hw 3
    simp only [parseSettings, h0, h1, h2, h3, hv0, hv1]
    exact if_pos hvalid

/-- The settings of a block whose windows parse are valid exactly when the bytes but those of the sync sources are in range.
-/
theorem valid_blockSettings_iff {bs : List Byte} {w : Fin 4 → Aperture} (hw : ∀ i : Fin 4, parseAperture bs i = some (w i))
    (cb : Word) (v0 v1 : Option EventSource) : (blockSettings bs w v0 v1).valid cb (wordAt bs 0x08) = true ↔
    (wordAt bs 0x00).toNat % 16 = 0 ∧ (wordAt bs 0x04).toNat % 16 = 0 ∧ (∀ a, a < 4 → WindowInRange bs a) ∧
      (∃ a, a < 4 ∧ WindowContains bs a cb.toNat 128 ∧ (windowRights bs a = 1 ∨ windowRights bs a = 3)) ∧
      (wordAt bs 0x08).toNat % 64 = 0 ∧
      (∃ a, a < 4 ∧ WindowContains bs a (wordAt bs 0x08).toNat 1536 ∧
        (windowRights bs a = 2 ∨ windowRights bs a = 3)) ∧ NumbersInRange bs := by
  simp only [Settings.valid, Bool.and_eq_true, beq_iff_eq, decide_eq_true_eq, List.all_eq_true, List.mem_finRange,
    forall_const, inRange_iff, Settings.permits_iff, blockSettings_aperture, valid_iff_windowInRange (hw _),
    permits_read_iff (hw _), permits_write_iff (hw _), Fin.forall_iff, Fin.exists_iff, exists_prop, Nat.zero_le, true_and,
    and_assoc]
  rfl

/-- R47: a block parses into settings exactly when every setting lies in its range. -/
theorem exists_parseSettings_iff (cb : Word) (bs : List Byte) :
    (∃ st, parseSettings cb bs = some st) ↔ ControlBlockInRange cb bs := by
  rw [controlBlockInRange_iff]
  constructor
  · rintro ⟨st, h⟩
    obtain ⟨w, v0, v1, hw, hv0, hv1, hvalid, -⟩ := (parseSettings_eq_some_iff cb bs st).1 h
    exact ⟨(valid_blockSettings_iff hw cb v0 v1).1 hvalid, ⟨v0, hv0⟩, ⟨v1, hv1⟩⟩
  · rintro ⟨hin, ⟨v0, hv0⟩, ⟨v1, hv1⟩⟩
    obtain ⟨-, -, hwindows, -⟩ := id hin
    choose w hw using fun i : Fin 4 => exists_parseAperture (hwindows i i.isLt)
    exact ⟨_, (parseSettings_eq_some_iff cb bs _).2
      ⟨w, v0, v1, hw, hv0, hv1, (valid_blockSettings_iff hw cb v0 v1).2 hin, rfl⟩⟩

/-! ## What the engine does -/

/-- Out of reset, and with no earlier access of the kind cut, the end of an access has its effect. -/
theorem endOfAccess_of_live {a : AccessId} {s : State} (hlow : s.resetLow = false) (hcut : s.accessCut a = false)
    (effect : State → State) : endOfAccess a s effect = .next (effect s) := by
  simp [endOfAccess, outOfReset, hlow, hcut]

@[simp] theorem State.engine_takeSettings (s : State) (st : Settings) :
    (s.takeSettings st).engine = .starting .statusRecords :=
  State.engine_of_body (State.body_markAllRecords _)

theorem State.body_startFails (s : State) (f : EngineFault) :
    (s.startFails f).body = ({ s with engine := .halted, fault := f } : State).body :=
  foldl_keeps State.body State.body_failRecord _ _

@[simp] theorem State.engine_startFails (s : State) (f : EngineFault) : (s.startFails f).engine = .halted :=
  State.engine_of_body (s.body_startFails f)

@[simp] theorem State.fault_startFails (s : State) (f : EngineFault) : (s.startFails f).fault = f :=
  State.fault_of_body (s.body_startFails f)

/-- In the control-block phase of START a block that parses is taken. -/
theorem controlBlockReadDoneEffect_taken {s : State} {bs : List Byte} {st : Settings} (hread : s.cbRead = true)
    (hengine : s.engine = .starting .controlBlock) (h : parseSettings s.cbaddr bs = some st) :
    controlBlockReadDoneEffect (.bytes bs) s = ({ s with cbRead := false } : State).takeSettings st := by
  simp only [controlBlockReadDoneEffect, if_pos hread, if_pos hengine, h]

/-- In the control-block phase of START a block that does not parse fails START. -/
theorem controlBlockReadDoneEffect_invalid {s : State} {bs : List Byte} (hread : s.cbRead = true)
    (hengine : s.engine = .starting .controlBlock) (h : parseSettings s.cbaddr bs = none) :
    controlBlockReadDoneEffect (.bytes bs) s = ({ s with cbRead := false } : State).startFails .cbInvalid := by
  simp only [controlBlockReadDoneEffect, if_pos hread, if_pos hengine, h]

/-- Settles O16: the block is judged by whether it parses, and it parses exactly when it is in range. -/
theorem controlBlockRanges : Obligations.ControlBlockRanges := by
  unfold Obligations.ControlBlockRanges
  intro s bs hlow hcut hengine hread
  have hexec : exec (.controlBlockReadDone (.bytes bs)) s = .next (controlBlockReadDoneEffect (.bytes bs) s) :=
    endOfAccess_of_live hlow hcut _
  refine ⟨fun hin => ?_, fun hout => ?_⟩
  · obtain ⟨st, hst⟩ := (exists_parseSettings_iff s.cbaddr bs).2 hin
    rw [controlBlockReadDoneEffect_taken hread hengine hst] at hexec
    exact ⟨_, hexec, State.engine_takeSettings _ st⟩
  · have hnone : parseSettings s.cbaddr bs = none :=
      Option.eq_none_iff_forall_ne_some.2 fun st hst => hout ((exists_parseSettings_iff s.cbaddr bs).1 ⟨st, hst⟩)
    rw [controlBlockReadDoneEffect_invalid hread hengine hnone] at hexec
    exact ⟨_, hexec, State.engine_startFails _ _, State.fault_startFails _ _⟩

end Sys2Proof.Machine
end

section
/-! The roll setting (R120): the row shown in each of the three areas, first as R120's table writes it and then without the
remainder, from which the order of the rows and the bounds follow; then what the two packets that set a roll do. -/

namespace Sys2Proof.Machine

/-! ## What a roll setting shows -/

/-- A roll setting that R120 allows on a panel of `height` rows. -/
structure Roll.Fits (roll : Roll) (height : Nat) : Prop where
  height_pos : 1 ≤ roll.height.toNat
  within : roll.top.toNat + roll.height.toNat ≤ height
  top_le : roll.top.toNat ≤ roll.start.toNat
  start_lt : roll.start.toNat < roll.top.toNat + roll.height.toNat

theorem rowShown_of_lt_top {roll : Roll} {r : Nat} (h : r < roll.top.toNat) : rowShown roll r = r := if_pos h

theorem rowShown_of_bottom {roll : Roll} {r : Nat} (h : roll.top.toNat + roll.height.toNat ≤ r) :
    rowShown roll r = r := by
  unfold rowShown
  rw [if_neg (by omega), if_neg (by omega)]

theorem rowShown_of_region {roll : Roll} {r : Nat} (ht : roll.top.toNat ≤ r)
    (hb : r < roll.top.toNat + roll.height.toNat) :
    rowShown roll r =
      roll.top.toNat + (roll.start.toNat - roll.top.toNat + (r - roll.top.toNat)) % roll.height.toNat := by
  unfold rowShown
  rw [if_neg (by omega), if_pos hb]

/-- The rolling region turns once at most: both summands of R120's remainder are below V, so it is their sum, less V where
the sum passes the end of the region. -/
theorem rowShown_of_region_cases {roll : Roll} {height r : Nat} (h : roll.Fits height) (ht : roll.top.toNat ≤ r)
    (hb : r < roll.top.toNat + roll.height.toNat) :
    rowShown roll r =
      if roll.start.toNat + (r - roll.top.toNat) < roll.top.toNat + roll.height.toNat then
        roll.start.toNat + (r - roll.top.toNat)
      else roll.start.toNat + (r - roll.top.toNat) - roll.height.toNat := by
  have htop := h.top_le
  have hstart := h.start_lt
  rw [rowShown_of_region ht hb]
  split
  · rw [Nat.mod_eq_of_lt (by omega)]
    omega
  · rw [Nat.mod_eq_sub_mod (by omega), Nat.mod_eq_of_lt (by omega)]
    omega

/-- The rolling region shows rows of the rolling region only. -/
theorem rowShown_mem_region {roll : Roll} {height r : Nat} (h : roll.Fits height) (ht : roll.top.toNat ≤ r)
    (hb : r < roll.top.toNat + roll.height.toNat) :
    roll.top.toNat ≤ rowShown roll r ∧ rowShown roll r < roll.top.toNat + roll.height.toNat := by
  have htop := h.top_le
  have hstart := h.start_lt
  rw [rowShown_of_region_cases h ht hb]
  split <;> omega

theorem rowShown_lt {roll : Roll} {height r : Nat} (h : roll.Fits height) (hr : r < height) :
    rowShown roll r < height := by
  rcases Nat.lt_or_ge r roll.top.toNat with ht | ht
  · rwa [rowShown_of_lt_top ht]
  · rcases Nat.lt_or_ge r (roll.top.toNat + roll.height.toNat) with hb | hb
    · exact (rowShown_mem_region h ht hb).2.trans_le h.within
    · rwa [rowShown_of_bottom hb]

/-- The rolling region begins at the start. -/
theorem rowShown_top {roll : Roll} {height : Nat} (h : roll.Fits height) :
    rowShown roll roll.top.toNat = roll.start.toNat := by
  rw [rowShown_of_region_cases h le_rfl (Nat.lt_add_of_pos_right h.height_pos), Nat.sub_self, Nat.add_zero,
    if_pos h.start_lt]

/-- Rows of the rolling region follow in order and wrap from its last row to its top. -/
theorem rowShown_succ {roll : Roll} {height r : Nat} (h : roll.Fits height) (ht : roll.top.toNat ≤ r)
    (hb : r + 1 < roll.top.toNat + roll.height.toNat) :
    rowShown roll (r + 1) = if rowShown roll r + 1 = roll.top.toNat + roll.height.toNat then roll.top.toNat
      else rowShown roll r + 1 := by
  have htop := h.top_le
  have hstart := h.start_lt
  rw [rowShown_of_region_cases h (Nat.le_succ_of_le ht) hb, rowShown_of_region_cases h ht (Nat.lt_of_succ_lt hb)]
  split_ifs <;> omega

/-- A start equal to the top shows the whole panel unrolled. -/
theorem rowShown_unrolled {roll : Roll} (h : roll.start = roll.top) (r : Nat) : rowShown roll r = r := by
  rcases Nat.lt_or_ge r roll.top.toNat with ht | ht
  · exact rowShown_of_lt_top ht
  · rcases Nat.lt_or_ge r (roll.top.toNat + roll.height.toNat) with hb | hb
    · rw [rowShown_of_region ht hb, h, Nat.mod_eq_of_lt (by omega)]
      omega
    · exact rowShown_of_bottom hb

/-! ## The packets that set a roll (R3, R122) -/

theorem TileDev.fits_chainReset (d : TileDev) (h : 1 ≤ d.geometry.height.toNat) :
    d.chainReset.roll.Fits d.geometry.height.toNat where
  height_pos := h
  within := (Nat.zero_add _).le
  top_le := le_rfl
  start_lt := h.trans_eq (Nat.zero_add _).symm

theorem TileDev.valid_rollArea {d : TileDev} {p : Packet} (hk : p.kind = .rollArea) :
    d.valid p = true ↔ 1 ≤ (lowHalf (payloadWord p 1)).toNat ∧
      (lowHalf (payloadWord p 0)).toNat + (lowHalf (payloadWord p 1)).toNat ≤ d.geometry.height.toNat := by
  simp only [TileDev.valid, hk, Bool.and_eq_true, decide_eq_true_eq]

theorem TileDev.valid_rollTo {d : TileDev} {p : Packet} (hk : p.kind = .rollTo) :
    d.valid p = true ↔ d.roll.top.toNat ≤ (lowHalf (payloadWord p 0)).toNat ∧
      (lowHalf (payloadWord p 0)).toNat < d.roll.top.toNat + d.roll.height.toNat := by
  simp only [TileDev.valid, hk, Bool.and_eq_true, decide_eq_true_eq]

theorem TileDev.accept_rollArea (d : TileDev) {p : Packet} (hk : p.kind = .rollArea) :
    d.accept p = { d with
      roll := ⟨lowHalf (payloadWord p 0), lowHalf (payloadWord p 1), lowHalf (payloadWord p 0)⟩ } := by
  simp only [TileDev.accept, hk]

theorem TileDev.accept_rollTo (d : TileDev) {p : Packet} (hk : p.kind = .rollTo) :
    d.accept p = { d with roll := { d.roll with start := lowHalf (payloadWord p 0) } } := by
  simp only [TileDev.accept, hk]

/-- Both packets replace the roll setting and nothing else. -/
theorem TileDev.accept_roll_frame (d : TileDev) {p : Packet} (hk : p.kind = .rollArea ∨ p.kind = .rollTo) :
    d.accept p = { d with roll := (d.accept p).roll } := by
  rcases hk with hk | hk
  · rw [TileDev.accept_rollArea d hk]
  · rw [TileDev.accept_rollTo d hk]

/-- An accepted packet leaves a roll setting that R120 allows: a ROLLAREA's start is its top, and a ROLLTO's start lies in
the region held. -/
theorem TileDev.fits_accept {d : TileDev} {p : Packet} (hk : p.kind = .rollArea ∨ p.kind = .rollTo)
    (hv : d.valid p = true) (hpos : 1 ≤ d.roll.height.toNat)
    (hin : d.roll.top.toNat + d.roll.height.toNat ≤ d.geometry.height.toNat) :
    (d.accept p).roll.Fits d.geometry.height.toNat := by
  rcases hk with hk | hk
  · obtain ⟨hheight, hpanel⟩ := (TileDev.valid_rollArea hk).1 hv
    rw [TileDev.accept_rollArea d hk]
    exact ⟨hheight, hpanel, le_rfl, Nat.lt_add_of_pos_right hheight⟩
  · obtain ⟨htop, hend⟩ := (TileDev.valid_rollTo hk).1 hv
    rw [TileDev.accept_rollTo d hk]
    exact ⟨hpos, hin, htop, hend⟩

/-- Settles O60: the mapping area by area, the defaults, and the two packets, whose frame is all but the roll setting. -/
theorem tileRollMapping : Obligations.TileRollMapping := by
  unfold Obligations.TileRollMapping
  refine ⟨fun roll height r hpos hin htop hstart hr => ?_, fun d => ⟨rfl, fun h => ?_⟩, fun d p hk hv ⟨hpos, hin⟩ => ?_⟩
  · have hfits : roll.Fits height := ⟨hpos, hin, htop, hstart⟩
    exact ⟨rowShown_of_lt_top, rowShown_of_region, rowShown_of_bottom, rowShown_lt hfits hr, rowShown_top hfits,
      rowShown_succ hfits, fun h => rowShown_unrolled h r⟩
  · obtain ⟨hheight, hpanel, hle, hlt⟩ := d.fits_chainReset h
    exact ⟨hheight, hpanel, hle, hlt⟩
  · obtain ⟨hheight, hpanel, hle, hlt⟩ := TileDev.fits_accept hk hv hpos hin
    have hframe := d.accept_roll_frame hk
    have hgeometry : (d.accept p).geometry = d.geometry := by rw [hframe]
    refine ⟨hheight, by rwa [hgeometry], hle, hlt, by rw [hframe], by rw [hframe], fun off => ?_⟩
    rw [hframe]
    rfl

end Sys2Proof.Machine
end

section
/-! The accesses to the register window that are no full word of a register (R182): what a narrower read returns, what a
narrower write does, and the offsets above IDENT, which hold no register. -/

namespace Sys2Proof.Machine

/-! ## Reads -/

/-- While RESET_N is high a read returns bytes of the register's word, from the place of the offset in it. -/
theorem State.readRegister_of_high {s : State} (hhigh : s.resetLow = false) (off len : Nat) :
    s.readRegister off len = ((wordBytes (s.register off)).drop (off % 4)).take len := by
  simp [State.readRegister, hhigh]

/-- The registers end with IDENT, at 0x20. -/
theorem State.register_eq_zero (s : State) {off : Nat} (h : 0x24 ≤ off) : s.register off = 0 := by
  obtain ⟨n, hn⟩ : ∃ n, off / 4 = n + 9 := ⟨off / 4 - 9, by omega⟩
  unfold State.register
  rw [hn]
  rfl

/-- The four byte offsets from 0x1C are TILECHG. -/
theorem State.register_tileChg (s : State) {off : Nat} (h : off < 4) : s.register (0x1C + off) = s.tileChg.setWidth 32 := by
  have hword : (0x1C + off) / 4 = 7 := by omega
  simp only [State.register, hword]

/-- A read of TILECHG returns what the window shows there, and empties the whole set however narrow it is. -/
theorem tilechgReadEffect_of_high {s : State} (hhigh : s.resetLow = false) {off : Nat} (hoff : off < 4) (len : Nat) :
    tilechgReadEffect off len s = { s with tileChg := 0, readBytes := s.readRegister (0x1C + off) len } := by
  have hbyte : (0x1C + off) % 4 = off := by omega
  rw [State.readRegister_of_high hhigh, s.register_tileChg hoff, hbyte]
  simp [tilechgReadEffect, hhigh]

/-! ## Writes -/

/-- Only a full word at CBADDR, COMMAND, NOTICE or NOTICEEN acts. -/
theorem registerWriteCommand_ignored {off len : Nat}
    (h : ¬ (len = 4 ∧ (off = 0x00 ∨ off = 0x04 ∨ off = 0x14 ∨ off = 0x18))) (v : Word) :
    registerWriteCommand off len v = .registerWriteIgnored off len := by
  have hne : ∀ a, a = 0x00 ∨ a = 0x04 ∨ a = 0x14 ∨ a = 0x18 → ¬ (len = 4 ∧ off = a) :=
    fun a ha ⟨hlen, hoff⟩ => h ⟨hlen, hoff ▸ ha⟩
  unfold registerWriteCommand
  rw [if_neg (hne 0x00 (by decide)), if_neg (hne 0x04 (by decide)), if_neg (hne 0x14 (by decide)),
    if_neg (hne 0x18 (by decide))]

/-- While RESET_N is high a command acts. -/
theorem outOfReset_of_high {s : State} (hhigh : s.resetLow = false) (effect : State → State) :
    outOfReset s effect = .next (effect s) := by
  simp [outOfReset, hhigh]

theorem exec_registerWriteIgnored_of_high {s : State} (hhigh : s.resetLow = false) (off len : Nat) :
    exec (.registerWriteIgnored off len) s = .next (registerWriteIgnoredEffect off len s) :=
  outOfReset_of_high hhigh _

/-- A narrower write to CBADDR or COMMAND is refused. -/
theorem registerWriteIgnoredEffect_narrow {off len : Nat} (hlen : len ≠ 4) (hoff : off < 8) (s : State) :
    registerWriteIgnoredEffect off len s = s.refuse := if_pos ⟨hlen, hoff⟩

/-- From ENGSTATE on an ignored write does nothing, whatever its length. -/
theorem registerWriteIgnoredEffect_beyond {off : Nat} (hoff : 8 ≤ off) (len : Nat) (s : State) :
    registerWriteIgnoredEffect off len s = s := if_neg fun h => Nat.not_lt.2 hoff h.2

/-- Settles O12: reads by the register at the offset, writes by the offsets and lengths that act. -/
theorem windowAccesses : Obligations.WindowAccesses := by
  unfold Obligations.WindowAccesses
  intro s hhigh
  have hbeyond : ∀ off len, 8 ≤ off → exec (.registerWriteIgnored off len) s = .next s := fun off len hoff => by
    rw [exec_registerWriteIgnored_of_high hhigh, registerWriteIgnoredEffect_beyond hoff]
  refine ⟨fun off len k _ _ hk => ?narrowRead, fun off len hlen hfit => ?tileChgRead, fun off len v hlen => ?narrowWrite,
    fun off len hlen hoff => ?refused, fun off len _ hoff => hbeyond off len hoff, fun off hoff => s.register_eq_zero hoff,
    fun off len v hoff => ⟨?noRegister, hbeyond off len (by omega)⟩⟩
  case narrowRead => rw [State.readRegister_of_high hhigh, List.getElem?_take_of_lt hk, List.getElem?_drop]
  case tileChgRead => exact congrArg Host.Outcome.next (tilechgReadEffect_of_high hhigh (by omega) len)
  case narrowWrite => exact registerWriteCommand_ignored (fun h => hlen h.1) v
  case refused =>
    rw [exec_registerWriteIgnored_of_high hhigh, registerWriteIgnoredEffect_narrow hlen hoff]
    rfl
  case noRegister => exact registerWriteCommand_ignored (by omega) v

end Sys2Proof.Machine
end

section
/-! What a command does, said once: its effect, when the effect is held back, and what it leaves of the outer state. -/

namespace Sys2Proof.Machine

/-- The state a command leads to where nothing holds its effect back. -/
def effectOf : Instr → State → State
  | .start => startEffect
  | .stop => stopEffect
  | .reset => resetEffect
  | .enumerate => enumerateEffect
  | .rescanN => rescanNEffect
  | .rescanP => rescanPEffect
  | .resumeN => resumeNEffect
  | .resumeP => resumePEffect
  | .abortN => abortNEffect
  | .abortP => abortPEffect
  | .unknownCommand code => unknownCommandEffect code
  | .cbaddrWrite value => cbaddrWriteEffect value
  | .noticeWrite value => noticeWriteEffect value
  | .noticeenWrite value => noticeenWriteEffect value
  | .tilechgRead off len => tilechgReadEffect off len
  | .registerWriteIgnored off len => registerWriteIgnoredEffect off len
  | .hardReset => hardResetEffect
  | .resetNRelease => resetNReleaseEffect
  | .trigPinChange input level => trigPinChangeEffect input level
  | .trigFilterExpiry input => trigFilterExpiryEffect input
  | .syncPulseExpiry output => syncPulseExpiryEffect output
  | .receiverLock p => receiverLockEffect p
  | .tileLock p => tileLockEffect p
  | .hardError p => hardErrorEffect p
  | .ackReceived p dist tag status => ackReceivedEffect p dist tag status
  | .dataReceived p dist tag words => dataReceivedEffect p dist tag words
  | .faultNotice p dist code => faultNoticeEffect p dist code
  | .frameNotice p dist => frameNoticeEffect p dist
  | .linkErrorPacket p bs => linkErrorPacketEffect p bs
  | .transmissionEnd p => transmissionEndEffect p
  | .timebaseTick => timebaseTickEffect
  | .attemptTimerExpiry p => attemptTimerExpiryEffect p
  | .chainResetWaitExpiry p => chainResetWaitExpiryEffect p
  | .probeDeadlineExpiry p => probeDeadlineExpiryEffect p
  | .replyDeadlineExpiry p tag => replyDeadlineExpiryEffect p tag
  | .settleTimerExpiry t => settleTimerExpiryEffect t
  | .restTimerExpiry t => restTimerExpiryEffect t
  | .pollTimerExpiry c => pollTimerExpiryEffect c
  | .waitTimeout slot => waitTimeoutEffect slot
  | .pauseExpiry slot => pauseExpiryEffect slot
  | .wakeHistoryAgeOut => wakeHistoryAgeOutEffect
  | .sleepGateOpen t => sleepGateOpenEffect t
  | .readyGateOpen t => readyGateOpenEffect t
  | .controlBlockReadDone r => controlBlockReadDoneEffect r
  | .statusWriteDone t ok => statusWriteDoneEffect t ok
  | .statusRewriteStart t => statusRewriteStartEffect t
  | .headerReadDone c r => headerReadDoneEffect c r
  | .stepReadDone c r => stepReadDoneEffect c r
  | .rescanReadDone c r => rescanReadDoneEffect c r
  | .takenWriteDone c ok => takenWriteDoneEffect c ok
  | .fetchFailWriteDone c last ok => fetchFailWriteDoneEffect c last ok
  | .resultWriteDone slot last ok => resultWriteDoneEffect slot last ok
  | .stateWordWriteDone slot ok => stateWordWriteDoneEffect slot ok
  | .stagingReadDone slot t r => stagingReadDoneEffect slot t r
  | .destinationWriteDone p tag ok => destinationWriteDoneEffect p tag ok
  | .packetIssue p => packetIssueEffect p
  | .jobAdmission slot => jobAdmissionEffect slot
  | .slotOffer slot => slotOfferEffect slot
  | .jobDrained slot => jobDrainedEffect slot
  | .rescanPending c => rescanPendingEffect c
  | .resumeDeferred c => resumeDeferredEffect c
  | .engineEntersRunning => engineEntersRunningEffect
  | .engineStopped => engineStoppedEffect

/-- The four commands that act while RESET_N is low too (R178). -/
def actsInReset : Instr → Bool
  | .hardReset | .resetNRelease | .trigPinChange _ _ | .tilechgRead _ _ => true
  | _ => false

/-- Every command is its effect, held back by a low RESET_N, or the end of an access. -/
theorem exec_eq (c : Instr) (s : State) : exec c s =
    match accessEnded c with
    | some a => endOfAccess a s (effectOf c)
    | none => if actsInReset c then .next (effectOf c s) else outOfReset s (effectOf c) := by
  cases c <;> rfl

/-- Everything a command can do: nothing, end an access that has no use any more, or its effect. -/
theorem exec_cases {c : Instr} {s t : State} (h : exec c s = .next t) :
    t = s ∨ (∃ a, accessEnded c = some a ∧ t = s.dropCut a) ∨
      ((actsInReset c = true ∨ s.resetLow = false) ∧ t = effectOf c s) := by
  rw [exec_eq] at h
  split at h
  · next a ha =>
    rcases endOfAccess_spec h with ⟨-, rfl⟩ | ⟨-, -, rfl⟩ | ⟨-, hlow, rfl⟩
    · exact .inr (.inl ⟨a, ha, rfl⟩)
    · exact .inl rfl
    · exact .inr (.inr ⟨.inr hlow, rfl⟩)
  · split at h
    · next hact =>
      cases h
      exact .inr (.inr ⟨.inl hact, rfl⟩)
    · unfold outOfReset at h
      cases hlow : s.resetLow
      · rw [hlow] at h
        cases h
        exact .inr (.inr ⟨.inr rfl, rfl⟩)
      · rw [hlow] at h
        cases h
        exact .inl rfl

/-- Out of reset, with no access of the row's kind cut, a command has its effect. -/
theorem exec_of_live {c : Instr} {s : State} (hlow : s.resetLow = false)
    (hcut : ∀ a, accessEnded c = some a → s.accessCut a = false) : exec c s = .next (effectOf c s) := by
  rw [exec_eq]
  split
  · next a ha => exact endOfAccess_of_live hlow (hcut a ha) _
  · split
    · rfl
    · exact outOfReset_of_high hlow _

/-- Out of reset a command that ends no access has its effect. -/
theorem exec_of_high {c : Instr} {s : State} (hlow : s.resetLow = false) (hend : accessEnded c = none) :
    exec c s = .next (effectOf c s) :=
  exec_of_live hlow (by simp [hend])

/-- A step is a command on the rest of the queue, or nothing. -/
theorem step_cases {s t : State} (h : step s = .next t) :
    t = s ∨ ∃ c rest, s.pending = c :: rest ∧ exec c { s with pending := rest } = .next t := by
  unfold step at h
  split at h
  · cases h
    exact .inl rfl
  · next c rest hp => exact .inr ⟨c, rest, hp, h⟩

/-- What the queue, the end of an access without use and every effect keep, every step keeps. -/
theorem step_keeps {P : State → Prop} (hqueue : ∀ s l, P s → P { s with pending := l })
    (hcut : ∀ s a, P s → P (s.dropCut a)) (heffect : ∀ c s, P s → P (effectOf c s)) {s t : State} (hs : P s)
    (h : step s = .next t) : P t := by
  rcases step_cases h with rfl | ⟨c, rest, -, hc⟩
  · exact hs
  · rcases exec_cases hc with rfl | ⟨a, -, rfl⟩ | ⟨-, rfl⟩
    · exact hqueue s rest hs
    · exact hcut _ a (hqueue s rest hs)
    · exact heffect c _ (hqueue s rest hs)

/-- Settles O1: both clauses are the two cases of `step`. -/
theorem stepTakesFrontCommand : Obligations.StepTakesFrontCommand := by
  unfold Obligations.StepTakesFrontCommand
  exact ⟨fun _ _ _ => rfl, fun _ => rfl⟩

/-! ## The body -/

/-- The commands that leave the body of the state: those of ports, tiles, jobs and records, and the notices' own. -/
def keepsBody : Instr → Bool
  | .enumerate | .unknownCommand _ | .noticeWrite _ | .registerWriteIgnored _ _ | .syncPulseExpiry _ | .receiverLock _
  | .tileLock _ | .hardError _ | .ackReceived _ _ _ _ | .dataReceived _ _ _ _ | .faultNotice _ _ _ | .frameNotice _ _
  | .linkErrorPacket _ _ | .transmissionEnd _ | .attemptTimerExpiry _ | .chainResetWaitExpiry _
  | .probeDeadlineExpiry _ | .replyDeadlineExpiry _ _ | .settleTimerExpiry _ | .restTimerExpiry _ | .waitTimeout _
  | .pauseExpiry _ | .sleepGateOpen _ | .readyGateOpen _ | .statusRewriteStart _ | .stagingReadDone _ _ _
  | .destinationWriteDone _ _ _ | .jobAdmission _ | .jobDrained _ => true
  | _ => false

section
variable (s : State)

theorem body_enumerateEffect : (enumerateEffect s).body = s.body := by
  unfold enumerateEffect
  split
  · simp
  · rfl

theorem body_receiverLockEffect (p : PortId) : (receiverLockEffect p s).body = s.body := by
  unfold receiverLockEffect
  repeat' split
  all_goals simp

theorem body_tileLockEffect (p : PortId) : (tileLockEffect p s).body = s.body := by
  unfold tileLockEffect
  repeat' split
  all_goals simp

theorem body_hardErrorEffect (p : PortId) : (hardErrorEffect p s).body = s.body := by
  unfold hardErrorEffect
  repeat' split
  all_goals simp

theorem body_ackReceivedEffect (p : PortId) (d : Position) (g : Tag) (st : AckStatus) :
    (ackReceivedEffect p d g st s).body = s.body := by
  unfold ackReceivedEffect
  dsimp only
  repeat' split
  all_goals simp

theorem body_dataReceivedEffect (p : PortId) (d : Position) (g : Tag) (ws : List Word) :
    (dataReceivedEffect p d g ws s).body = s.body := by
  unfold dataReceivedEffect
  dsimp only
  repeat' split
  all_goals simp

theorem body_probeDeadlineExpiryEffect (p : PortId) : (probeDeadlineExpiryEffect p s).body = s.body := by
  unfold probeDeadlineExpiryEffect
  split <;> simp

theorem body_chainResetWaitExpiryEffect (p : PortId) : (chainResetWaitExpiryEffect p s).body = s.body := by
  unfold chainResetWaitExpiryEffect
  dsimp only
  split
  · rw [State.body_finish, State.body_issueProbe,
      foldl_keeps State.body (fun s t => State.body_modTile s t TileEntry.chainReset), State.body_modPort]
  · rfl

theorem body_stagingReadDoneEffect (i : SlotNum) (t : TileNum) (r : ReadResult) :
    (stagingReadDoneEffect i t r s).body = s.body := by
  unfold stagingReadDoneEffect State.stagingReadEnds State.endStagingRead
  dsimp only
  repeat' split
  all_goals first
    | rfl
    | simp

theorem body_effectOf {c : Instr} (h : keepsBody c = true) : (effectOf c s).body = s.body := by
  cases c
  case enumerate => exact body_enumerateEffect s
  case unknownCommand code => simp only [effectOf, unknownCommandEffect]; split <;> rfl
  case noticeWrite v => rfl
  case registerWriteIgnored off len => simp only [effectOf, registerWriteIgnoredEffect]; split <;> rfl
  case syncPulseExpiry o => cases o <;> rfl
  case receiverLock p => exact body_receiverLockEffect s p
  case tileLock p => exact body_tileLockEffect s p
  case hardError p => exact body_hardErrorEffect s p
  case ackReceived p d g st => exact body_ackReceivedEffect s p d g st
  case dataReceived p d g ws => exact body_dataReceivedEffect s p d g ws
  case faultNotice p d code => simp only [effectOf, faultNoticeEffect]; split <;> simp
  case frameNotice p d => simp only [effectOf, frameNoticeEffect]; split <;> simp
  case linkErrorPacket p bs =>
    simp only [effectOf, linkErrorPacketEffect]
    repeat' split
    all_goals rfl
  case transmissionEnd p => simp only [effectOf, transmissionEndEffect]; split <;> simp
  case attemptTimerExpiry p => simp only [effectOf, attemptTimerExpiryEffect]; split <;> simp
  case chainResetWaitExpiry p => exact body_chainResetWaitExpiryEffect s p
  case probeDeadlineExpiry p => exact body_probeDeadlineExpiryEffect s p
  case replyDeadlineExpiry p g => simp only [effectOf, replyDeadlineExpiryEffect]; split <;> simp
  case settleTimerExpiry t => simp only [effectOf, settleTimerExpiryEffect]; split <;> simp
  case restTimerExpiry t => simp only [effectOf, restTimerExpiryEffect]; split <;> simp
  case waitTimeout i =>
    simp only [effectOf, waitTimeoutEffect]
    repeat' split
    all_goals simp
  case pauseExpiry i =>
    simp only [effectOf, pauseExpiryEffect]
    repeat' split
    all_goals simp
  case sleepGateOpen t => simp only [effectOf, sleepGateOpenEffect]; split <;> rfl
  case readyGateOpen t => simp only [effectOf, readyGateOpenEffect]; split <;> rfl
  case statusRewriteStart t => simp only [effectOf, statusRewriteStartEffect]; split <;> rfl
  case stagingReadDone i t r => exact body_stagingReadDoneEffect s i t r
  case destinationWriteDone p g ok =>
    simp only [effectOf, destinationWriteDoneEffect]
    repeat' split
    all_goals simp
  case jobAdmission i => simp only [effectOf, jobAdmissionEffect]; split <;> simp
  case jobDrained i =>
    simp only [effectOf, jobDrainedEffect]
    repeat' split
    all_goals simp
  all_goals cases h

end

/-! ## The outer state -/

/-- The commands that change the queue's neighbours: registers, Timebase, settings, wake history, pins. -/
def changesOuter : Instr → Bool
  | .reset | .hardReset | .resetNRelease | .cbaddrWrite _ | .noticeenWrite _ | .tilechgRead _ _ | .trigPinChange _ _
  | .trigFilterExpiry _ | .timebaseTick | .wakeHistoryAgeOut | .controlBlockReadDone _ | .packetIssue _ => true
  | _ => false

section
variable (s : State)

@[simp] theorem State.outer_refuse : s.refuse.outer = s.outer := rfl

theorem outer_startEffect : (startEffect s).outer = s.outer := by
  unfold startEffect
  dsimp only
  split
  · split
    · exact State.outer_startFails _ _
    · rfl
  · rfl

theorem outer_stopEffect : (stopEffect s).outer = s.outer := by
  unfold stopEffect
  split <;> simp

@[simp] theorem State.outer_rescan (c : Chain) : (s.rescan c).outer = s.outer := by
  unfold State.rescan
  split <;> simp

@[simp] theorem State.outer_resume (c : Chain) : (s.resume c).outer = s.outer := by
  unfold State.resume
  repeat' split
  all_goals simp

@[simp] theorem State.outer_abortCommand (c : Chain) : (s.abortCommand c).outer = s.outer := by
  unfold State.abortCommand
  split <;> simp

theorem outer_statusWriteDoneEffect (t : TileNum) (ok : Bool) : (statusWriteDoneEffect t ok s).outer = s.outer := by
  unfold statusWriteDoneEffect
  repeat' split
  all_goals simp

theorem outer_takenWriteDoneEffect (c : Chain) (ok : Bool) : (takenWriteDoneEffect c ok s).outer = s.outer := by
  unfold takenWriteDoneEffect
  repeat' split
  all_goals simp

theorem outer_fetchFailWriteDoneEffect (c : Chain) (last ok : Bool) :
    (fetchFailWriteDoneEffect c last ok s).outer = s.outer := by
  unfold fetchFailWriteDoneEffect
  repeat' split
  all_goals simp

theorem outer_resultWriteDoneEffect (i : SlotNum) (last ok : Bool) :
    (resultWriteDoneEffect i last ok s).outer = s.outer := by
  unfold resultWriteDoneEffect
  repeat' split
  all_goals simp

theorem outer_stateWordWriteDoneEffect (i : SlotNum) (ok : Bool) :
    (stateWordWriteDoneEffect i ok s).outer = s.outer := by
  unfold stateWordWriteDoneEffect
  repeat' split
  all_goals simp

theorem outer_engineEntersRunningEffect : (engineEntersRunningEffect s).outer = s.outer := by
  unfold engineEntersRunningEffect
  dsimp only
  split
  · simp only [State.outer_finish, State.outer_startWalker, State.outer_raise]
    rfl
  · rfl

theorem outer_engineStoppedEffect : (engineStoppedEffect s).outer = s.outer := by
  unfold engineStoppedEffect
  split <;> rfl
end

/-- Every other command leaves the outer state as it was. -/
theorem outer_effectOf {c : Instr} (h : changesOuter c = false) (s : State) : (effectOf c s).outer = s.outer := by
  by_cases hb : keepsBody c = true
  · exact State.outer_of_body (body_effectOf s hb)
  cases c
  case start => exact outer_startEffect s
  case stop => exact outer_stopEffect s
  case rescanN => exact State.outer_rescan s _
  case rescanP => exact State.outer_rescan s _
  case resumeN => exact State.outer_resume s _
  case resumeP => exact State.outer_resume s _
  case abortN => exact State.outer_abortCommand s _
  case abortP => exact State.outer_abortCommand s _
  case pollTimerExpiry c => simp only [effectOf, pollTimerExpiryEffect]; split <;> simp
  case statusWriteDone t ok => exact outer_statusWriteDoneEffect s t ok
  case headerReadDone c r => simp only [effectOf, headerReadDoneEffect]; split <;> simp
  case stepReadDone c r => simp only [effectOf, stepReadDoneEffect]; split <;> simp
  case rescanReadDone c r => simp only [effectOf, rescanReadDoneEffect]; split <;> simp
  case takenWriteDone c ok => exact outer_takenWriteDoneEffect s c ok
  case fetchFailWriteDone c last ok => exact outer_fetchFailWriteDoneEffect s c last ok
  case resultWriteDone i last ok => exact outer_resultWriteDoneEffect s i last ok
  case stateWordWriteDone i ok => exact outer_stateWordWriteDoneEffect s i ok
  case slotOffer i => simp only [effectOf, slotOfferEffect]; split <;> simp
  case rescanPending c => simp only [effectOf, rescanPendingEffect]; split <;> simp
  case resumeDeferred c => simp only [effectOf, resumeDeferredEffect]; split <;> simp
  case engineEntersRunning => exact outer_engineEntersRunningEffect s
  case engineStopped => exact outer_engineStoppedEffect s
  case reset => cases h
  case hardReset => cases h
  case resetNRelease => cases h
  case cbaddrWrite => cases h
  case noticeenWrite => cases h
  case tilechgRead => cases h
  case trigPinChange => cases h
  case trigFilterExpiry => cases h
  case timebaseTick => cases h
  case wakeHistoryAgeOut => cases h
  case controlBlockReadDone => cases h
  case packetIssue => cases h
  all_goals exact absurd rfl hb

end Sys2Proof.Machine
end

section
/-! The registers and the queue that a command leaves (R169, R177, R178), and the bound of the wake history (R87). -/

namespace Sys2Proof.Machine

/-! ## The commands that change the outer state -/

/-- The packet issued is granted or it leaves the wake history; a grant needs the budget open (R89, R90). -/
theorem outer_packetIssueEffect (p : PortId) (s : State) : (packetIssueEffect p s).outer = s.outer ∨
    (s.budgetOpen = true ∧ (packetIssueEffect p s).outer = { s.outer with wakeHistory := s.wakeHistory ++ [s.now] }) := by
  unfold packetIssueEffect
  split
  · split
    · next c g hc _ =>
      have hissue := congrArg State.outer (s.body_issue p c g)
      simp only [State.outer_presentAfterIssue, State.outer_commit]
      by_cases hgrant : s.grants c = true
      · refine .inr ⟨(State.budgetOpen_of_grant hc hgrant).2, ?_⟩
        rw [if_pos hgrant] at hissue
        exact hissue
      · rw [if_neg hgrant] at hissue
        exact .inl hissue
    · exact .inl rfl
  · exact .inl rfl

@[simp] theorem State.setTrig_outer (s : State) (i : Line) (f : TrigFilter) : (s.setTrig i f).outer =
    (match i with | .zero => { s.outer with trig0 := f } | .one => { s.outer with trig1 := f }) := by
  cases i <;> rfl

/-- The end of a trigger filter's interval changes its filter alone in the outer state (R162). -/
theorem outer_trigFilterExpiryEffect (i : Line) (s : State) :
    ∃ f, (trigFilterExpiryEffect i s).outer = (s.setTrig i f).outer := by
  unfold trigFilterExpiryEffect
  dsimp only
  split
  · split
    · exact ⟨_, State.outer_of_body ((State.body_finish _ _).trans (State.body_occur _ _))⟩
    · exact ⟨_, rfl⟩
  · exact ⟨s.trig i, by cases i <;> rfl⟩

/-- The end of the control block's read leaves the outer state, but for settings and a wake history trimmed to them (R46,
R87). -/
theorem outer_controlBlockReadDoneEffect (r : ReadResult) (s : State) :
    (controlBlockReadDoneEffect r s).outer = s.outer ∨ ∃ st, (controlBlockReadDoneEffect r s).outer =
      { s.outer with settings := st, wakeHistory := trimHistory st.wakeLimit s.wakeHistory } := by
  unfold controlBlockReadDoneEffect
  dsimp only
  split
  · split
    · split
      · exact .inl (State.outer_startFails _ _)
      · split
        · exact .inl (State.outer_startFails _ _)
        · next st _ => exact .inr ⟨st, State.outer_takeSettings _ st⟩
    · exact .inl rfl
  · exact .inl rfl

/-- The oldest entry of the wake history leaves, or the outer state stays (R87). -/
theorem outer_wakeHistoryAgeOutEffect (s : State) : (wakeHistoryAgeOutEffect s).outer = s.outer ∨
    ∃ m rest, s.wakeHistory = m :: rest ∧ (wakeHistoryAgeOutEffect s).outer = { s.outer with wakeHistory := rest } := by
  unfold wakeHistoryAgeOutEffect
  split
  · exact .inl rfl
  · next m rest hm =>
    split
    · exact .inr ⟨m, rest, hm, rfl⟩
    · exact .inl rfl

/-- The queue, CBADDR, NOTICEEN and the Timebase. -/
def State.kept (s : State) : List Instr × Word × NoticeSet × Word := (s.pending, s.cbaddr, s.noticeEn, s.now)

theorem State.kept_of_outer {s t : State} (h : t.outer = s.outer) : t.kept = s.kept := (congrArg State.kept h :)

/-- The commands that write CBADDR, NOTICEEN or the Timebase. -/
def writesRegisters : Instr → Bool
  | .reset | .hardReset | .cbaddrWrite _ | .noticeenWrite _ | .timebaseTick => true
  | _ => false

theorem effectOf_kept {c : Instr} (h : writesRegisters c = false) (s : State) : (effectOf c s).kept = s.kept := by
  by_cases hout : changesOuter c = false
  · exact State.kept_of_outer (outer_effectOf hout s)
  cases c
  case resetNRelease =>
    simp only [effectOf, resetNReleaseEffect]
    split <;> rfl
  case tilechgRead off len =>
    simp only [effectOf, tilechgReadEffect]
    split <;> rfl
  case trigPinChange i l =>
    simp only [effectOf, trigPinChangeEffect]
    split
    · rfl
    · cases i <;> rfl
  case trigFilterExpiry i =>
    obtain ⟨f, hf⟩ := outer_trigFilterExpiryEffect i s
    have hset : (s.setTrig i f).kept = s.kept := by cases i <;> rfl
    exact (State.kept_of_outer hf).trans hset
  case wakeHistoryAgeOut =>
    rcases outer_wakeHistoryAgeOutEffect s with h | ⟨m, rest, -, h⟩
    · exact State.kept_of_outer h
    · exact (congrArg State.kept h :)
  case controlBlockReadDone r =>
    rcases outer_controlBlockReadDoneEffect r s with h | ⟨st, h⟩
    · exact State.kept_of_outer h
    · exact (congrArg State.kept h :)
  case packetIssue p =>
    rcases outer_packetIssueEffect p s with h | ⟨-, h⟩
    · exact State.kept_of_outer h
    · exact (congrArg State.kept h :)
  case reset => cases h
  case hardReset => cases h
  case cbaddrWrite => cases h
  case noticeenWrite => cases h
  case timebaseTick => cases h
  all_goals exact absurd rfl hout

theorem effectOf_pending (c : Instr) (s : State) : (effectOf c s).pending = s.pending := by
  by_cases h : writesRegisters c = false
  · exact (congrArg Prod.fst (effectOf_kept h s) :)
  cases c
  case reset => rfl
  case hardReset => rfl
  case cbaddrWrite v => simp only [effectOf, cbaddrWriteEffect]; split <;> rfl
  case noticeenWrite v => rfl
  case timebaseTick => rfl
  all_goals exact absurd rfl h

/-- Settles O2: an outcome is a next state in each of the forms a meaning has, and every effect leaves the queue. -/
theorem everyCommandAnswersNext : Obligations.EveryCommandAnswersNext := by
  unfold Obligations.EveryCommandAnswersNext
  intro c s
  have hnext : ∃ t, exec c s = .next t := by
    rw [exec_eq]
    unfold endOfAccess outOfReset
    repeat' split
    all_goals exact ⟨_, rfl⟩
  obtain ⟨t, ht⟩ := hnext
  refine ⟨t, ht, ?_⟩
  rcases exec_cases ht with rfl | ⟨a, -, rfl⟩ | ⟨-, rfl⟩
  · rfl
  · rfl
  · exact effectOf_pending c s

/-- Settles O4: each of the three registers is written by the rows named alone. -/
theorem registersChangeOnlyByTheirRows : Obligations.RegistersChangeOnlyByTheirRows := by
  unfold Obligations.RegistersChangeOnlyByTheirRows
  intro c s t ht
  rcases exec_cases ht with rfl | ⟨a, -, rfl⟩ | ⟨-, rfl⟩
  · exact ⟨fun _ _ => rfl, fun _ _ => rfl, fun _ _ _ => rfl⟩
  · exact ⟨fun _ _ => rfl, fun _ _ => rfl, fun _ _ _ => rfl⟩
  · by_cases h : writesRegisters c = false
    · obtain ⟨-, hcbaddr, hnoticeEn, hnow⟩ : _ ∧ _ ∧ _ ∧ _ := by
        simpa only [State.kept, Prod.mk.injEq] using effectOf_kept h s
      exact ⟨fun _ _ => hcbaddr, fun _ _ => hnoticeEn, fun _ _ _ => hnow⟩
    cases c
    case reset => exact ⟨fun _ _ => rfl, fun _ _ => rfl, fun _ _ h => absurd rfl h⟩
    case hardReset => exact ⟨fun _ h => absurd rfl h, fun _ h => absurd rfl h, fun _ h => absurd rfl h⟩
    case cbaddrWrite v =>
      refine ⟨fun h => absurd rfl (h v), fun _ _ => ?_, fun _ _ _ => ?_⟩ <;>
        (simp only [effectOf, cbaddrWriteEffect]; split <;> rfl)
    case noticeenWrite v => exact ⟨fun _ _ => rfl, fun h => absurd rfl (h v), fun _ _ _ => rfl⟩
    case timebaseTick => exact ⟨fun _ _ => rfl, fun _ _ => rfl, fun h => absurd rfl h⟩
    all_goals exact absurd rfl h

/-! ## The wake history (R87) -/

/-- The wake history holds at most WAKE_LIMIT entries. -/
def State.HistoryBounded (s : State) : Prop := s.wakeHistory.length ≤ s.settings.wakeLimit

theorem State.historyBounded_of_outer {s t : State} (h : t.outer = s.outer) (hs : s.HistoryBounded) :
    t.HistoryBounded := by
  unfold State.HistoryBounded
  rw [State.wakeHistory_of_outer h, State.settings_of_outer h]
  exact hs

theorem State.historyBounded_afterReset (s : State) : s.afterReset.HistoryBounded := Nat.zero_le _

theorem trimHistory_length_le (limit : Nat) (h : List Word) : (trimHistory limit h).length ≤ limit := by
  simp only [trimHistory, List.length_drop]
  omega

/-- A grant leaves room: it needs the budget open (R89). -/
theorem State.historyBounded_grant {s : State} (h : s.budgetOpen = true) :
    ({ s with wakeHistory := s.wakeHistory ++ [s.now] } : State).HistoryBounded := by
  simp only [State.budgetOpen, Bool.and_eq_true, decide_eq_true_eq] at h
  simpa [State.HistoryBounded] using h.1

theorem historyBounded_effectOf (c : Instr) (s : State) (hs : s.HistoryBounded) : (effectOf c s).HistoryBounded := by
  by_cases hout : changesOuter c = false
  · exact State.historyBounded_of_outer (outer_effectOf hout s) hs
  cases c
  case reset => exact s.historyBounded_afterReset
  case hardReset => exact s.historyBounded_afterReset
  case resetNRelease => simp only [effectOf, resetNReleaseEffect]; split <;> exact hs
  case cbaddrWrite v => simp only [effectOf, cbaddrWriteEffect]; split <;> exact hs
  case noticeenWrite v => exact hs
  case tilechgRead off len => simp only [effectOf, tilechgReadEffect]; split <;> exact hs
  case trigPinChange i l =>
    simp only [effectOf, trigPinChangeEffect]
    split
    · exact hs
    · cases i <;> exact hs
  case trigFilterExpiry i =>
    obtain ⟨f, hf⟩ := outer_trigFilterExpiryEffect i s
    exact State.historyBounded_of_outer hf (by cases i <;> exact hs)
  case timebaseTick => exact hs
  case wakeHistoryAgeOut =>
    rcases outer_wakeHistoryAgeOutEffect s with h | ⟨m, rest, hm, h⟩
    · exact State.historyBounded_of_outer h hs
    · refine State.historyBounded_of_outer (s := { s with wakeHistory := rest }) h ?_
      unfold State.HistoryBounded at hs
      rw [hm] at hs
      exact (Nat.le_succ _).trans hs
  case controlBlockReadDone r =>
    rcases outer_controlBlockReadDoneEffect r s with h | ⟨st, h⟩
    · exact State.historyBounded_of_outer h hs
    · exact State.historyBounded_of_outer
        (s := { s with settings := st, wakeHistory := trimHistory st.wakeLimit s.wakeHistory }) h
        (trimHistory_length_le _ _)
  case packetIssue p =>
    rcases outer_packetIssueEffect p s with h | ⟨hopen, h⟩
    · exact State.historyBounded_of_outer h hs
    · exact State.historyBounded_of_outer (s := { s with wakeHistory := s.wakeHistory ++ [s.now] }) h
        (State.historyBounded_grant hopen)
  all_goals exact absurd rfl hout

/-- Settles O5: a grant needs room in the budget, START trims, and nothing else lengthens the history or lowers the limit. -/
theorem wakeHistoryStaysBounded : Obligations.WakeHistoryStaysBounded := by
  unfold Obligations.WakeHistoryStaysBounded
  intro s t hs h
  exact step_keeps (P := State.HistoryBounded) (fun _ _ => id) (fun _ _ => id) historyBounded_effectOf hs h

end Sys2Proof.Machine
end

section
/-! A command whose occasion does not hold changes nothing (log 2): each effect asks for its occasion first. -/

namespace Sys2Proof.Machine

section
variable {s : State}

theorem receiverLockEffect_idle {p : PortId} (h : (s.port p).takesLocks = false) : receiverLockEffect p s = s := by
  unfold receiverLockEffect
  split <;> simp_all [Port.takesLocks]

theorem tileLockEffect_idle {p : PortId} (h : (s.port p).takesLocks = false) : tileLockEffect p s = s := by
  unfold tileLockEffect
  split <;> simp_all [Port.takesLocks]

theorem hardErrorEffect_idle {p : PortId} (h : (s.port p).takesHardError = false) : hardErrorEffect p s = s := by
  unfold hardErrorEffect
  split <;> simp_all [Port.takesHardError]

theorem wakeHistoryAgeOutEffect_idle (h : s.oldestAged = false) : wakeHistoryAgeOutEffect s = s := by
  unfold wakeHistoryAgeOutEffect
  split <;> simp_all [State.oldestAged]

theorem headerReadDoneEffect_idle {c : Chain} (h : (s.walker c).work.isHeaderRead = false) (r : ReadResult) :
    headerReadDoneEffect c r s = s := by
  unfold headerReadDoneEffect
  split <;> simp_all [WalkerWork.isHeaderRead]

theorem stepReadDoneEffect_idle {c : Chain} (h : (s.walker c).work.isStepRead = false) (r : ReadResult) :
    stepReadDoneEffect c r s = s := by
  unfold stepReadDoneEffect
  split <;> simp_all [WalkerWork.isStepRead]

theorem rescanReadDoneEffect_idle {c : Chain} (h : (s.walker c).work.isRescanRead = false) (r : ReadResult) :
    rescanReadDoneEffect c r s = s := by
  unfold rescanReadDoneEffect
  split <;> simp_all [WalkerWork.isRescanRead]

theorem takenWriteDoneEffect_idle {c : Chain} (h : (s.walker c).work.isTakenWrite = false) (ok : Bool) :
    takenWriteDoneEffect c ok s = s := by
  unfold takenWriteDoneEffect
  split <;> simp_all [WalkerWork.isTakenWrite]

theorem fetchFailWriteDoneEffect_idle {c : Chain} (h : (s.walker c).work.isRetiring = false) (last ok : Bool) :
    fetchFailWriteDoneEffect c last ok s = s := by
  unfold fetchFailWriteDoneEffect
  split <;> simp_all [WalkerWork.isRetiring]

theorem resultWriteDoneEffect_idle {i : SlotNum} (h : s.retiresAt i .results = false) (last ok : Bool) :
    resultWriteDoneEffect i last ok s = s := by
  unfold resultWriteDoneEffect
  split
  · rfl
  · split
    · split
      · simp_all [State.retiresAt]
      · rfl
    · rfl

theorem stateWordWriteDoneEffect_idle {i : SlotNum} (h : s.retiresAt i .stateWord = false) (ok : Bool) :
    stateWordWriteDoneEffect i ok s = s := by
  unfold stateWordWriteDoneEffect
  split
  · rfl
  · split
    · split
      · rfl
      · simp_all [State.retiresAt]
    · rfl

theorem stagingReadDoneEffect_idle {i : SlotNum} {t : TileNum} (h : s.readStopped i t = false)
    (hst : s.staging i t = false) (r : ReadResult) : stagingReadDoneEffect i t r s = s := by
  rw [stagingReadDoneEffect, if_neg (by simp [h]), State.stagingReadEnds]
  split
  · next st q hst' hq =>
    rw [if_neg]
    simpa [State.staging, hst', hq] using hst
  · rfl

theorem destinationWriteDoneEffect_idle {p : PortId} {g : Tag} (h : (s.port p).cutWriting g = false)
    (hw : (s.port p).writingEntry g = none) (ok : Bool) : destinationWriteDoneEffect p g ok s = s := by
  simp [destinationWriteDoneEffect, h, hw]

theorem packetIssueEffect_idle {p : PortId}
    (h : (s.txFree p && (s.arbiterPick p).isSome && (s.port p).freeTag.isSome) = false) : packetIssueEffect p s = s := by
  unfold packetIssueEffect
  split
  · split <;> simp_all
  · rfl

theorem syncPulseExpiryEffect_idle {o : Line} (h : s.syncLevel o = false) : syncPulseExpiryEffect o s = s := by
  cases o
  · exact (congrArg (fun b => { s with sync0 := b }) h.symm :)
  · exact (congrArg (fun b => { s with sync1 := b }) h.symm :)

theorem pauseExpiryEffect_idle {i : SlotNum} (h : reachedOpt s.now ((s.job i).bind Job.pauseDue) = false) :
    pauseExpiryEffect i s = s := by
  unfold pauseExpiryEffect
  split
  · rfl
  · next j hj => rw [if_neg (by simpa [hj] using h)]

theorem jobDrainedEffect_idle {i : SlotNum} (h : s.drainedOut i = false) : jobDrainedEffect i s = s := by
  unfold jobDrainedEffect
  split
  · rfl
  · next j hj => rw [if_neg (by simpa [State.drainedOut, hj] using h)]

theorem statusWriteDoneEffect_idle {t : TileNum} (h : (s.record t).rewrite = none) (ok : Bool) :
    statusWriteDoneEffect t ok s = s := by
  simp [statusWriteDoneEffect, h]

theorem slotOfferEffect_idle {i : SlotNum} (h : s.offerTaker i = none) : slotOfferEffect i s = s := by
  simp [slotOfferEffect, h]

theorem probeDeadlineExpiryEffect_idle {p : PortId} (h : (s.port p).inFlight.any (fun e =>
    decide (e.owner = .enumeration) && reachedOpt s.now e.deadline) = false) : probeDeadlineExpiryEffect p s = s := by
  unfold probeDeadlineExpiryEffect
  rw [List.find?_eq_none.2 (by simpa using h)]

theorem replyDeadlineExpiryEffect_idle {p : PortId} {g : Tag} (h : (s.port p).inFlight.any (fun e =>
    decide (e.tag = g) && e.isWaiting && decide (e.kind ≠ .probe) && reachedOpt s.now e.deadline) = false) :
    replyDeadlineExpiryEffect p g s = s := by
  unfold replyDeadlineExpiryEffect
  rw [List.find?_eq_none.2 (by simpa using h)]

theorem unknownCommandEffect_idle {code : Word} (h : commandOfCode code ≠ .unknownCommand code) :
    unknownCommandEffect code s = s := by
  unfold unknownCommandEffect
  split
  · next v hv =>
    have : v = code := by
      unfold commandOfCode at hv
      split at hv <;> cases hv
      rfl
    exact absurd (this ▸ hv) h
  · rfl
end

/-- Where nothing holds it back, a command without its occasion has no effect. -/
theorem effectOf_idle {c : Instr} {s : State} (hact : actsInReset c = true ∨ s.resetLow = false)
    (h : occasion c s = false) : effectOf c s = s := by
  cases c
  case hardReset => cases h
  case tilechgRead => cases h
  case resetNRelease => simp only [occasion] at h; simp [effectOf, resetNReleaseEffect, h]
  case trigPinChange i l => simp only [occasion, decide_eq_false_iff_not, not_not] at h; exact if_pos h
  all_goals
    replace hact := hact.resolve_left nofun
    simp only [occasion, hact, Bool.not_false, Bool.true_and, Bool.or_eq_false_iff] at h
    simp only [effectOf]
  case unknownCommand code => exact unknownCommandEffect_idle (by simpa using h)
  case registerWriteIgnored off len => exact if_neg (by simpa using h)
  case trigFilterExpiry i => simp [trigFilterExpiryEffect, h]
  case syncPulseExpiry o => exact syncPulseExpiryEffect_idle h
  case receiverLock p => exact receiverLockEffect_idle h
  case tileLock p => exact tileLockEffect_idle h
  case hardError p => exact hardErrorEffect_idle h
  case ackReceived p d g st => simp [ackReceivedEffect, h]
  case dataReceived p d g ws => simp [dataReceivedEffect, h]
  case faultNotice p d code => rw [faultNoticeEffect, h]; rfl
  case frameNotice p d => rw [frameNoticeEffect, h]; rfl
  case linkErrorPacket p bs => simp [linkErrorPacketEffect, h]
  case transmissionEnd p => exact if_pos (by simpa using h)
  case attemptTimerExpiry p => exact if_neg (by simpa using h)
  case chainResetWaitExpiry p => exact if_neg (by simpa using h)
  case probeDeadlineExpiry p => exact probeDeadlineExpiryEffect_idle h
  case replyDeadlineExpiry p g => exact replyDeadlineExpiryEffect_idle h
  case settleTimerExpiry t => exact if_neg (by simpa [and_assoc] using h)
  case restTimerExpiry t => exact if_neg (by simpa [and_assoc] using h)
  case pollTimerExpiry c => exact if_neg (by simpa using h)
  case waitTimeout i => rw [waitTimeoutEffect, h]; rfl
  case pauseExpiry i => exact pauseExpiryEffect_idle h
  case wakeHistoryAgeOut => exact wakeHistoryAgeOutEffect_idle h
  case sleepGateOpen t => exact if_neg (by simpa using h)
  case readyGateOpen t => rw [readyGateOpenEffect, h]; rfl
  case controlBlockReadDone r => simp [controlBlockReadDoneEffect, h]
  case statusWriteDone t ok => exact statusWriteDoneEffect_idle (by simpa using h.2) ok
  case statusRewriteStart t => simp only [statusRewriteStartEffect]; rw [h]; rfl
  case headerReadDone c r => exact headerReadDoneEffect_idle h.2 r
  case stepReadDone c r => exact stepReadDoneEffect_idle h.2 r
  case rescanReadDone c r => exact rescanReadDoneEffect_idle h.2 r
  case takenWriteDone c ok => exact takenWriteDoneEffect_idle h.2 ok
  case fetchFailWriteDone c last ok => exact fetchFailWriteDoneEffect_idle h.2 last ok
  case resultWriteDone i last ok => exact resultWriteDoneEffect_idle h.2 last ok
  case stateWordWriteDone i ok => exact stateWordWriteDoneEffect_idle h.2 ok
  case stagingReadDone i t r => exact stagingReadDoneEffect_idle h.2.1 h.2.2 r
  case destinationWriteDone p g ok => exact destinationWriteDoneEffect_idle h.2.1 (by simpa using h.2.2) ok
  case packetIssue p => exact packetIssueEffect_idle h
  case jobAdmission i => simp [jobAdmissionEffect, h]
  case slotOffer i => exact slotOfferEffect_idle (by simpa using h)
  case jobDrained i => exact jobDrainedEffect_idle h
  case rescanPending c => exact if_neg (by simpa [and_assoc] using h)
  case resumeDeferred c => exact if_neg (by simpa [and_assoc] using h)
  case engineEntersRunning => exact if_neg (by simpa [and_assoc] using h)
  case engineStopped => exact if_neg (by simpa using h)
  all_goals cases h

/-- An access of the row's kind that has no use any more is an occasion. -/
theorem accessCut_of_no_occasion {c : Instr} {s : State} (h : occasion c s = false) {a : AccessId}
    (ha : accessEnded c = some a) : s.accessCut a = false := by
  cases c <;> cases ha <;> exact (Bool.or_eq_false_iff.1 h).1

/-- Settles O3: what holds the effect back changes nothing, and the effect asks for the occasion. -/
theorem noOccasionNoChange : Obligations.NoOccasionNoChange := by
  unfold Obligations.NoOccasionNoChange
  intro c s h
  rw [exec_eq]
  split
  · next a ha =>
    have hact : actsInReset c = false := by cases c <;> first | rfl | cases ha
    cases hlow : s.resetLow
    · rw [endOfAccess_of_live hlow (accessCut_of_no_occasion h ha), effectOf_idle (.inr hlow) h]
    · simp [endOfAccess, outOfReset, accessCut_of_no_occasion h ha, hlow]
  · split
    · next hact => rw [effectOf_idle (.inl hact) h]
    · cases hlow : s.resetLow
      · rw [outOfReset_of_high hlow, effectOf_idle (.inr hlow) h]
      · simp [outOfReset, hlow]

end Sys2Proof.Machine
end

section
/-! Resets (R178), what a low RESET_N holds back, the registers (R169, R176, 12.7), refused commands (R170), and the gates
that an interval leaves open (R74, R76, R95). -/

namespace Sys2Proof.Machine

/-! ## Resets -/

/-- Settles O8: nothing is in flight and nothing was granted before the first command. -/
theorem invariantsHoldAtReset : Obligations.InvariantsHoldAtReset := by
  unfold Obligations.InvariantsHoldAtReset
  refine ⟨Nat.zero_le _, fun _ => rfl, fun p => ?_⟩
  have hempty : (State.reset.port p).inFlight = [] := by cases p <;> rfl
  simp [hempty]

@[simp] theorem State.tile_reset (x : TileNum) : State.reset.tile x = TileEntry.reset := by
  simp [State.tile, State.reset]

@[simp] theorem State.slot_reset (i : SlotNum) : State.reset.slot i = .free := by
  simp [State.slot, State.reset]

@[simp] theorem State.job_reset (i : SlotNum) : State.reset.job i = none := by simp [State.job, Slot.job?]

@[simp] theorem State.port_reset (p : PortId) : State.reset.port p = Port.reset := by cases p <;> rfl

@[simp] theorem State.walker_reset (c : Chain) : State.reset.walker c = Walker.reset := by cases c <;> rfl

/-- With no job in any slot the wake waiting list is empty. -/
theorem State.wakeList_reset : State.reset.wakeList = [] := by
  have hcand : ∀ i t, State.reset.wakeCandidate i t = false := fun i t => by simp [State.wakeCandidate]
  have howner : ∀ t, State.reset.wakeOwner t = none := fun t => by simp [State.wakeOwner, hcand]
  have hnil : ∀ l : List TileNum, l.foldr (fun _ (w : List WakeEntry) => w) [] = [] := fun l => by
    induction l with
    | nil => rfl
    | cons t l ih => exact ih
  simpa only [State.wakeList, howner] using hnil allTiles

/-- Settles O9: part by part, from the reset values of a walker, a slot, a tile, a port and the settings. -/
theorem resetState : Obligations.ResetState := by
  unfold Obligations.ResetState
  refine ⟨rfl, rfl, rfl, rfl, rfl, rfl, rfl, rfl, fun c => ?walker, State.slot_reset, fun x => ?tile, fun p => ?port, rfl,
    State.wakeList_reset, rfl, rfl, rfl, rfl, rfl, rfl, rfl, rfl, rfl, rfl, rfl, rfl, rfl, rfl, rfl, rfl, rfl, rfl,
    fun a => ?aperture⟩
  case walker => rw [State.walker_reset]; exact ⟨rfl, rfl, rfl, rfl, rfl, rfl⟩
  case tile => rw [State.tile_reset]; repeat' constructor
  case port => rw [State.port_reset]; exact ⟨rfl, rfl, rfl, rfl, rfl, rfl⟩
  case aperture => simp [State.reset, Settings.reset]

/-- The access whose end a command is comes back without effect when it was cut, in and out of reset. -/
theorem exec_of_accessCut {c : Instr} {a : AccessId} (ha : accessEnded c = some a) {s : State} (h : s.accessCut a = true) :
    exec c s = .next (s.dropCut a) := by
  rw [exec_eq, ha]
  exact if_pos h

/-- Settles O10: both resets are `afterReset`, which keeps the accesses under way. -/
theorem bothResets : Obligations.BothResets := by
  unfold Obligations.BothResets
  intro s
  refine ⟨fun hlow => ?soft, ?hard, fun hlow => ?release, fun c t hc ht => ?accesses, fun c a ha hcut => ?cut⟩
  case soft =>
    rw [exec_of_high hlow rfl]
    simp [effectOf, resetEffect, State.afterReset, TrigFilter.afterReset, State.reset, hlow]
  case hard =>
    simp [exec, execHardReset, hardResetEffect, State.afterReset, State.reset]
  case release => simp [exec, execResetNRelease, resetNReleaseEffect, hlow, TrigFilter.afterReset]
  case accesses =>
    rcases hc with ⟨rfl, hlow⟩ | rfl
    · rw [exec_of_high hlow rfl] at ht
      cases ht
      exact s.accesses_afterReset
    · cases ht
      have hown : (hardResetEffect s).ownAccesses = s.afterReset.ownAccesses := rfl
      unfold State.accesses
      rw [hown, s.ownAccesses_afterReset, List.append_nil]
      rfl
  case cut => exact exec_of_accessCut ha (State.accessCut_iff.2 hcut)

/-- A command that does not act in reset is held back, but for the end of an access that was cut. -/
theorem exec_of_low {c : Instr} {s : State} (hlow : s.resetLow = true) (hact : actsInReset c = false)
    (hcut : ∀ a, accessEnded c = some a → s.accessCut a = false) : exec c s = .next s := by
  rw [exec_eq]
  split
  · next a ha => simp [endOfAccess, outOfReset, hlow, hcut a ha]
  · simp [hact, outOfReset, hlow]

/-- Settles O11: what is held back, and what the two reads give. -/
theorem heldInReset : Obligations.HeldInReset := by
  unfold Obligations.HeldInReset
  intro s hlow
  refine ⟨fun c hc hcut => exec_of_low hlow ?_ hcut, fun off len => ?_, fun off len => ?_⟩
  · cases c <;> first | rfl | exact hc.elim
  · simp [State.readRegister, hlow]
  · simp [exec, execTilechgRead, tilechgReadEffect, hlow]

/-! ## Registers -/

theorem EngineState.code_le (e : EngineState) : e.code < 8 := by cases e <;> simp [EngineState.code]
theorem EngineFault.code_le (f : EngineFault) : f.code < 8 := by cases f <;> decide
theorem WalkerState.code_le (w : WalkerState) : w.code < 8 := by cases w <;> decide
theorem HaltCause.code_le (k : HaltCause) : k.code < 8 := by cases k <;> decide
theorem PortState.code_le (v : PortState) : v.code < 8 := by cases v <;> decide

/-- The bits a notice set shows are its members. -/
theorem NoticeSet.getLsbD_toWord (n : NoticeSet) : n.toWord.getLsbD 0 = n.job ∧ n.toWord.getLsbD 1 = n.chain ∧
    n.toWord.getLsbD 2 = n.tile ∧ n.toWord.getLsbD 3 = n.port ∧ n.toWord.getLsbD 4 = n.engine ∧
    n.toWord.getLsbD 5 = n.refused ∧ n.toWord.getLsbD 6 = n.linkErr := by
  obtain ⟨b0, b1, b2, b3, b4, b5, b6⟩ := n
  revert b0 b1 b2 b3 b4 b5 b6
  decide

theorem NoticeSet.getLsbD_toWord_spare (n : NoticeSet) (k : Nat) (h : 7 ≤ k) : n.toWord.getLsbD k = false := by
  have hlt : n.toWord.toNat < 2 ^ 7 := by
    obtain ⟨b0, b1, b2, b3, b4, b5, b6⟩ := n
    revert b0 b1 b2 b3 b4 b5 b6
    decide
  exact Nat.testBit_lt_two_pow (hlt.trans_le (Nat.pow_le_pow_right (by decide) h))

/-- IRQ is high when a notice is pending and enabled: a bit set in both words is one of bits 0 to 6. -/
theorem State.irq_iff (s : State) : s.irq = true ↔ s.notice.toWord &&& s.noticeEn.toWord ≠ 0 := by
  obtain ⟨n0, n1, n2, n3, n4, n5, n6⟩ := s.notice.getLsbD_toWord
  obtain ⟨e0, e1, e2, e3, e4, e5, e6⟩ := s.noticeEn.getLsbD_toWord
  have hzero : s.notice.toWord &&& s.noticeEn.toWord = 0 ↔
      ∀ k, k < 7 → (s.notice.toWord.getLsbD k && s.noticeEn.toWord.getLsbD k) = false := by
    constructor
    · intro h k _
      rw [← BitVec.getLsbD_and, h]
      exact BitVec.getLsbD_zero
    · intro h
      refine BitVec.eq_of_getLsbD_eq fun k _ => ?_
      rw [BitVec.getLsbD_and]
      by_cases hk : k < 7
      · rw [h k hk]
        exact BitVec.getLsbD_zero.symm
      · rw [s.notice.getLsbD_toWord_spare k (by omega)]
        exact BitVec.getLsbD_zero.symm
  have hall : (∀ k, k < 7 → (s.notice.toWord.getLsbD k && s.noticeEn.toWord.getLsbD k) = false) ↔ s.irq = false := by
    simp only [State.irq, Bool.or_eq_false_iff, ← n0, ← n1, ← n2, ← n3, ← n4, ← n5, ← n6, ← e0, ← e1, ← e2, ← e3, ← e4,
      ← e5, ← e6]
    constructor
    · intro h
      exact ⟨⟨⟨⟨⟨⟨h 0 (by decide), h 1 (by decide)⟩, h 2 (by decide)⟩, h 3 (by decide)⟩, h 4 (by decide)⟩,
        h 5 (by decide)⟩, h 6 (by decide)⟩
    · rintro ⟨⟨⟨⟨⟨⟨h0, h1⟩, h2⟩, h3⟩, h4⟩, h5⟩, h6⟩ k hk
      interval_cases k <;> assumption
  rw [Ne, hzero, hall, Bool.not_eq_false]

/-- ENGSTATE as a number: no field runs into the next. -/
theorem State.toNat_engstateWord (s : State) : s.engstateWord.toNat =
    s.engine.code + 2 ^ 3 * s.fault.code + 2 ^ 8 * s.walkerN.state.code + 2 ^ 11 * s.walkerN.cause.code +
      2 ^ 16 * s.walkerP.state.code + 2 ^ 19 * s.walkerP.cause.code + 2 ^ 24 * s.portA.state.code +
      2 ^ 28 * s.portB.state.code := by
  have he := s.engine.code_le
  have hf := s.fault.code_le
  have hns := s.walkerN.state.code_le
  have hnc := s.walkerN.cause.code_le
  have hps := s.walkerP.state.code_le
  have hpc := s.walkerP.cause.code_le
  have ha := s.portA.state.code_le
  have hb := s.portB.state.code_le
  rw [State.engstateWord, BitVec.toNat_ofNat, Nat.mod_eq_of_lt (by omega)]

/-- Settles O13: each register's word is its offset's, and the three writable registers take the bits written. -/
theorem registersReadAndWritten : Obligations.RegistersReadAndWritten := by
  unfold Obligations.RegistersReadAndWritten
  refine ⟨fun s => ?_, fun v s hlow => ⟨fun h => ?_, ?_, ?_, s.irq_iff⟩⟩
  · refine ⟨rfl, rfl, rfl, rfl, rfl, rfl, rfl, rfl, rfl, ?_⟩
    rw [s.toNat_engstateWord]
    have he := s.engine.code_le
    have hf := s.fault.code_le
    have hns := s.walkerN.state.code_le
    have hnc := s.walkerN.cause.code_le
    have hps := s.walkerP.state.code_le
    have hpc := s.walkerP.cause.code_le
    have ha := s.portA.state.code_le
    have hb := s.portB.state.code_le
    refine ⟨?_, ?_, ?_, ?_, ?_, ?_, ?_, ?_, ?_, ?_, ?_, ?_, ?_⟩ <;> omega
  · rw [exec_of_high hlow rfl]
    simp [effectOf, cbaddrWriteEffect, h]
  · rw [exec_of_high hlow rfl]
    rfl
  · rw [exec_of_high hlow rfl]
    rfl

/-! ## Refused commands (R169, R170, R182) -/

/-- The codes of COMMAND are the ten of 12.7: a code is unknown exactly when it is none of them. -/
theorem commandOfCode_unknown_iff (code : Word) :
    commandOfCode code = .unknownCommand code ↔ knownCodes.contains code = false := by
  have hmem : knownCodes.contains code = true ↔ code.toNat ∈ knownCodes.map BitVec.toNat := by
    rw [List.contains_iff_mem, List.mem_map_of_injective (fun _ _ h => BitVec.eq_of_toNat_eq h)]
  have hcodes : knownCodes.map BitVec.toNat = [0x01, 0x02, 0x03, 0x04, 0x10, 0x11, 0x12, 0x13, 0x14, 0x15] := by decide
  rw [← Bool.not_eq_true, hmem, hcodes]
  unfold commandOfCode
  split <;> simp_all

/-- A refused command's effect is REFUSED alone. -/
theorem effectOf_refused {c : Instr} {s : State} (h : commandRefused c s.engine = true) : effectOf c s = s.refuse := by
  have hrunning (h : decide (s.engine ≠ .running) = true) : s.inRunning = false := by
    simpa [State.inRunning] using h
  have hoff (h : (!s.engine.isOffOrHalted) = true) : ¬ s.engine.isOffOrHalted = true := by simpa using h
  cases c
  case start => exact if_neg (hoff h)
  case stop =>
    have hstop : ¬ s.engine.isStartingOrRunning = true := by
      have h : (!s.engine.isStartingOrRunning) = true := h
      simpa using h
    exact if_neg hstop
  case enumerate => exact if_neg (hoff h)
  case rescanN => simp [effectOf, rescanNEffect, State.rescan, hrunning h]
  case rescanP => simp [effectOf, rescanPEffect, State.rescan, hrunning h]
  case resumeN => simp [effectOf, resumeNEffect, State.resume, hrunning h]
  case resumeP => simp [effectOf, resumePEffect, State.resume, hrunning h]
  case abortN => simp [effectOf, abortNEffect, State.abortCommand, hrunning h]
  case abortP => simp [effectOf, abortPEffect, State.abortCommand, hrunning h]
  case cbaddrWrite v => exact if_neg (hoff h)
  case unknownCommand code =>
    have h : (!knownCodes.contains code) = true := h
    have hcode := (commandOfCode_unknown_iff code).2 (by simpa using h)
    simp [effectOf, unknownCommandEffect, hcode]
  case registerWriteIgnored off len =>
    have h : (decide (len ≠ 4) && decide (off < 8)) = true := h
    exact if_pos (by simpa using h)
  all_goals cases h

/-- Settles O14: a refused command acts out of reset, and its effect is the notice. -/
theorem refusedCommandsChangeNothingElse : Obligations.RefusedCommandsChangeNothingElse := by
  unfold Obligations.RefusedCommandsChangeNothingElse
  intro c s hlow h
  have hend : accessEnded c = none := by cases c <;> first | rfl | cases h
  rw [exec_of_high hlow hend, effectOf_refused h]
  rfl

/-! ## Gates -/

/-- Settles O38: the gate rows set the marks of the intervals that have passed, and a gate reads its mark. -/
theorem gatesOpen : Obligations.GatesOpen := by
  unfold Obligations.GatesOpen
  intro s x hlow
  refine ⟨fun h => ?_, fun due hdue hreached => ?_, fun h => ?_, fun h => ?_, fun h hdue => ?_⟩
  · rw [exec_of_high hlow rfl]
    exact congrArg Host.Outcome.next (if_pos (by simpa using h))
  · rw [exec_of_high hlow rfl]
    exact congrArg Host.Outcome.next (if_pos (by simpa [reachedOpt, hdue] using hreached))
  · unfold State.minAwakeGate
    dsimp only
    split <;> simp [h]
  · unfold State.holdGate
    dsimp only
    split <;> simp [h]
  · unfold State.readyGate
    dsimp only
    split
    · next hnone => exact absurd hnone hdue
    · simp [h]

end Sys2Proof.Machine
end

section
/-! What the walkers' and the jobs' work leaves: everything but walkers, jobs, the work on tiles, and notices. With it, where
engine and fault stand after each command (R171 to R174). -/

namespace Sys2Proof.Machine

/-- The state without walkers, jobs and what they change by themselves. -/
def State.fixed (s : State) : State :=
  { s.eraseJobs with walkerN := Walker.reset, walkerP := Walker.reset, notice := NoticeSet.clear, nextOrder := 0,
                     cutAccesses := [] }

section
variable {s t : State}
theorem State.engine_of_fixed (h : t.fixed = s.fixed) : t.engine = s.engine := (congrArg State.engine h :)
theorem State.fault_of_fixed (h : t.fixed = s.fixed) : t.fault = s.fault := (congrArg State.fault h :)
theorem State.settings_of_fixed (h : t.fixed = s.fixed) : t.settings = s.settings := (congrArg State.settings h :)
theorem State.now_of_fixed (h : t.fixed = s.fixed) : t.now = s.now := (congrArg State.now h :)
theorem State.records_of_fixed (h : t.fixed = s.fixed) : t.records = s.records := (congrArg State.records h :)
theorem State.portA_of_fixed (h : t.fixed = s.fixed) : t.portA = s.portA := (congrArg State.portA h :)
theorem State.portB_of_fixed (h : t.fixed = s.fixed) : t.portB = s.portB := (congrArg State.portB h :)
theorem State.port_of_fixed (h : t.fixed = s.fixed) (p : PortId) : t.port p = s.port p := by
  cases p
  · exact State.portA_of_fixed h
  · exact State.portB_of_fixed h
theorem State.fatal_of_fixed (h : t.fixed = s.fixed) : t.fatal = s.fatal := by
  unfold State.fatal
  rw [State.engine_of_fixed h, State.fault_of_fixed h]
theorem State.inRunning_of_fixed (h : t.fixed = s.fixed) : t.inRunning = s.inRunning := by
  unfold State.inRunning
  rw [State.engine_of_fixed h]
end

theorem JobFrame.fixed {s t : State} (h : JobFrame s t) : t.fixed = s.fixed := (congrArg State.fixed h.rest :)

section
variable (s : State)

@[simp] theorem State.fixed_modWalker (c : Chain) (f : Walker → Walker) : (s.modWalker c f).fixed = s.fixed := by
  cases c <;> rfl
@[simp] theorem State.fixed_modTile (t : TileNum) (f : TileEntry → TileEntry) : (s.modTile t f).fixed = s.fixed := rfl
@[simp] theorem State.fixed_setSlot (i : SlotNum) (v : Slot) : (s.setSlot i v).fixed = s.fixed := rfl
@[simp] theorem State.fixed_modJob (i : SlotNum) (f : Job → Job) : (s.modJob i f).fixed = s.fixed := by
  unfold State.modJob
  split <;> rfl
@[simp] theorem State.fixed_raise (n : Notice) : (s.raise n).fixed = s.fixed := rfl
@[simp] theorem State.fixed_dropWait (i : SlotNum) : (s.dropWait i).fixed = s.fixed := rfl
@[simp] theorem State.fixed_idleWalkers : s.idleWalkers.fixed = s.fixed := rfl
@[simp] theorem State.fixed_cutWalkerAccess (c : Chain) : (s.cutWalkerAccess c).fixed = s.fixed := rfl

@[simp] theorem State.fixed_enterDraining (i : SlotNum) : (s.enterDraining i).fixed = s.fixed := by
  simp [State.enterDraining]

@[simp] theorem State.fixed_enterRetiring (i : SlotNum) (k : RetireCause) : (s.enterRetiring i k).fixed = s.fixed := by
  unfold State.enterRetiring
  repeat' split
  all_goals rfl

@[simp] theorem State.fixed_abortJob (i : SlotNum) : (s.abortJob i).fixed = s.fixed := by
  unfold State.abortJob
  repeat' split
  all_goals simp

@[simp] theorem State.fixed_skipQueued (c : Chain) : (s.skipQueued c).fixed = s.fixed := by
  refine foldl_keeps State.fixed (fun s i => ?_) _ s
  repeat' split
  all_goals simp

@[simp] theorem State.fixed_abortAll : s.abortAll.fixed = s.fixed := foldl_keeps State.fixed State.fixed_abortJob _ s

@[simp] theorem State.fixed_abortChain (c : Chain) : (s.abortChain c).fixed = s.fixed := by
  refine foldl_keeps State.fixed (fun s i => ?_) _ s
  repeat' split
  all_goals simp

@[simp] theorem State.fixed_disarmAll : s.disarmAll.fixed = s.fixed :=
  foldl_keeps State.fixed (fun s t => s.fixed_modTile t _) _ s

@[simp] theorem State.fixed_admitJob (i : SlotNum) : (s.admitJob i).fixed = s.fixed := by
  rw [State.admitJob, (State.stepCurrent_frame _ i).fixed, State.fixed_modJob]

@[simp] theorem State.fixed_enterSlot (c : Chain) (d : Fetched) (i : SlotNum) : (s.enterSlot c d i).fixed = s.fixed := rfl

@[simp] theorem State.fixed_haltWalker (c : Chain) (k : HaltCause) : (s.haltWalker c k).fixed = s.fixed := by
  unfold State.haltWalker
  dsimp only
  repeat' split
  all_goals simp

@[simp] theorem State.fixed_parkWalker (c : Chain) : (s.parkWalker c).fixed = s.fixed := by simp [State.parkWalker]
@[simp] theorem State.fixed_endWork (c : Chain) : (s.endWork c).fixed = s.fixed := by simp [State.endWork]

@[simp] theorem State.fixed_beginFetch (c : Chain) (a : Word) : (s.beginFetch c a).fixed = s.fixed := by
  unfold State.beginFetch
  split <;> simp

@[simp] theorem State.fixed_followLink (c : Chain) (a : Word) : (s.followLink c a).fixed = s.fixed := by
  unfold State.followLink
  split <;> simp

@[simp] theorem State.fixed_failAtFetch (c : Chain) (a : Word) (h : List Byte) (k : ErrorCode) (n : Nat) :
    (s.failAtFetch c a h k n).fixed = s.fixed := by simp [State.failAtFetch]

@[simp] theorem State.fixed_check4 (c : Chain) (a : Word) (h : List Byte) : (s.check4 c a h).fixed = s.fixed := by
  unfold State.check4
  split <;> simp

@[simp] theorem State.fixed_fetchHeader (c : Chain) (a : Word) (r : ReadResult) :
    (s.fetchHeader c a r).fixed = s.fixed := by
  unfold State.fetchHeader
  repeat' split
  all_goals simp

@[simp] theorem State.fixed_rescanHeader (c : Chain) (a : Word) (r : ReadResult) :
    (s.rescanHeader c a r).fixed = s.fixed := by
  unfold State.rescanHeader
  repeat' split
  all_goals simp

@[simp] theorem State.fixed_claim (c : Chain) (d : Fetched) (i : SlotNum) : (s.claim c d i).fixed = s.fixed := by
  simp [State.claim]

@[simp] theorem State.fixed_fetchPassed (c : Chain) (d : Fetched) : (s.fetchPassed c d).fixed = s.fixed := by
  unfold State.fetchPassed
  dsimp only
  repeat' split
  all_goals simp

@[simp] theorem State.fixed_fetchSteps (c : Chain) (a : Word) (h : List Byte) (r : ReadResult) :
    (s.fetchSteps c a h r).fixed = s.fixed := by
  unfold State.fetchSteps
  repeat' split
  all_goals simp

@[simp] theorem State.fixed_taken (c : Chain) (d : Fetched) (i : SlotNum) : (s.taken c d i).fixed = s.fixed := by
  unfold State.taken
  dsimp only
  repeat' split
  all_goals simp

@[simp] theorem State.fixed_directlyRetired (c : Chain) (d : DirectRetire) : (s.directlyRetired c d).fixed = s.fixed := by
  unfold State.directlyRetired
  dsimp only
  repeat' split
  all_goals simp

@[simp] theorem State.fixed_beginRescan (c : Chain) : (s.beginRescan c).fixed = s.fixed := by simp [State.beginRescan]

@[simp] theorem State.fixed_rescanCause (c : Chain) : (s.rescanCause c).fixed = s.fixed := by
  unfold State.rescanCause
  dsimp only
  repeat' split
  all_goals simp

@[simp] theorem State.fixed_rescanValue (c : Chain) (r : ReadResult) : (s.rescanValue c r).fixed = s.fixed := by
  unfold State.rescanValue
  dsimp only
  repeat' split
  all_goals simp

@[simp] theorem State.fixed_resumeWalker (c : Chain) : (s.resumeWalker c).fixed = s.fixed := by simp [State.resumeWalker]

@[simp] theorem State.fixed_offerSlot (i : SlotNum) : (s.offerSlot i).fixed = s.fixed := by
  unfold State.offerSlot
  dsimp only
  repeat' split
  all_goals simp

@[simp] theorem State.fixed_retired (i : SlotNum) (j : Job) (r : Retirement) : (s.retired i j r).fixed = s.fixed := by
  unfold State.retired
  dsimp only
  repeat' split
  all_goals simp

@[simp] theorem State.fixed_startWalker (c : Chain) (a : Word) : (s.startWalker c a).fixed = s.fixed := by
  simp [State.startWalker]

/-- Entering STOPPING changes the engine's state alone, besides walkers and jobs (R173). -/
theorem State.fixed_enterStopping : s.enterStopping.fixed = ({ s with engine := .stopping } : State).fixed := by
  simp [State.enterStopping]

end

/-! ## Engine and fault -/

/-- No fault is recorded while the engine is STARTING or RUNNING. -/
def State.FaultSound (s : State) : Prop := s.engine.isStartingOrRunning = true → s.fault = .none

section
variable {s t : State}

theorem State.faultSound_of_eq (he : t.engine = s.engine) (hf : t.fault = s.fault) (h : s.FaultSound) : t.FaultSound := by
  unfold State.FaultSound
  rw [he, hf]
  exact h

theorem State.faultSound_of_body (hb : t.body = s.body) (h : s.FaultSound) : t.FaultSound :=
  State.faultSound_of_eq (State.engine_of_body hb) (State.fault_of_body hb) h

theorem State.faultSound_of_fixed (hb : t.fixed = s.fixed) (h : s.FaultSound) : t.FaultSound :=
  State.faultSound_of_eq (State.engine_of_fixed hb) (State.fault_of_fixed hb) h

theorem State.faultSound_finish (before : State) (h : s.FaultSound) : (finish before s).FaultSound :=
  State.faultSound_of_body (State.body_finish before s) h

theorem State.faultSound_of_not_starting (h : s.engine.isStartingOrRunning = false) : s.FaultSound := by
  intro h'
  rw [h] at h'
  cases h'

/-- What a fatal fault makes of the engine (R172, R174). -/
theorem State.fatalFault_mode (s : State) (f : EngineFault) :
    (s.fault = .none ∧ (s.engine = .running ∨ s.engine = .stopping) ∧
      (s.fatalFault f).engine = .stopping ∧ (s.fatalFault f).fault = f) ∨
    (¬ (s.fault = .none ∧ (s.engine = .running ∨ s.engine = .stopping)) ∧ s.fatalFault f = s) := by
  unfold State.fatalFault
  split
  · next h =>
    refine .inl ⟨h.1, h.2, ?_⟩
    dsimp only
    have hb := foldl_keeps State.body State.body_faultRecord allTiles
      (if s.engine = .running then (({ s with fault := f } : State).raise .engine).enterStopping
        else ({ s with fault := f } : State).raise .engine)
    rw [State.engine_of_body hb, State.fault_of_body hb]
    split
    · have hx := State.fixed_enterStopping (({ s with fault := f } : State).raise .engine)
      exact ⟨State.engine_of_fixed hx, State.fault_of_fixed hx⟩
    · next hr => exact ⟨h.2.resolve_left hr, rfl⟩
  · next h => exact .inr ⟨h, rfl⟩

theorem State.faultSound_fatalFault (f : EngineFault) (h : s.FaultSound) : (s.fatalFault f).FaultSound := by
  rcases s.fatalFault_mode f with ⟨-, -, he, -⟩ | ⟨-, hs⟩
  · exact State.faultSound_of_not_starting (by rw [he]; rfl)
  · rwa [hs]

theorem State.faultSound_startFails (f : EngineFault) : (s.startFails f).FaultSound :=
  State.faultSound_of_not_starting (by rw [State.engine_startFails]; rfl)

theorem State.faultSound_enterStopping : s.enterStopping.FaultSound :=
  State.faultSound_of_not_starting (by rw [State.engine_of_fixed s.fixed_enterStopping]; rfl)

@[simp] theorem State.fault_takeSettings (st : Settings) : (s.takeSettings st).fault = s.fault := by
  unfold State.takeSettings
  rw [State.fault_of_body (State.body_markAllRecords _)]
  dsimp only
  rw [State.fault_of_body (State.body_latchGates _)]

theorem State.faultSound_takeSettings (st : Settings) (hf : s.fault = .none) : (s.takeSettings st).FaultSound :=
  fun _ => (State.fault_takeSettings st).trans hf

theorem State.faultSound_portsPhaseIfDone (h : s.FaultSound) : s.portsPhaseIfDone.FaultSound := by
  unfold State.portsPhaseIfDone
  split
  · next hp =>
    have hf : s.fault = .none := h (by rw [hp.1]; rfl)
    have hb : ((({ s with engine := .starting .ports } : State).bringUp .A).bringUp .B).body =
        ({ s with engine := .starting .ports } : State).body := by rw [State.body_bringUp, State.body_bringUp]
    exact fun _ => (State.fault_of_body hb).trans hf
  · exact h

theorem State.faultSound_nextStatusWrite (x : TileNum) (w : Rewrite) (h : s.FaultSound) :
    (s.nextStatusWrite x w).FaultSound := by
  unfold State.nextStatusWrite
  split
  · exact h
  · exact h
  · exact State.faultSound_portsPhaseIfDone (State.faultSound_of_body (by simp) h)

@[simp] theorem State.engine_cutControlBlockRead (s : State) : s.cutControlBlockRead.engine = s.engine := by
  unfold State.cutControlBlockRead
  split <;> rfl

theorem State.faultSound_statusWriteFailed (x : TileNum) (w : Rewrite) (h : s.FaultSound) :
    (s.statusWriteFailed x w).FaultSound := by
  have hend : (s.endRewrite x w.joins).FaultSound := State.faultSound_of_body (by simp) h
  unfold State.statusWriteFailed
  split
  · refine State.faultSound_of_not_starting ?_
    rw [State.engine_cutControlBlockRead, State.engine_startFails]
    rfl
  · exact State.faultSound_fatalFault _ hend
  · exact State.faultSound_fatalFault _ hend
  · exact hend
  · exact hend

end

theorem faultSound_statusWriteDoneEffect (x : TileNum) (ok : Bool) {s : State} (h : s.FaultSound) :
    (statusWriteDoneEffect x ok s).FaultSound := by
  have hend (w : Rewrite) : (s.endRewrite x w.joins).FaultSound := State.faultSound_of_body (by simp) h
  unfold statusWriteDoneEffect
  split
  · exact h
  · split
    · exact hend _
    · split
      · split
        · exact hend _
        · exact State.faultSound_finish _ (State.faultSound_nextStatusWrite _ _ h)
      · exact State.faultSound_finish _ (State.faultSound_statusWriteFailed _ _ h)

theorem faultSound_controlBlockReadDoneEffect (r : ReadResult) {s : State} (h : s.FaultSound) :
    (controlBlockReadDoneEffect r s).FaultSound := by
  unfold controlBlockReadDoneEffect
  dsimp only
  split
  · split
    · next he =>
      split
      · exact State.faultSound_startFails _
      · split
        · exact State.faultSound_startFails _
        · exact State.faultSound_takeSettings _ (h (by rw [he]; rfl))
    · exact h
  · exact h

theorem faultSound_startEffect {s : State} (h : s.FaultSound) : (startEffect s).FaultSound := by
  unfold startEffect
  dsimp only
  split
  · split
    · exact State.faultSound_startFails _
    · exact fun _ => rfl
  · exact h

theorem faultSound_engineEntersRunningEffect {s : State} (h : s.FaultSound) :
    (engineEntersRunningEffect s).FaultSound := by
  unfold engineEntersRunningEffect
  dsimp only
  split
  · next he =>
    have hf : s.fault = .none := h (by rw [he.1]; rfl)
    refine State.faultSound_finish _ (fun _ => ?_)
    rw [State.fault_of_fixed (State.fixed_startWalker _ _ _), State.fault_of_fixed (State.fixed_startWalker _ _ _)]
    exact hf
  · exact h

theorem faultSound_engineStoppedEffect {s : State} (h : s.FaultSound) : (engineStoppedEffect s).FaultSound := by
  unfold engineStoppedEffect
  split
  · refine State.faultSound_of_not_starting ?_
    show EngineState.isStartingOrRunning (if s.fault = EngineFault.none then .off else .halted) = false
    split <;> rfl
  · exact h

theorem faultSound_takenWriteDoneEffect (c : Chain) (ok : Bool) {s : State} (h : s.FaultSound) :
    (takenWriteDoneEffect c ok s).FaultSound := by
  unfold takenWriteDoneEffect
  split
  · split
    · exact State.faultSound_finish _ (State.faultSound_of_fixed (by simp) h)
    · exact State.faultSound_finish _ (State.faultSound_fatalFault _ (State.faultSound_of_fixed (by simp) h))
  · exact h

theorem faultSound_fetchFailWriteDoneEffect (c : Chain) (last ok : Bool) {s : State} (h : s.FaultSound) :
    (fetchFailWriteDoneEffect c last ok s).FaultSound := by
  unfold fetchFailWriteDoneEffect
  split
  · split
    · split
      · repeat' split
        all_goals exact State.faultSound_of_fixed (by simp) h
      · exact State.faultSound_finish _ (State.faultSound_of_fixed (by simp) h)
    · exact State.faultSound_finish _ (State.faultSound_fatalFault _ (State.faultSound_of_fixed (by simp) h))
  · exact h

theorem State.faultSound_retireFailed {s : State} (i : SlotNum) (h : s.FaultSound) : (s.retireFailed i).FaultSound :=
  State.faultSound_fatalFault _ (State.faultSound_of_fixed (by simp) h)

theorem faultSound_resultWriteDoneEffect (i : SlotNum) (last ok : Bool) {s : State} (h : s.FaultSound) :
    (resultWriteDoneEffect i last ok s).FaultSound := by
  unfold resultWriteDoneEffect
  split
  · exact h
  · split
    · split
      · split
        · repeat' split
          all_goals exact State.faultSound_of_fixed (by simp) h
        · exact State.faultSound_finish _ (State.faultSound_retireFailed _ h)
      · exact h
    · exact h

theorem faultSound_stateWordWriteDoneEffect (i : SlotNum) (ok : Bool) {s : State} (h : s.FaultSound) :
    (stateWordWriteDoneEffect i ok s).FaultSound := by
  unfold stateWordWriteDoneEffect
  split
  · exact h
  · split
    · split
      · exact h
      · split
        · exact State.faultSound_finish _ (State.faultSound_of_fixed (by simp) h)
        · exact State.faultSound_finish _ (State.faultSound_retireFailed _ h)
    · exact h

/-! ## The commands that leave ports, records and engine -/

/-- The commands of the walkers and the slots that leave everything but walkers, jobs and notices, whatever their outcome. -/
def isWalkerRow : Instr → Bool
  | .rescanN | .rescanP | .resumeN | .resumeP | .pollTimerExpiry _ | .slotOffer _ | .rescanPending _
  | .resumeDeferred _ => true
  | _ => false

@[simp] theorem State.fixed_refuse (s : State) : s.refuse.fixed = s.fixed := rfl

theorem effectOf_walkerRow {c : Instr} (h : isWalkerRow c = true) (s : State) : (effectOf c s).fixed = s.fixed := by
  cases c
  case rescanN => simp only [effectOf, rescanNEffect, State.rescan]; split <;> simp
  case rescanP => simp only [effectOf, rescanPEffect, State.rescan]; split <;> simp
  case resumeN =>
    simp only [effectOf, resumeNEffect, State.resume]; repeat' split
    all_goals simp
  case resumeP =>
    simp only [effectOf, resumePEffect, State.resume]; repeat' split
    all_goals simp
  case pollTimerExpiry c => simp only [effectOf, pollTimerExpiryEffect]; split <;> simp
  case slotOffer i => simp only [effectOf, slotOfferEffect]; split <;> simp
  case rescanPending c => simp only [effectOf, rescanPendingEffect]; split <;> simp
  case resumeDeferred c => simp only [effectOf, resumeDeferredEffect]; split <;> simp
  all_goals cases h

/-- The part's own timing and the register window leave engine and fault as they were. -/
theorem faultSound_of_mode {s t : State} (h : t.engine = s.engine ∧ t.fault = s.fault) (hs : s.FaultSound) :
    t.FaultSound := State.faultSound_of_eq h.1 h.2 hs

theorem packetIssueEffect_mode (p : PortId) (s : State) :
    (packetIssueEffect p s).engine = s.engine ∧ (packetIssueEffect p s).fault = s.fault := by
  have hpresent (u : State) (c : Cand) : (u.presentAfterIssue p c).body = u.body := by
    unfold State.presentAfterIssue
    repeat' split
    all_goals rfl
  unfold packetIssueEffect
  split
  · split
    · next c g _ _ =>
      have hissue := s.body_issue p c g
      rw [State.engine_of_body (hpresent _ c), State.fault_of_body (hpresent _ c),
        State.engine_of_body (State.body_commit _ _), State.fault_of_body (State.body_commit _ _)]
      exact ⟨(congrArg State.engine hissue :), (congrArg State.fault hissue :)⟩
    · exact ⟨rfl, rfl⟩
  · exact ⟨rfl, rfl⟩

theorem trigFilterExpiryEffect_mode (i : Line) (s : State) :
    (trigFilterExpiryEffect i s).engine = s.engine ∧ (trigFilterExpiryEffect i s).fault = s.fault := by
  have hset (f : TrigFilter) : (s.setTrig i f).engine = s.engine ∧ (s.setTrig i f).fault = s.fault := by
    cases i <;> exact ⟨rfl, rfl⟩
  unfold trigFilterExpiryEffect
  dsimp only
  split
  · split
    · rw [State.engine_of_body (State.body_finish _ _), State.fault_of_body (State.body_finish _ _),
        State.engine_of_body (State.body_occur _ _), State.fault_of_body (State.body_occur _ _)]
      exact hset _
    · exact hset _
  · exact ⟨rfl, rfl⟩

theorem faultSound_effectOf (c : Instr) (s : State) (h : s.FaultSound) : (effectOf c s).FaultSound := by
  by_cases hw : isWalkerRow c = true
  · exact State.faultSound_of_fixed (effectOf_walkerRow hw s) h
  by_cases hb : keepsBody c = true
  · exact State.faultSound_of_body (body_effectOf s hb) h
  cases c
  case start => exact faultSound_startEffect h
  case stop =>
    simp only [effectOf, stopEffect]
    split
    · exact State.faultSound_finish _ State.faultSound_enterStopping
    · exact h
  case reset => exact State.faultSound_of_not_starting rfl
  case hardReset => exact State.faultSound_of_not_starting rfl
  case abortN =>
    simp only [effectOf, abortNEffect, State.abortCommand]
    split
    · exact State.faultSound_finish _ (State.faultSound_of_fixed (by simp) h)
    · exact h
  case abortP =>
    simp only [effectOf, abortPEffect, State.abortCommand]
    split
    · exact State.faultSound_finish _ (State.faultSound_of_fixed (by simp) h)
    · exact h
  case controlBlockReadDone r => exact faultSound_controlBlockReadDoneEffect r h
  case statusWriteDone t ok => exact faultSound_statusWriteDoneEffect t ok h
  case headerReadDone c r =>
    simp only [effectOf, headerReadDoneEffect]
    split
    · exact State.faultSound_finish _ (State.faultSound_of_fixed (by simp) h)
    · exact State.faultSound_finish _ (State.faultSound_of_fixed (by simp) h)
    · exact h
  case stepReadDone c r =>
    simp only [effectOf, stepReadDoneEffect]
    split
    · exact State.faultSound_finish _ (State.faultSound_of_fixed (by simp) h)
    · exact h
  case rescanReadDone c r =>
    simp only [effectOf, rescanReadDoneEffect]
    split
    · exact State.faultSound_finish _ (State.faultSound_of_fixed (by simp) h)
    · exact h
  case takenWriteDone c ok => exact faultSound_takenWriteDoneEffect c ok h
  case fetchFailWriteDone c last ok => exact faultSound_fetchFailWriteDoneEffect c last ok h
  case resultWriteDone i last ok => exact faultSound_resultWriteDoneEffect i last ok h
  case stateWordWriteDone i ok => exact faultSound_stateWordWriteDoneEffect i ok h
  case engineEntersRunning => exact faultSound_engineEntersRunningEffect h
  case engineStopped => exact faultSound_engineStoppedEffect h
  case resetNRelease => simp only [effectOf, resetNReleaseEffect]; split <;> exact h
  case cbaddrWrite v => simp only [effectOf, cbaddrWriteEffect]; split <;> exact h
  case noticeenWrite v => exact h
  case tilechgRead off len => simp only [effectOf, tilechgReadEffect]; split <;> exact h
  case trigPinChange i l =>
    simp only [effectOf, trigPinChangeEffect]
    split
    · exact h
    · cases i <;> exact h
  case trigFilterExpiry i => exact faultSound_of_mode (trigFilterExpiryEffect_mode i s) h
  case timebaseTick => exact h
  case wakeHistoryAgeOut =>
    simp only [effectOf, wakeHistoryAgeOutEffect]
    repeat' split
    all_goals exact h
  case packetIssue p => exact faultSound_of_mode (packetIssueEffect_mode p s) h
  all_goals first
    | exact absurd rfl hw
    | exact absurd rfl hb

/-- Settles O6: only START and the phases after it enter STARTING or RUNNING, and none of them with a fault recorded. -/
theorem noFaultWhileStartingOrRunning : Obligations.NoFaultWhileStartingOrRunning := by
  unfold Obligations.NoFaultWhileStartingOrRunning
  intro s t hs h
  exact step_keeps (P := State.FaultSound) (fun _ _ => id) (fun _ _ => id) faultSound_effectOf hs h

end Sys2Proof.Machine
end

section
/-! The entries in flight on each port (R79, R80): what each operation makes of them, so that no tag is held twice and every
entry is for a tile of its port. -/

namespace Sys2Proof.Machine

/-! ## What leaves both ports as they are -/

def State.ports (s : State) : Port × Port := (s.portA, s.portB)

theorem State.port_of_ports {s t : State} (h : t.ports = s.ports) (p : PortId) : t.port p = s.port p := by
  cases p
  · exact congrArg Prod.fst h
  · exact congrArg Prod.snd h

theorem State.ports_of_fixed {s t : State} (h : t.fixed = s.fixed) : t.ports = s.ports := (congrArg State.ports h :)

theorem EventFrame.ports {s t : State} (h : EventFrame s t) : t.ports = s.ports := (congrArg State.ports h.rest :)
theorem JobFrame.ports {s t : State} (h : JobFrame s t) : t.ports = s.ports := (congrArg State.ports h.rest :)
theorem TileFrame.ports {x : TileNum} {s t : State} (h : TileFrame x s t) : t.ports = s.ports :=
  (congrArg State.ports h.rest :)

section
variable (s : State)

@[simp] theorem State.ports_finish (before : State) : (finish before s).ports = s.ports := (finish_frame before s).ports
@[simp] theorem State.ports_commit (before : State) : (commit before s).ports = s.ports := (commit_frame before s).ports
@[simp] theorem State.ports_settle (before : State) : (settle before s).ports = s.ports := (settle_frame before s).ports
@[simp] theorem State.ports_modTile (t : TileNum) (f : TileEntry → TileEntry) : (s.modTile t f).ports = s.ports := rfl
@[simp] theorem State.ports_setTile (t : TileNum) (e : TileEntry) : (s.setTile t e).ports = s.ports := rfl
@[simp] theorem State.ports_setRecord (t : TileNum) (r : RecordCtl) : (s.setRecord t r).ports = s.ports := rfl
@[simp] theorem State.ports_modRecord (t : TileNum) (f : RecordCtl → RecordCtl) : (s.modRecord t f).ports = s.ports := rfl
@[simp] theorem State.ports_setSlot (i : SlotNum) (v : Slot) : (s.setSlot i v).ports = s.ports := rfl
@[simp] theorem State.ports_raise (n : Notice) : (s.raise n).ports = s.ports := rfl
@[simp] theorem State.ports_joinTileChg (t : TileNum) : (s.joinTileChg t).ports = s.ports := rfl
@[simp] theorem State.ports_dropWait (i : SlotNum) : (s.dropWait i).ports = s.ports := rfl
@[simp] theorem State.ports_enterTile (t : TileNum) (st : TileState) : (s.enterTile t st).ports = s.ports := rfl
@[simp] theorem State.ports_setError (t : TileNum) (c : ErrorCode) : (s.setError t c).ports = s.ports := rfl
@[simp] theorem State.ports_examineWakes : s.examineWakes.ports = s.ports := rfl

@[simp] theorem State.ports_modJob (i : SlotNum) (f : Job → Job) : (s.modJob i f).ports = s.ports := by
  unfold State.modJob
  split <;> rfl

@[simp] theorem State.ports_tellOwner (e : Entry) (f : Option ErrorCode) : (s.tellOwner e f).ports = s.ports :=
  (s.tellOwner_frame e f).ports

@[simp] theorem State.ports_applyAck (e : Entry) (n : Bool) : (s.applyAck e n).ports = s.ports := (s.applyAck_frame e n).ports

@[simp] theorem State.ports_applyReport (t : TileNum) (w : Word) : (s.applyReport t w).ports = s.ports := rfl

@[simp] theorem State.ports_rejudgePowerWaits (t : TileNum) : (s.rejudgePowerWaits t).ports = s.ports :=
  (s.rejudgePowerWaits_frame t).ports

@[simp] theorem State.ports_failPart (i : SlotNum) (t : TileNum) (c : ErrorCode) : (s.failPart i t c).ports = s.ports :=
  (s.failPart_frame i t c).ports

@[simp] theorem State.ports_occur (src : EventSource) : (s.occur src).ports = s.ports := (s.occur_frame src).ports

@[simp] theorem State.ports_enterRetiring (i : SlotNum) (k : RetireCause) : (s.enterRetiring i k).ports = s.ports :=
  State.ports_of_fixed (by simp)

@[simp] theorem State.ports_admitJob (i : SlotNum) : (s.admitJob i).ports = s.ports := State.ports_of_fixed (by simp)

@[simp] theorem State.ports_failEngineStep (i : SlotNum) (c : ErrorCode) : (s.failEngineStep i c).ports = s.ports :=
  State.ports_of_fixed (by simp [State.failEngineStep])

@[simp] theorem State.ports_enterTiles (l : List TileNum) (st : TileState) :
    (l.foldl (fun s t => s.enterTile t st) s).ports = s.ports :=
  foldl_keeps State.ports (fun s t => s.ports_enterTile t st) l s

@[simp] theorem State.ports_faultIssuedPart (t : TileNum) (i : SlotNum) : (s.faultIssuedPart t i).ports = s.ports := by
  unfold State.faultIssuedPart
  repeat' split
  all_goals simp

@[simp] theorem State.ports_takeFault (t : TileNum) (code : BitVec 4) : (s.takeFault t code).ports = s.ports := by
  unfold State.takeFault
  dsimp only
  split
  · rfl
  · exact foldl_keeps State.ports (fun s i => s.ports_faultIssuedPart t i) _ _

@[simp] theorem State.ports_stray (p : PortId) (d : Position) : (s.stray p d).ports = s.ports := by
  unfold State.stray
  split <;> rfl

@[simp] theorem State.ports_enterStopping : s.enterStopping.ports = s.ports :=
  (State.ports_of_fixed s.fixed_enterStopping).trans rfl

@[simp] theorem State.ports_fatalFault (f : EngineFault) : (s.fatalFault f).ports = s.ports := by
  have hrecord (u : State) (t : TileNum) : (u.faultRecord t).ports = u.ports := by
    unfold State.faultRecord
    dsimp only
    split <;> rfl
  unfold State.fatalFault
  split
  · dsimp only
    rw [foldl_keeps State.ports hrecord]
    split
    · rw [State.ports_enterStopping]
      rfl
    · rfl
  · rfl

@[simp] theorem State.ports_startFails (f : EngineFault) : (s.startFails f).ports = s.ports := by
  have hrecord (u : State) (t : TileNum) : (u.failRecord t).ports = u.ports := rfl
  unfold State.startFails
  rw [foldl_keeps State.ports hrecord]
  rfl

@[simp] theorem State.ports_dropStartMarks : s.dropStartMarks.ports = s.ports := by
  unfold State.dropStartMarks
  rw [foldl_keeps State.ports fun u t => u.ports_modRecord t _]

@[simp] theorem State.ports_cutControlBlockRead : s.cutControlBlockRead.ports = s.ports := by
  unfold State.cutControlBlockRead
  split <;> rfl

@[simp] theorem State.ports_endRewrite (t : TileNum) (j : Bool) : (s.endRewrite t j).ports = s.ports := by
  unfold State.endRewrite
  dsimp only
  split <;> rfl

@[simp] theorem State.ports_latchGates : s.latchGates.ports = s.ports := by
  refine foldl_keeps State.ports (fun u t => ?_) _ s
  unfold readyGateOpenEffect sleepGateOpenEffect
  repeat' split
  all_goals rfl

theorem State.portA_portB_latchGates : s.latchGates.portA = s.portA ∧ s.latchGates.portB = s.portB := by
  rw [← Prod.mk.injEq]
  exact s.ports_latchGates

@[simp] theorem State.ports_markAllRecords : s.markAllRecords.ports = s.ports := by
  unfold State.markAllRecords
  rw [foldl_keeps State.ports fun u t => u.ports_modRecord t _]

@[simp] theorem State.ports_takeSettings (st : Settings) : (s.takeSettings st).ports = s.ports := by
  unfold State.takeSettings
  rw [State.ports_markAllRecords]
  unfold State.ports
  dsimp only
  rw [s.portA_portB_latchGates.1, s.portA_portB_latchGates.2]

end

/-! ## Tags and tiles in flight -/

/-- Tag and tile of each entry in flight on a port. -/
def State.keys (s : State) (p : PortId) : List (Tag × TileNum) := (s.port p).inFlight.map (fun e => (e.tag, e.tile))

/-- No entry was added between `s` and `t`. -/
def Shrinks (s t : State) : Prop := ∀ p, (t.keys p).Sublist (s.keys p)

theorem Shrinks.refl (s : State) : Shrinks s s := fun _ => List.Sublist.refl _

theorem Shrinks.trans {s t u : State} (h : Shrinks s t) (g : Shrinks t u) : Shrinks s u := fun p => (g p).trans (h p)

theorem Shrinks.of_keys {s t : State} (h : ∀ p, t.keys p = s.keys p) : Shrinks s t := fun p => by
  rw [h p]

theorem Shrinks.of_ports {s t : State} (h : t.ports = s.ports) : Shrinks s t :=
  .of_keys fun p => by rw [State.keys, State.port_of_ports h p, State.keys]

theorem Shrinks.foldl {α : Type} {f : State → α → State} (hf : ∀ s a, Shrinks s (f s a)) (l : List α) (s : State) :
    Shrinks s (l.foldl f s) := by
  induction l generalizing s with
  | nil => exact .refl s
  | cons a l ih => exact (hf s a).trans (ih (f s a))

/-- A change of a port that takes entries away, or leaves their tags and tiles. -/
theorem Shrinks.modPort (s : State) (p : PortId) {f : Port → Port}
    (hf : ((f (s.port p)).inFlight.map (fun e => (e.tag, e.tile))).Sublist (s.keys p)) : Shrinks s (s.modPort p f) := by
  intro q
  by_cases hq : q = p
  · subst hq
    rw [State.keys, State.port_modPort]
    exact hf
  · rw [State.keys, State.port_modPort_ne s f hq]
    exact List.Sublist.refl _

theorem Shrinks.modPort_rest (s : State) (p : PortId) {f : Port → Port} (hf : ∀ v, (f v).inFlight = v.inFlight) :
    Shrinks s (s.modPort p f) := .modPort s p (by rw [hf]; exact List.Sublist.refl _)

section
variable (s : State) (p : PortId) (e : Entry)

theorem shrinks_endEntry (q : Bool) : Shrinks s (s.endEntry p e q) := by
  intro r
  by_cases hr : r = p
  · subst hr
    have hin : ((s.endEntry r e q).port r).inFlight = (s.port r).inFlight.filter (fun f => decide (f.tag ≠ e.tag)) := by
      rw [State.endEntry_port]
      dsimp only
      split
      · rw [Port.keepWrite_eq]
        rfl
      · rfl
    rw [State.keys, hin]
    exact List.filter_sublist.map _
  · rw [State.keys, State.endEntry_port_ne _ _ _ _ hr]
    exact List.Sublist.refl _

theorem shrinks_cutEntry : Shrinks s (State.cutEntry p s e) := by
  unfold State.cutEntry
  dsimp only
  refine (shrinks_endEntry s p e true).trans (.of_ports ?_)
  split <;> simp

theorem shrinks_cutEntries : Shrinks s (s.cutEntries p) := .foldl (fun s e => shrinks_cutEntry s p e) _ s

theorem shrinks_enterTraining : Shrinks s (s.enterTraining p) := .modPort_rest s p fun _ => rfl

theorem shrinks_enterEnumerating : Shrinks s (s.enterEnumerating p) :=
  (shrinks_cutEntries s p).trans (.modPort_rest _ p fun _ => rfl)

theorem shrinks_portUp : Shrinks s (s.portUp p) := .modPort_rest s p fun _ => rfl

theorem shrinks_silence : Shrinks s (s.silence p) := by
  unfold State.silence
  split
  · exact .refl s
  · exact (Shrinks.of_ports (State.ports_enterTiles _ _ _)).trans (shrinks_portUp _ p)

theorem shrinks_attemptFailed : Shrinks s (s.attemptFailed p) := by
  unfold State.attemptFailed State.portFailed
  split
  · exact .modPort_rest s p fun _ => rfl
  · refine (Shrinks.modPort_rest s p (f := fun v => { v with
      state := .failed, attempt := 0, attemptDue := none, rxLock := false, tileLock := false }) fun _ => rfl).trans
      (.of_ports ?_)
    rw [State.ports_raise, State.ports_enterTiles]

theorem shrinks_losePort : Shrinks s (s.losePort p) := by
  refine .foldl (fun u t => .of_ports ?_) _ s
  split <;> rfl

theorem shrinks_bringUp : Shrinks s (s.bringUp p) := by
  unfold State.bringUp
  split
  all_goals first
    | exact shrinks_enterTraining s p
    | exact .refl s

theorem shrinks_enumeratePort : Shrinks s (s.enumeratePort p) := by
  unfold State.enumeratePort
  split
  all_goals first
    | exact shrinks_enterTraining s p
    | exact shrinks_enterEnumerating s p
    | exact .refl s

theorem shrinks_keepOlderWrite : Shrinks s (s.keepOlderWrite p e) := by
  unfold State.keepOlderWrite
  split
  · exact .refl s
  · exact .modPort_rest s p fun v => by rw [Port.keepWrite_eq]

theorem shrinks_startDestWrite (w : DestWrite) : Shrinks s (s.startDestWrite p e w) := by
  refine .modPort s p ?_
  rw [List.map_map]
  refine (congrArg (List.Sublist · _) (List.map_congr_left fun f _ => ?_)).mpr (List.Sublist.refl _)
  simp only [Function.comp_apply]
  split <;> rfl

theorem shrinks_endWithAck (f : Option ErrorCode) (n : Bool) : Shrinks s (s.endWithAck p e f n) := by
  unfold State.endWithAck
  dsimp only
  refine (shrinks_endEntry s p e false).trans (.of_ports ?_)
  repeat' split
  all_goals simp

theorem shrinks_probeRefused : Shrinks s (s.probeRefused p e) :=
  ((shrinks_endEntry s p e false).trans (.of_ports rfl)).trans (shrinks_silence _ p)

theorem shrinks_discardData (ws : List Word) : Shrinks s (s.discardData p e ws) := by
  unfold State.discardData
  dsimp only
  refine (shrinks_endEntry s p e false).trans (.of_ports ?_)
  split <;> rfl

theorem shrinks_endDestWrite (w : DestWrite) (ok : Bool) : Shrinks s (s.endDestWrite p e w ok) := by
  unfold State.endDestWrite
  dsimp only
  refine (shrinks_endEntry s p e false).trans (.of_ports ?_)
  repeat' split
  all_goals simp

theorem shrinks_timeoutTile : Shrinks s (s.timeoutTile p e) := by
  have hend : Shrinks s (s.endTileEntries p e.tile) :=
    (Shrinks.foldl (fun s f => shrinks_endEntry s p f true) _ s).trans (.of_ports rfl)
  unfold State.timeoutTile
  dsimp only
  refine hend.trans (.of_ports ?_)
  rw [foldl_keeps State.ports (fun s f => s.ports_tellOwner f (some .tileLost))]
  simp

theorem shrinks_portsPhaseIfDone : Shrinks s s.portsPhaseIfDone := by
  unfold State.portsPhaseIfDone
  split
  · exact (shrinks_bringUp { s with engine := .starting .ports } .A).trans (shrinks_bringUp _ .B)
  · exact .refl s

theorem shrinks_nextStatusWrite (t : TileNum) (w : Rewrite) : Shrinks s (s.nextStatusWrite t w) := by
  unfold State.nextStatusWrite
  split
  · exact .of_ports rfl
  · exact .of_ports rfl
  · exact (Shrinks.of_ports (State.ports_endRewrite _ _ _)).trans (shrinks_portsPhaseIfDone _)

theorem ports_statusWriteFailed (t : TileNum) (w : Rewrite) : (s.statusWriteFailed t w).ports = s.ports := by
  unfold State.statusWriteFailed
  split <;> simp

end

/-- One entry was added to port `p`, for a tile of the port, with a tag that none held; others may have ended. -/
def Grows (s t : State) : Prop :=
  ∃ u p g x, Shrinks s u ∧ (∀ q, q ≠ p → t.keys q = u.keys q) ∧ t.keys p = u.keys p ++ [(g, x)] ∧
    (∀ k ∈ u.keys p, k.1 ≠ g) ∧ portOf x = p

theorem Grows.of_shrinks {s t u : State} (h : Shrinks s t) (g : Grows t u) : Grows s u := by
  obtain ⟨v, p, a, x, hv, hrest⟩ := g
  exact ⟨v, p, a, x, h.trans hv, hrest⟩

theorem Grows.of_ports {s t u : State} (g : Grows s t) (h : u.ports = t.ports) : Grows s u := by
  obtain ⟨v, p, a, x, hv, hother, hkey, hrest⟩ := g
  have hk (q : PortId) : u.keys q = t.keys q := by rw [State.keys, State.port_of_ports h q, State.keys]
  exact ⟨v, p, a, x, hv, fun q hq => (hk q).trans (hother q hq), (hk p).trans hkey, hrest⟩

/-- The lowest free tag is held by no entry and not quarantined, and every lower one is (R79). -/
theorem Port.freeTag_spec {v : Port} {g : Tag} (h : v.freeTag = some g) :
    (∀ e ∈ v.inFlight, e.tag ≠ g) ∧ v.quarantined.getLsbD g.val = false := by
  have h := List.find?_some h
  simp only [Port.tagFree, Bool.and_eq_true, Bool.not_eq_true', List.any_eq_false, decide_eq_true_eq] at h
  exact ⟨h.2, h.1⟩

theorem portOf_tileOf (p : PortId) (d : Position) : portOf (tileOf p d) = p := by
  obtain ⟨n, hn⟩ := d
  cases p
  · simp [portOf, tileOf, hn]
  · simp [portOf, tileOf]

theorem positionOf_tileOf (p : PortId) (d : Position) : positionOf (tileOf p d) = d := by
  obtain ⟨n, hn⟩ := d
  cases p
  · simp [positionOf, tileOf, hn]
  · simp [positionOf, tileOf]

theorem portOf_of_mem_portTiles {p : PortId} {t : TileNum} (h : t ∈ portTiles p) : portOf t = p := by
  obtain ⟨d, -, rfl⟩ := List.mem_map.1 h
  exact portOf_tileOf p d

/-- A port to which an entry is appended, with a tag free on it. -/
theorem Grows.append (s : State) (p : PortId) {f : Port → Port} {e : Entry} (ht : (s.port p).freeTag = some e.tag)
    (hx : portOf e.tile = p) (hf : (f (s.port p)).inFlight = (s.port p).inFlight ++ [e]) : Grows s (s.modPort p f) := by
  refine ⟨s, p, e.tag, e.tile, .refl s, fun q hq => ?_, ?_, fun k hk => ?_, hx⟩
  · rw [State.keys, State.port_modPort_ne s f hq, State.keys]
  · rw [State.keys, State.port_modPort, hf, List.map_append]
    rfl
  · obtain ⟨e', he', rfl⟩ := List.mem_map.1 hk
    exact (Port.freeTag_spec ht).1 e' he'

theorem grows_issueProbe (s : State) (p : PortId) (d : Position) :
    Shrinks s (s.issueProbe p d) ∨ Grows s (s.issueProbe p d) := by
  unfold State.issueProbe
  split
  · exact .inl (.refl s)
  · next g hg =>
    refine .inr (Grows.of_ports (Grows.append s p (e := ⟨g, tileOf p d, .enumeration, .probe, s.now,
      some (plusMs s.now s.settings.replyMs), .awaiting, 0, 0, 0, 0, .rgb16⟩) hg (portOf_tileOf p d) ?_) rfl)
    rfl

theorem grows_issuePacket (s : State) {p : PortId} {x : TileNum} {g : Tag} (o : Owner) (sh : Shape)
    (hg : (s.port p).freeTag = some g) (hx : portOf x = p) : Grows s (s.issuePacket p x g o sh) :=
  Grows.of_ports (Grows.append s p (e := ⟨g, x, o, sh.kind, s.now, some (plusMs s.now (s.settings.replyMs +
    if sh.onFrame then (match (s.tile x).geometry with | some g => g.framePeriod.toNat | none => 0) else 0)),
    .awaiting, sh.x, sh.y, sh.first, sh.pixels, sh.format⟩) hg hx rfl) rfl

@[simp] theorem State.ports_holdRiders (s : State) (x : TileNum) : (s.holdRiders x).ports = s.ports := by
  refine foldl_keeps State.ports (fun s i => ?_) _ s
  split <;> simp

theorem grows_issue (s : State) {p : PortId} {c : Cand} {g : Tag} (hg : (s.port p).freeTag = some g)
    (hx : portOf c.tile = p) : Shrinks s (s.issue p c g) ∨ Grows s (s.issue p c g) := by
  unfold State.issue
  split
  · exact .inr (Grows.of_ports (grows_issuePacket s _ _ hg hx) rfl)
  · next i _ =>
    split
    · exact .inl (.refl s)
    · next j _ =>
      split
      · exact .inl (.refl s)
      · next st _ =>
        dsimp only
        split
        · refine .inr (Grows.of_ports (grows_issuePacket s (.job i j.current)
            (segmentShape st (s.ownStream i c.tile) ((s.staged i c.tile).getD [])) hg hx) ?_)
          simp [State.segmentIssued]
        · refine .inr (Grows.of_ports (grows_issuePacket s (.job i j.current) (settingShape st) hg hx) ?_)
          split
          · rw [State.ports_holdRiders]
            exact (State.ports_modJob _ _ _).trans (State.ports_modJob _ _ _)
          · exact (State.ports_modJob _ _ _).trans (State.ports_modJob _ _ _)

/-- A candidate of a port is for a tile of it. -/
theorem State.portOf_candidate {s : State} {p : PortId} {c : Cand} (h : c ∈ s.candidates p) : portOf c.tile = p := by
  rcases State.mem_candidates h with ⟨i, hi⟩ | ho
  · obtain ⟨_, _, _, _, _, _, _, _, _, hp⟩ := State.mem_jobCandidates hi
    exact hp
  · exact portOf_of_mem_portTiles (State.mem_offers ho).2.2.2.1

@[simp] theorem State.ports_presentAfterIssue (s : State) (p : PortId) (c : Cand) :
    (s.presentAfterIssue p c).ports = s.ports := by
  unfold State.presentAfterIssue
  repeat' split
  all_goals rfl

theorem grows_packetIssueEffect (p : PortId) (s : State) :
    Shrinks s (packetIssueEffect p s) ∨ Grows s (packetIssueEffect p s) := by
  unfold packetIssueEffect
  split
  · split
    · next c g hc hg =>
      have hx := State.portOf_candidate (State.arbiterPick_spec hc).1
      have hports : ((commit s (s.issue p c g)).presentAfterIssue p c).ports = (s.issue p c g).ports := by simp
      rcases grows_issue s hg hx with h | h
      · exact .inl (h.trans (.of_ports hports))
      · exact .inr (h.of_ports hports)
    · exact .inl (.refl s)
  · exact .inl (.refl s)

theorem grows_dataReceivedEffect (p : PortId) (d : Position) (g : Tag) (ws : List Word) (s : State) :
    Shrinks s (dataReceivedEffect p d g ws s) ∨ Grows s (dataReceivedEffect p d g ws s) := by
  have hfin (u : State) (h : Shrinks s u) : Shrinks s (finish s u) := h.trans (.of_ports (State.ports_finish u s))
  unfold dataReceivedEffect
  dsimp only
  split
  · split
    · exact .inl (hfin _ (.of_ports (by simp)))
    · next e _ =>
      have hold := shrinks_keepOlderWrite s p e
      split
      · split
        · have hend := hold.trans (shrinks_endEntry _ p e false)
          unfold State.probeAnswered
          split
          · exact .inl (hfin _ hend)
          · next d' _ =>
            dsimp only
            have hprobed := hend.trans (Shrinks.of_ports
              (State.ports_modTile ((s.keepOlderWrite p e).endEntry p e false) (tileOf p d')
                (TileEntry.probed ((s.keepOlderWrite p e).endEntry p e false).now ws)))
            split
            · rcases grows_issueProbe _ p _ with h | h
              · exact .inl (hfin _ (hprobed.trans h))
              · exact .inr ((Grows.of_shrinks hprobed h).of_ports (by simp))
            · exact .inl (hfin _ (hprobed.trans (shrinks_portUp _ p)))
        · exact .inl (hfin _ (hold.trans (shrinks_probeRefused _ p e)))
      · split
        · split
          · exact .inl (hfin _ (hold.trans (shrinks_discardData _ p e ws)))
          · exact .inl (hold.trans (shrinks_startDestWrite _ p e _))
        · exact .inl (hfin _ (hold.trans (shrinks_endWithAck _ p e _ _)))
  · exact .inl (.refl s)

theorem shrinks_chainReset (p : PortId) (s : State) : Shrinks s ((portTiles p).foldl (fun s t => s.modTile t
    TileEntry.chainReset) (s.modPort p (fun v => { v with waitDue := none, quarantined := 0 }))) := by
  refine (Shrinks.modPort_rest s p (f := fun v => { v with waitDue := none, quarantined := 0 }) fun _ => rfl).trans
    (.of_ports ?_)
  rw [foldl_keeps State.ports fun u t => u.ports_modTile t TileEntry.chainReset]

theorem grows_chainResetWaitExpiryEffect (p : PortId) (s : State) :
    Shrinks s (chainResetWaitExpiryEffect p s) ∨ Grows s (chainResetWaitExpiryEffect p s) := by
  have hreset := shrinks_chainReset p s
  unfold chainResetWaitExpiryEffect
  dsimp only
  split
  · generalize List.foldl _ _ _ = u at hreset ⊢
    rcases grows_issueProbe u p 0 with h | h
    · exact .inl ((hreset.trans h).trans (.of_ports (State.ports_finish _ _)))
    · exact .inr ((Grows.of_shrinks hreset h).of_ports (State.ports_finish _ _))
  · exact .inl (.refl s)

/-- Of each command: entries end, or one is added. -/
theorem effectOf_keys (c : Instr) (s : State) : Shrinks s (effectOf c s) ∨ Grows s (effectOf c s) := by
  have hfin {u : State} (h : Shrinks s u) : Shrinks s (finish s u) := h.trans (.of_ports (State.ports_finish u s))
  by_cases hw : isWalkerRow c = true
  · exact .inl (.of_ports (State.ports_of_fixed (effectOf_walkerRow hw s)))
  cases c
  case packetIssue p => exact grows_packetIssueEffect p s
  case dataReceived p d g ws => exact grows_dataReceivedEffect p d g ws s
  case chainResetWaitExpiry p => exact grows_chainResetWaitExpiryEffect p s
  all_goals left
  case start =>
    simp only [effectOf, startEffect]
    split
    · split
      · exact .of_ports ((State.ports_startFails _ _).trans rfl)
      · exact .of_ports rfl
    · exact .of_ports rfl
  case stop =>
    simp only [effectOf, stopEffect]
    split
    · exact .of_ports (by simp)
    · exact .of_ports rfl
  case reset => exact fun p => by cases p <;> exact List.nil_sublist _
  case hardReset => exact fun p => by cases p <;> exact List.nil_sublist _
  case enumerate =>
    simp only [effectOf, enumerateEffect]
    split
    · exact hfin ((shrinks_enumeratePort s .A).trans (shrinks_enumeratePort _ .B))
    · exact .of_ports rfl
  case abortN =>
    simp only [effectOf, abortNEffect, State.abortCommand]
    split
    · exact hfin (.of_ports (State.ports_of_fixed (by simp)))
    · exact .of_ports rfl
  case abortP =>
    simp only [effectOf, abortPEffect, State.abortCommand]
    split
    · exact hfin (.of_ports (State.ports_of_fixed (by simp)))
    · exact .of_ports rfl
  case unknownCommand code => simp only [effectOf, unknownCommandEffect]; split <;> exact .of_ports rfl
  case cbaddrWrite v => simp only [effectOf, cbaddrWriteEffect]; split <;> exact .of_ports rfl
  case noticeWrite v => exact .of_ports rfl
  case noticeenWrite v => exact .of_ports rfl
  case tilechgRead off len => simp only [effectOf, tilechgReadEffect]; split <;> exact .of_ports rfl
  case registerWriteIgnored off len => simp only [effectOf, registerWriteIgnoredEffect]; split <;> exact .of_ports rfl
  case resetNRelease => simp only [effectOf, resetNReleaseEffect]; split <;> exact .of_ports rfl
  case trigPinChange i l =>
    simp only [effectOf, trigPinChangeEffect]
    split
    · exact .refl s
    · cases i <;> exact .of_ports rfl
  case trigFilterExpiry i =>
    have hset (f : TrigFilter) : Shrinks s (s.setTrig i f) := .of_ports (by cases i <;> rfl)
    simp only [effectOf, trigFilterExpiryEffect]
    repeat' split
    · exact hfin ((hset _).trans (.of_ports (State.ports_occur _ _)))
    · exact hset _
    · exact .refl s
  case syncPulseExpiry o => cases o <;> exact .of_ports rfl
  case receiverLock p =>
    have hlock : Shrinks s (s.modPort p fun v => { v with rxLock := true }) := .modPort_rest s p fun _ => rfl
    simp only [effectOf, receiverLockEffect]
    repeat' split
    · exact hfin (hlock.trans (shrinks_enterEnumerating _ p))
    all_goals first
      | exact hlock
      | exact .refl s
  case tileLock p =>
    have hlock : Shrinks s (s.modPort p fun v => { v with tileLock := true }) := .modPort_rest s p fun _ => rfl
    simp only [effectOf, tileLockEffect]
    repeat' split
    · exact hfin (hlock.trans (shrinks_enterEnumerating _ p))
    all_goals first
      | exact hlock
      | exact .refl s
  case hardError p =>
    have hsilent : Shrinks s (s.modPort p fun v => { v with transmitting := none }) :=
      .modPort_rest s p fun _ => rfl
    have hdark : Shrinks s (s.modPort p fun v => { v with rxLock := false, tileLock := false }) :=
      .modPort_rest s p fun _ => rfl
    have hcut := (hsilent.trans
      (shrinks_cutEntries (s.modPort p fun v => { v with transmitting := none }) p)).trans
      ((shrinks_losePort _ p).trans (shrinks_enterTraining _ p))
    simp only [effectOf, hardErrorEffect]
    repeat' split
    · exact hfin (hdark.trans (shrinks_attemptFailed _ p))
    · exact .refl s
    · exact hfin hcut
    · exact hfin hcut
    · exact .refl s
    · exact .refl s
  case ackReceived p d g st =>
    simp only [effectOf, ackReceivedEffect]
    split
    · split
      · exact hfin (.of_ports (by simp))
      · next e _ =>
        have hold := shrinks_keepOlderWrite s p e
        split
        · exact hfin (hold.trans (shrinks_probeRefused _ p e))
        · exact hfin (hold.trans (shrinks_endWithAck _ p e _ _))
    · exact .refl s
  case faultNotice p d code =>
    simp only [effectOf, faultNoticeEffect]
    split
    · exact hfin (.of_ports (by simp))
    · exact .refl s
  case frameNotice p d =>
    simp only [effectOf, frameNoticeEffect]
    split
    · exact hfin (.of_ports (by simp))
    · exact .refl s
  case linkErrorPacket p bs =>
    simp only [effectOf, linkErrorPacketEffect]
    repeat' split
    all_goals exact .of_ports rfl
  case transmissionEnd p =>
    have hsilent : Shrinks s (s.modPort p fun v => { v with transmitting := none }) :=
      .modPort_rest s p fun _ => rfl
    simp only [effectOf, transmissionEndEffect]
    split
    · exact .refl s
    · exact hsilent.trans (.of_ports (State.ports_commit _ _))
  case timebaseTick => exact .of_ports rfl
  case attemptTimerExpiry p =>
    simp only [effectOf, attemptTimerExpiryEffect]
    split
    · exact hfin (shrinks_attemptFailed s p)
    · exact .refl s
  case probeDeadlineExpiry p =>
    simp only [effectOf, probeDeadlineExpiryEffect]
    split
    · next e _ => exact hfin ((shrinks_endEntry s p e true).trans (shrinks_silence _ p))
    · exact .refl s
  case replyDeadlineExpiry p g =>
    simp only [effectOf, replyDeadlineExpiryEffect]
    split
    · next e _ => exact (shrinks_timeoutTile s p e).trans (.of_ports (by simp))
    · exact .refl s
  case settleTimerExpiry t => simp only [effectOf, settleTimerExpiryEffect]; split <;> exact .of_ports (by simp)
  case restTimerExpiry t => simp only [effectOf, restTimerExpiryEffect]; split <;> exact .of_ports (by simp)
  case waitTimeout i =>
    simp only [effectOf, waitTimeoutEffect]
    repeat' split
    all_goals exact .of_ports (by simp)
  case pauseExpiry i =>
    simp only [effectOf, pauseExpiryEffect]
    repeat' split
    all_goals exact .of_ports (by simp)
  case wakeHistoryAgeOut =>
    simp only [effectOf, wakeHistoryAgeOutEffect]
    repeat' split
    all_goals exact .of_ports rfl
  case sleepGateOpen t => simp only [effectOf, sleepGateOpenEffect]; split <;> exact .of_ports rfl
  case readyGateOpen t => simp only [effectOf, readyGateOpenEffect]; split <;> exact .of_ports rfl
  case controlBlockReadDone r =>
    simp only [effectOf, controlBlockReadDoneEffect]
    split
    · split
      · split
        · exact .of_ports ((State.ports_startFails _ _).trans rfl)
        · split
          · exact .of_ports ((State.ports_startFails _ _).trans rfl)
          · exact .of_ports ((State.ports_takeSettings _ _).trans rfl)
      · exact .of_ports rfl
    · exact .of_ports rfl
  case statusWriteDone t ok =>
    simp only [effectOf, statusWriteDoneEffect]
    repeat' split
    · exact .refl s
    · exact .of_ports (by simp)
    · exact .of_ports (by simp)
    · exact hfin (shrinks_nextStatusWrite s t _)
    · exact hfin (.of_ports (ports_statusWriteFailed s t _))
  case statusRewriteStart t => simp only [effectOf, statusRewriteStartEffect]; split <;> exact .of_ports rfl
  case headerReadDone c r =>
    simp only [effectOf, headerReadDoneEffect]
    split
    · exact hfin (.of_ports (State.ports_of_fixed (by simp)))
    · exact hfin (.of_ports (State.ports_of_fixed (by simp)))
    · exact .refl s
  case stepReadDone c r =>
    simp only [effectOf, stepReadDoneEffect]
    split
    · exact hfin (.of_ports (State.ports_of_fixed (by simp)))
    · exact .refl s
  case rescanReadDone c r =>
    simp only [effectOf, rescanReadDoneEffect]
    split
    · exact hfin (.of_ports (State.ports_of_fixed (by simp)))
    · exact .refl s
  case takenWriteDone c ok =>
    simp only [effectOf, takenWriteDoneEffect]
    repeat' split
    · exact hfin (.of_ports (State.ports_of_fixed (by simp)))
    · refine hfin (.of_ports ((State.ports_fatalFault _ _).trans (State.ports_of_fixed (by simp))))
    · exact .refl s
  case fetchFailWriteDone c last ok =>
    simp only [effectOf, fetchFailWriteDoneEffect]
    repeat' split
    all_goals first
      | exact hfin (.of_ports ((State.ports_fatalFault _ _).trans (State.ports_of_fixed (by simp))))
      | exact hfin (.of_ports (State.ports_of_fixed (by simp)))
      | exact .of_ports (State.ports_of_fixed (by simp))
  case resultWriteDone i last ok =>
    simp only [effectOf, resultWriteDoneEffect, State.retireFailed]
    repeat' split
    all_goals exact .of_ports (by simp)
  case stateWordWriteDone i ok =>
    simp only [effectOf, stateWordWriteDoneEffect, State.retireFailed]
    repeat' split
    all_goals first
      | exact .of_ports (State.ports_of_fixed (by simp))
      | exact hfin (.of_ports (State.ports_of_fixed (by simp)))
      | exact hfin (.of_ports (by simp))
  case stagingReadDone i t r =>
    simp only [effectOf, stagingReadDoneEffect, State.stagingReadEnds, State.endStagingRead]
    repeat' split
    all_goals exact .of_ports (by first | simp | rfl)
  case destinationWriteDone p g ok =>
    simp only [effectOf, destinationWriteDoneEffect]
    repeat' split
    · exact .modPort_rest s p fun _ => rfl
    · next e w _ => exact hfin (shrinks_endDestWrite s p e w ok)
    · exact .refl s
  case jobAdmission i => simp only [effectOf, jobAdmissionEffect]; split <;> exact .of_ports (by simp)
  case jobDrained i =>
    simp only [effectOf, jobDrainedEffect]
    repeat' split
    all_goals exact .of_ports (by simp)
  case engineEntersRunning =>
    simp only [effectOf, engineEntersRunningEffect]
    split
    · exact hfin (.of_ports (by
        rw [State.ports_of_fixed (State.fixed_startWalker _ _ _),
          State.ports_of_fixed (State.fixed_startWalker _ _ _), State.ports_raise]
        rfl))
    · exact .refl s
  case engineStopped => simp only [effectOf, engineStoppedEffect]; split <;> exact .of_ports rfl
  all_goals exact absurd rfl hw

/-! ## The two invariants -/

theorem State.keys_tags (s : State) (p : PortId) : (s.keys p).map Prod.fst = (s.port p).inFlight.map (fun e => e.tag) := by
  rw [State.keys, List.map_map]
  rfl

/-- On each port no tag is held twice. -/
def State.TagsOnce (s : State) : Prop := ∀ p, ((s.port p).inFlight.map (fun e => e.tag)).Nodup

theorem Shrinks.tagsOnce {s t : State} (h : Shrinks s t) (hs : s.TagsOnce) : t.TagsOnce := fun p => by
  rw [← State.keys_tags]
  exact ((h p).map _).nodup (by rw [State.keys_tags]; exact hs p)

theorem Grows.tagsOnce {s t : State} (h : Grows s t) (hs : s.TagsOnce) : t.TagsOnce := by
  obtain ⟨u, p, g, x, hu, hother, hkey, hfree, -⟩ := h
  intro q
  rw [← State.keys_tags]
  by_cases hq : q = p
  · subst hq
    rw [hkey, List.map_append, List.nodup_append']
    refine ⟨by rw [State.keys_tags]; exact hu.tagsOnce hs q, List.nodup_singleton _, ?_⟩
    simp only [List.disjoint_right, List.map_cons, List.map_nil, List.mem_singleton, forall_eq]
    rintro hmem
    obtain ⟨k, hk, hkg⟩ := List.mem_map.1 hmem
    exact hfree k hk hkg
  · rw [hother q hq, State.keys_tags]
    exact hu.tagsOnce hs q

/-- On each port every entry is for a tile of the port. -/
def State.EntriesHome (s : State) : Prop := ∀ p, ∀ e ∈ (s.port p).inFlight, portOf e.tile = p

theorem State.entriesHome_iff {s : State} : s.EntriesHome ↔ ∀ p, ∀ k ∈ s.keys p, portOf k.2 = p := by
  simp [State.EntriesHome, State.keys]

theorem Shrinks.entriesHome {s t : State} (h : Shrinks s t) (hs : s.EntriesHome) : t.EntriesHome :=
  State.entriesHome_iff.2 fun p k hk => State.entriesHome_iff.1 hs p k ((h p).subset hk)

theorem Grows.entriesHome {s t : State} (h : Grows s t) (hs : s.EntriesHome) : t.EntriesHome := by
  obtain ⟨u, p, g, x, hu, hother, hkey, -, hx⟩ := h
  refine State.entriesHome_iff.2 fun q k hk => ?_
  have hhome := State.entriesHome_iff.1 (hu.entriesHome hs) q
  by_cases hq : q = p
  · subst hq
    rw [hkey] at hk
    rcases List.mem_append.1 hk with hk | hk
    · exact hhome k hk
    · rw [List.mem_singleton.1 hk]
      exact hx
  · rw [hother q hq] at hk
    exact hhome k hk

/-- Settles O7: an entry is added with a tag that is free on its port, for a tile of it; everything else ends entries. -/
theorem tagsHeldOnce : Obligations.TagsHeldOnce := by
  unfold Obligations.TagsHeldOnce
  refine ⟨fun s t hs h => ?_, fun s t hs h => ?_⟩
  · exact step_keeps (P := State.TagsOnce) (fun _ _ => id) (fun _ _ => id)
      (fun c s hs => (effectOf_keys c s).elim (fun h => h.tagsOnce hs) (fun h => h.tagsOnce hs)) hs h
  · exact step_keeps (P := State.EntriesHome) (fun _ _ => id) (fun _ _ => id)
      (fun c s hs => (effectOf_keys c s).elim (fun h => h.entriesHome hs) (fun h => h.entriesHome hs)) hs h

end Sys2Proof.Machine
end

section
/-! What can happen to a job between its taking and its retirement: one relation on jobs (`JobMove`), that each operation of the
machine follows (R35 to R42). What every move keeps, a job keeps over all its life. -/

namespace Sys2Proof.Machine

/-! ## The moves of one job -/

/-- One change of a job. A part is withdrawn only as the job leaves RUNNING, an engine step is over only where the job is at
one, and the current step stays one of the job's steps. -/
inductive JobMove (j : Job) : Job → Prop
  | parts (ps : List TilePart) (h : ∀ q ∈ ps, q.cond = .withdrawn → ∃ q' ∈ j.parts, q'.cond = .withdrawn) :
      JobMove j { j with parts := ps }
  | outstanding (n : Nat) : JobMove j { j with outstanding := n }
  | tolerated (n : Nat) (h : min 255 j.tolerated ≤ min 255 n) : JobMove j { j with tolerated := n }
  | abort (b : Bool) : JobMove j { j with abortRequested := b }
  | failure (f : Option Failure) : JobMove j { j with firstFailure := f }
  | pause (d : Option Word) : JobMove j { j with pauseDue := d }
  | engineStepDone : JobMove j j.engineStepDone
  | drain (ps : List TilePart) :
      JobMove j { j with phase := .draining, pauseDue := none, engineDone := false, parts := ps }
  | stepDone : JobMove j { j with stepsDone := j.stepsDone + 1, engineDone := false }
  | goOn (hrun : j.phase.isRunning = true) (hdone : j.engineDone = false) (hnext : j.current + 1 < j.stepCount) :
      JobMove j { j with current := j.current + 1 }
  | retire (r : Retirement) : JobMove j { j with phase := .retiring r, parts := [], pauseDue := none, engineDone := false }
  | nextWrite (r : Retirement) (h : j.phase.isRetiring = true) : JobMove j { j with phase := .retiring r }

/-- A job after any number of moves. -/
abbrev JobMoves : Job → Job → Prop := Relation.ReflTransGen JobMove

/-- What every move keeps, a job keeps. -/
theorem JobMoves.keeps {P : Job → Prop} (hP : ∀ j k, P j → JobMove j k → P k) {j k : Job} (h : JobMoves j k) (hj : P j) :
    P k := by
  induction h with
  | refl => exact hj
  | tail _ hm ih => exact hP _ _ ih hm

theorem JobMove.setPart {j : Job} {t : TileNum} {f : TilePart → TilePart}
    (hf : ∀ q, (f q).cond = .withdrawn → q.cond = .withdrawn) : JobMove j (j.setPart t f) := by
  refine .parts _ fun q hq hw => ?_
  obtain ⟨q', hq', rfl⟩ := List.mem_map.1 hq
  refine ⟨q', hq', ?_⟩
  split at hw
  · exact hf q' hw
  · exact hw

theorem JobMove.dropPart {j : Job} {t : TileNum} : JobMove j (j.dropPart t) :=
  .parts _ fun q hq hw => ⟨q, (List.mem_filter.1 hq).1, hw⟩

/-- Progress a job never takes back: steps done, tolerated failures counted as far as they are reported, and while it runs the
current step; a job that has left RUNNING never returns to it. -/
structure Job.Ahead (j k : Job) : Prop where
  steps : k.steps = j.steps
  stepsDone : j.stepsDone ≤ k.stepsDone
  tolerated : min 255 j.tolerated ≤ min 255 k.tolerated
  current : j.current ≤ k.current
  running : k.phase.isRunning = true → j.phase.isRunning = true

theorem JobMove.ahead {j k : Job} (h : JobMove j k) : j.Ahead k := by
  cases h with
  | tolerated n h => exact ⟨rfl, le_rfl, h, le_rfl, id⟩
  | drain ps => exact ⟨rfl, le_rfl, le_rfl, le_rfl, fun h => absurd h (by simp [Phase.isRunning])⟩
  | stepDone => exact ⟨rfl, Nat.le_succ _, le_rfl, le_rfl, id⟩
  | goOn _ _ _ => exact ⟨rfl, le_rfl, le_rfl, Nat.le_succ _, id⟩
  | retire r => exact ⟨rfl, le_rfl, le_rfl, le_rfl, fun h => absurd h (by simp [Phase.isRunning])⟩
  | nextWrite r _ => exact ⟨rfl, le_rfl, le_rfl, le_rfl, fun h => absurd h (by simp [Phase.isRunning])⟩
  | _ => exact ⟨rfl, le_rfl, le_rfl, le_rfl, id⟩

theorem JobMoves.ahead {j k : Job} (h : JobMoves j k) : j.Ahead k := by
  induction h with
  | refl => exact ⟨rfl, le_rfl, le_rfl, le_rfl, id⟩
  | tail _ hm ih =>
    have hm := hm.ahead
    exact ⟨hm.steps.trans ih.steps, ih.stepsDone.trans hm.stepsDone, ih.tolerated.trans hm.tolerated, ih.current.trans hm.current,
      ih.running ∘ hm.running⟩

/-- Only an engine step of a RUNNING job is over by itself, and only a DRAINING job has parts it withdrew (R36, R37). -/
structure Job.Sound (j : Job) : Prop where
  engineDone : j.engineDone = true → j.atEngineStep = true
  withdrawn : ∀ q ∈ j.parts, q.cond = .withdrawn → j.phase.isDraining = true

theorem JobMove.sound {j k : Job} (hj : j.Sound) (h : JobMove j k) : k.Sound := by
  obtain ⟨hdone, hwith⟩ := hj
  cases h with
  | parts ps h =>
    refine ⟨hdone, fun q hq hw => ?_⟩
    obtain ⟨q', hq', hw'⟩ := h q hq hw
    exact hwith q' hq' hw'
  | engineStepDone =>
    refine ⟨fun h => ?_, hwith⟩
    rcases Bool.or_eq_true_iff.1 h with h | h
    · exact hdone h
    · exact h
  | drain ps => exact ⟨fun h => absurd h (by simp), fun _ _ _ => rfl⟩
  | stepDone => exact ⟨fun h => absurd h (by simp), hwith⟩
  | goOn _ hd _ => exact ⟨fun h => absurd (hd.symm.trans h) (by simp), hwith⟩
  | retire r => exact ⟨fun h => absurd h (by simp), fun _ h => absurd h (by simp)⟩
  | nextWrite r hr =>
    refine ⟨fun h => ?_, fun q hq hw => ?_⟩
    · have hrun := hdone h
      cases hp : j.phase <;> simp [Job.atEngineStep, Phase.isRunning, Phase.isRetiring, hp] at hrun hr
    · have hdrain := hwith q hq hw
      cases hp : j.phase <;> simp [Phase.isDraining, Phase.isRetiring, hp] at hdrain hr
  | _ => exact ⟨hdone, hwith⟩

/-- The job stands at one of its steps. -/
def Job.AtStep (j : Job) : Prop := j.current < j.steps.length

theorem JobMove.atStep {j k : Job} (hj : j.AtStep) (h : JobMove j k) : k.AtStep := by
  cases h with
  | goOn _ _ h => exact h
  | _ => exact hj

/-! ## The jobs of a state -/

/-- Every job of `t` is one of `s`, moved. -/
def Moves (s t : State) : Prop := ∀ i j', t.job i = some j' → ∃ j, s.job i = some j ∧ JobMoves j j'

theorem Moves.refl (s : State) : Moves s s := fun _ j h => ⟨j, h, .refl⟩

theorem Moves.trans {s t u : State} (h : Moves s t) (g : Moves t u) : Moves s u := fun i j hj => by
  obtain ⟨k, hk, hkj⟩ := g i j hj
  obtain ⟨l, hl, hlk⟩ := h i k hk
  exact ⟨l, hl, hlk.trans hkj⟩

theorem State.job_of_slots {s t : State} (h : t.slots = s.slots) (i : SlotNum) : t.job i = s.job i := by
  simp only [State.job, State.slot, h]

theorem Moves.of_slots {s t : State} (h : t.slots = s.slots) : Moves s t := fun i j hj => by
  rw [State.job_of_slots h] at hj
  exact ⟨j, hj, .refl⟩

theorem Moves.foldl {α : Type} {f : State → α → State} (hf : ∀ s a, Moves s (f s a)) (l : List α) (s : State) :
    Moves s (l.foldl f s) := by
  induction l generalizing s with
  | nil => exact .refl s
  | cons a l ih => exact (hf s a).trans (ih _)

theorem Moves.modJobs (s : State) (i : SlotNum) {f : Job → Job} (hf : ∀ j, s.job i = some j → JobMoves j (f j)) :
    Moves s (s.modJob i f) := fun k j' hj' => by
  rw [State.job_modJob] at hj'
  split at hj'
  · next h =>
    subst h
    obtain ⟨j, hj, rfl⟩ := Option.map_eq_some_iff.1 hj'
    exact ⟨j, hj, hf j hj⟩
  · exact ⟨j', hj', .refl⟩

theorem Moves.modJob (s : State) (i : SlotNum) {f : Job → Job} (hf : ∀ j, s.job i = some j → JobMove j (f j)) :
    Moves s (s.modJob i f) := .modJobs s i fun j hj => .single (hf j hj)

theorem Moves.setSlot_free (s : State) (i : SlotNum) {v : Slot} (hv : v.job? = none) : Moves s (s.setSlot i v) := fun k j hj => by
  rw [State.job_setSlot] at hj
  split at hj
  · rw [hv] at hj
    cases hj
  · exact ⟨j, hj, .refl⟩

theorem Moves.setSlot_job (s : State) (i : SlotNum) {j k : Job} (hj : s.job i = some j) (h : JobMove j k) :
    Moves s (s.setSlot i (.job k)) := fun l j' hj' => by
  rw [State.job_setSlot] at hj'
  split at hj'
  · next e =>
    subst e
    cases hj'
    exact ⟨j, hj, .single h⟩
  · exact ⟨j', hj', .refl⟩

/-- What every move keeps, every job of the state keeps. -/
theorem Moves.keeps {P : Job → Prop} (hP : ∀ j k, P j → JobMove j k → P k) {s t : State} (h : Moves s t)
    (hs : ∀ i, ∀ j ∈ s.job i, P j) : ∀ i, ∀ j ∈ t.job i, P j := fun i j hj => by
  obtain ⟨k, hk, hkj⟩ := h i j hj
  exact hkj.keeps hP (hs i k hk)

/-! ## The operations of the Job Engine -/

section
variable (s : State)

@[simp] theorem State.slots_markError (t : TileNum) (c : ErrorCode) : (s.markError t c).slots = s.slots := by
  unfold State.markError
  split <;> rfl

theorem moves_failPart (i : SlotNum) (t : TileNum) (c : ErrorCode) : Moves s (s.failPart i t c) := by
  unfold State.failPart
  split
  · exact .refl s
  · split
    · exact .refl s
    · exact (Moves.of_slots (s.slots_markError t c)).trans
        ((Moves.of_slots rfl).trans (Moves.modJob _ i fun j _ => JobMove.setPart (by simp)))

theorem moves_completePart (i : SlotNum) (t : TileNum) : Moves s (s.completePart i t) := by
  have hdrop : Moves s (s.modJob i fun j => j.dropPart t) := Moves.modJob s i fun _ _ => .dropPart
  unfold State.completePart
  repeat' split
  · exact .refl s
  · exact .refl s
  · exact .refl s
  · exact hdrop.trans (.of_slots rfl)
  · exact hdrop

theorem moves_dropWait (i : SlotNum) : Moves s (s.dropWait i) := .of_slots rfl

theorem moves_enterDraining (i : SlotNum) : Moves s (s.enterDraining i) :=
  (Moves.modJob s i fun _ _ => .drain _).trans (moves_dropWait _ i)

theorem moves_enterRetiring (i : SlotNum) (k : RetireCause) : Moves s (s.enterRetiring i k) := by
  unfold State.enterRetiring
  split
  · exact .refl s
  · next j hj =>
    split
    · exact .setSlot_free s i rfl
    · exact .setSlot_job s i hj (.retire _)

theorem settlePart_withdrawn {b : Bool} {q q' : TilePart} (h : settlePart b q = some q') (hw : q'.cond = .withdrawn) :
    q.cond = .withdrawn := by
  unfold settlePart at h
  repeat' split at h
  all_goals cases h
  · cases hw
  · exact hw

theorem moves_tidy (i : SlotNum) (b : TilePart → Bool) :
    Moves s (s.modJob i fun j => { j with parts := j.parts.filterMap fun q => settlePart (b q) q }) :=
  Moves.modJob s i fun j _ => .parts _ fun q hq hw => by
    obtain ⟨q', hq', h⟩ := List.mem_filterMap.1 hq
    exact ⟨q', hq', settlePart_withdrawn h hw⟩

theorem moves_resolveSlot (i : SlotNum) : Moves s (s.resolveSlot i) := by
  unfold State.resolveSlot
  split
  · exact .refl s
  · next j hj =>
    dsimp only
    split
    · split
      · refine Moves.trans ?_ (moves_tidy _ i _)
        refine Moves.modJob s i fun j' hj' => .tolerated _ ?_
        cases hj.symm.trans hj'
        omega
      · exact (Moves.modJob s i fun _ _ => .failure _).trans ((moves_enterDraining _ i).trans (moves_tidy _ i _))
    · exact moves_tidy s i _

theorem moves_resolveAll : Moves s s.resolveAll := .foldl moves_resolveSlot _ s

theorem moves_rejudgePart (i : SlotNum) (t : TileNum) : Moves s (s.rejudgePart i t) := by
  have put (c : PartCond) (g : Staging) (hc : c ≠ .withdrawn) :
      Moves s (s.modJob i (fun j => j.setPart t (fun q => { q with cond := c, staging := g }))) :=
    Moves.modJob s i fun _ _ => .setPart fun _ h => absurd h hc
  unfold State.rejudgePart
  dsimp only
  repeat' split
  all_goals first
    | exact .refl s
    | exact moves_failPart s i t _
    | exact moves_completePart s i t
    | exact put _ _ (by simp)

theorem moves_rejudgeTile (t : TileNum) : Moves s (s.rejudgeTile t) := .foldl (fun u i => moves_rejudgePart u i t) _ s

theorem moves_rejudgeChanged (before : State) : Moves s (State.rejudgeChanged before s) := by
  refine .foldl (fun u t => ?_) _ s
  split
  · exact .refl u
  · exact moves_rejudgeTile u t

theorem moves_rejudgePowerWaits (t : TileNum) : Moves s (s.rejudgePowerWaits t) := by
  refine .foldl (fun u i => ?_) _ s
  repeat' split
  all_goals first
    | exact .refl u
    | exact moves_rejudgePart u i t

theorem moves_occur (src : EventSource) : Moves s (s.occur src) := by
  have hover (u : State) (w : WaitEntry) : Moves u (u.modJob w.slot Job.engineStepDone) :=
    Moves.modJob u w.slot fun _ _ => .engineStepDone
  unfold State.occur
  dsimp only
  refine Moves.trans (Moves.of_slots ?_) (Moves.foldl hover _ _)
  rfl

theorem moves_startPart (i : SlotNum) (st : Step) (t : TileNum) : Moves s (s.startPart i st t) := by
  have hadd (u : State) (hu : u.slots = s.slots) (c : PartCond) (g : Staging) (hc : c ≠ .withdrawn) :
      Moves s (u.modJob i (fun j => { j with parts := j.parts ++ [⟨t, c, g⟩] })) := by
    refine (Moves.of_slots hu).trans (Moves.modJob u i fun j _ => .parts _ fun q hq hw => ?_)
    rcases List.mem_append.1 hq with hq | hq
    · exact ⟨q, hq, hw⟩
    · rw [List.mem_singleton.1 hq] at hw
      exact absurd hw hc
  unfold State.startPart
  dsimp only
  split
  · refine hadd _ ?_ _ _ (by simp)
    exact State.slots_markError _ _ _
  · refine hadd _ ?_ _ _ (by simp)
    rfl
  · refine hadd _ ?_ _ _ (by simp)
    rfl
  · refine hadd _ ?_ _ _ (by simp)
    rfl
  · exact .of_slots rfl

theorem moves_stepCurrent (i : SlotNum) : Moves s (s.stepCurrent i) := by
  unfold State.stepCurrent
  split
  · exact .refl s
  · next st _ =>
    split
    · split
      · exact .of_slots rfl
      · exact .refl s
    · exact Moves.modJob s i fun _ _ => .pause _
    · exact (moves_occur s _).trans (Moves.modJob _ i fun _ _ => .engineStepDone)
    · exact (Moves.foldl (fun u t => moves_startPart u i st t) _ s).trans (moves_resolveSlot _ i)

theorem moves_completeStep {i : SlotNum} (h : i ∈ s.readySlots) : Moves s (s.completeStep i) := by
  have hrun := State.running_of_ready h
  unfold State.completeStep
  split
  · exact .refl s
  · next j hj =>
    dsimp only
    have hdone : Moves s (s.modJob i (fun j => { j with stepsDone := j.stepsDone + 1, engineDone := false })) :=
      Moves.modJob s i fun _ _ => .stepDone
    split
    · next hnext =>
      refine (hdone.trans (Moves.modJob _ i fun j' hj' => ?_)).trans (moves_stepCurrent _ i)
      rw [State.job_modJob, if_pos rfl, hj] at hj'
      cases hj'
      exact .goOn (hrun j hj) rfl hnext
    · exact hdone.trans (moves_enterRetiring _ i _)

/-- What each completion of a ready slot's step keeps, `advance` keeps. -/
theorem State.advance_induct {P : State → Prop} (hchoice : ∀ u n, P u → P { u with choices := n })
    (hstep : ∀ u i, P u → i ∈ u.nextSlots → P (u.completeStep i)) (n : Nat) {s : State} (hs : P s) :
    P (State.advance n s) := by
  induction n generalizing s with
  | zero => exact hs
  | succ n ih =>
    unfold State.advance
    split
    · exact hs
    · next i h => exact ih (hstep s i hs (by rw [h]; exact List.mem_singleton_self i))
    · next i j rest h =>
      refine ih (hstep _ _ (hchoice s _ hs) ?_)
      show _ ∈ s.nextSlots
      rw [h]
      exact List.getD_mod_mem _ _ _

theorem moves_advance (n : Nat) : Moves s (State.advance n s) :=
  State.advance_induct (P := Moves s) (fun _ _ h => h.trans (.of_slots rfl))
    (fun u _ h hi => h.trans (moves_completeStep u (State.ready_of_next hi))) n (.refl s)

@[simp] theorem State.slots_closeStreams : s.closeStreams.slots = s.slots := by
  refine foldl_keeps State.slots (fun u t => ?_) _ s
  unfold State.closeStream
  repeat' split
  all_goals rfl

theorem moves_settle (before : State) : Moves s (settle before s) :=
  (((moves_rejudgeChanged s before).trans (moves_resolveAll _)).trans (.of_slots (State.slots_closeStreams _))).trans
    (moves_advance _ _)

end

/-! ## What the end of an event leaves of the Job Engine's state -/

/-- What `commit` leaves: the slots, the tiles, the wait list and the sync outputs. -/
def State.work (s : State) : Vector Slot 8 × Vector TileEntry 24 × List WaitEntry × Bool × Bool :=
  (s.slots, s.tiles, s.waitList, s.sync0, s.sync1)

theorem State.work_recordChange (s : State) (t : TileNum) : (s.recordChange t).work = s.work := by
  unfold State.recordChange
  split <;> rfl

theorem State.work_noteRecordChanges (before s : State) : (State.noteRecordChanges before s).work = s.work := by
  refine foldl_keeps State.work (fun u t => ?_) _ s
  split
  · rfl
  · exact u.work_recordChange t

theorem work_commit (before s : State) : (commit before s).work = s.work := by
  have h := State.work_noteRecordChanges before (State.keepStoppedReads before s)
  unfold commit
  dsimp only
  split <;> exact h

section
variable (before s : State)
@[simp] theorem slots_commit : (commit before s).slots = s.slots := congrArg Prod.fst (work_commit before s)
@[simp] theorem tiles_commit : (commit before s).tiles = s.tiles := congrArg (fun w => w.2.1) (work_commit before s)
@[simp] theorem waitList_commit : (commit before s).waitList = s.waitList :=
  congrArg (fun w => w.2.2.1) (work_commit before s)
@[simp] theorem sync0_commit : (commit before s).sync0 = s.sync0 := congrArg (fun w => w.2.2.2.1) (work_commit before s)
@[simp] theorem sync1_commit : (commit before s).sync1 = s.sync1 := congrArg (fun w => w.2.2.2.2) (work_commit before s)

theorem moves_finish : Moves s (finish before s) := (moves_settle s before).trans (.of_slots (slots_commit _ _))
end

end Sys2Proof.Machine
end

section
/-! Every command but a taking and an admission moves the jobs it finds, and no more (R27, R62). -/

namespace Sys2Proof.Machine

/-! ## Operations that leave the slots -/

section
variable (s : State) (p : PortId)

@[simp] theorem State.slots_enterTile (t : TileNum) (st : TileState) : (s.enterTile t st).slots = s.slots := rfl
@[simp] theorem State.slots_setError (t : TileNum) (c : ErrorCode) : (s.setError t c).slots = s.slots := rfl
@[simp] theorem State.slots_dropWait (i : SlotNum) : (s.dropWait i).slots = s.slots := rfl
@[simp] theorem State.slots_idleWalkers : s.idleWalkers.slots = s.slots := rfl
@[simp] theorem State.slots_cutWalkerAccess (c : Chain) : (s.cutWalkerAccess c).slots = s.slots := rfl
@[simp] theorem State.slots_refuse : s.refuse.slots = s.slots := rfl
@[simp] theorem State.slots_examineWakes : s.examineWakes.slots = s.slots := rfl
@[simp] theorem State.slots_applyReport (t : TileNum) (w : Word) : (s.applyReport t w).slots = s.slots := rfl
@[simp] theorem State.slots_enterTraining : (s.enterTraining p).slots = s.slots := by simp [State.enterTraining]
@[simp] theorem State.slots_portUp : (s.portUp p).slots = s.slots := by simp [State.portUp]

@[simp] theorem State.slots_issueProbe (d : Position) : (s.issueProbe p d).slots = s.slots := by
  unfold State.issueProbe
  split <;> simp

theorem State.slots_enterTiles (l : List TileNum) (st : TileState) :
    (l.foldl (fun s t => s.enterTile t st) s).slots = s.slots :=
  foldl_keeps State.slots (fun u t => u.slots_enterTile t st) l s

@[simp] theorem State.slots_silence : (s.silence p).slots = s.slots := by
  unfold State.silence
  split
  · rfl
  · rw [State.slots_portUp, State.slots_enterTiles]

@[simp] theorem State.slots_probeAnswered (ws : List Word) : (s.probeAnswered p ws).slots = s.slots := by
  unfold State.probeAnswered
  repeat' split
  all_goals simp

@[simp] theorem State.slots_portFailed : (s.portFailed p).slots = s.slots := by
  unfold State.portFailed
  have htiles := State.slots_enterTiles (s.modPort p fun v => { v with
    state := .failed, attempt := 0, attemptDue := none, rxLock := false, tileLock := false }) (portTiles p) .absent
  simp only [State.raise_fields, htiles, State.modPort_fields]

@[simp] theorem State.slots_attemptFailed : (s.attemptFailed p).slots = s.slots := by
  unfold State.attemptFailed
  split <;> simp

@[simp] theorem State.slots_losePort : (s.losePort p).slots = s.slots := by
  refine foldl_keeps State.slots (fun u t => ?_) _ s
  split <;> simp

@[simp] theorem State.slots_stray (d : Position) : (s.stray p d).slots = s.slots := by
  unfold State.stray
  split <;> simp

@[simp] theorem State.slots_keepOlderWrite (e : Entry) : (s.keepOlderWrite p e).slots = s.slots := by
  simp [State.keepOlderWrite_eq]

@[simp] theorem State.slots_disarmAll : s.disarmAll.slots = s.slots := by
  refine foldl_keeps State.slots (fun u t => ?_) _ s
  rfl

@[simp] theorem State.slots_dropStartMarks : s.dropStartMarks.slots = s.slots := by
  refine foldl_keeps State.slots (fun u t => ?_) _ s
  rfl

@[simp] theorem State.slots_markAllRecords : s.markAllRecords.slots = s.slots := by
  refine foldl_keeps State.slots (fun u t => ?_) _ s
  rfl

@[simp] theorem State.slots_startFails (f : EngineFault) : (s.startFails f).slots = s.slots := by
  unfold State.startFails
  rw [foldl_keeps (f := State.failRecord) State.slots fun u t => ?_]
  · rfl
  · rfl

@[simp] theorem State.slots_latchGates : s.latchGates.slots = s.slots := by
  refine foldl_keeps State.slots (fun u t => ?_) _ s
  unfold readyGateOpenEffect sleepGateOpenEffect
  repeat' split
  all_goals rfl

@[simp] theorem State.slots_takeSettings (st : Settings) : (s.takeSettings st).slots = s.slots := by
  unfold State.takeSettings
  rw [State.slots_markAllRecords]
  dsimp only
  rw [State.slots_latchGates]

@[simp] theorem State.slots_cutControlBlockRead : s.cutControlBlockRead.slots = s.slots := by
  unfold State.cutControlBlockRead
  split <;> rfl

@[simp] theorem State.slots_endRewrite (t : TileNum) (j : Bool) : (s.endRewrite t j).slots = s.slots := by
  unfold State.endRewrite
  dsimp only
  split <;> rfl

@[simp] theorem State.slots_bringUp : (s.bringUp p).slots = s.slots := by
  unfold State.bringUp
  split <;> simp

@[simp] theorem State.slots_portsPhaseIfDone : s.portsPhaseIfDone.slots = s.slots := by
  unfold State.portsPhaseIfDone
  split
  · rw [State.slots_bringUp, State.slots_bringUp]
  · rfl

@[simp] theorem State.slots_nextStatusWrite (t : TileNum) (w : Rewrite) : (s.nextStatusWrite t w).slots = s.slots := by
  unfold State.nextStatusWrite
  split <;> simp

@[simp] theorem State.slots_faultRecord (t : TileNum) : (s.faultRecord t).slots = s.slots := by
  unfold State.faultRecord
  dsimp only
  split <;> rfl

@[simp] theorem State.slots_parkWalker (c : Chain) : (s.parkWalker c).slots = s.slots := by simp [State.parkWalker]
@[simp] theorem State.slots_endWork (c : Chain) : (s.endWork c).slots = s.slots := by simp [State.endWork]
@[simp] theorem State.slots_beginRescan (c : Chain) : (s.beginRescan c).slots = s.slots := by simp [State.beginRescan]
@[simp] theorem State.slots_resumeWalker (c : Chain) : (s.resumeWalker c).slots = s.slots := by simp [State.resumeWalker]
@[simp] theorem State.slots_failAtFetch (c : Chain) (a : Word) (h : List Byte) (k : ErrorCode) (n : Nat) :
    (s.failAtFetch c a h k n).slots = s.slots := by simp [State.failAtFetch]

@[simp] theorem State.slots_check4 (c : Chain) (a : Word) (h : List Byte) : (s.check4 c a h).slots = s.slots := by
  unfold State.check4
  split <;> simp

@[simp] theorem State.slots_rescanCause (c : Chain) : (s.rescanCause c).slots = s.slots := by
  unfold State.rescanCause
  dsimp only
  repeat' split
  all_goals simp

@[simp] theorem State.slots_offerSlot (i : SlotNum) : (s.offerSlot i).slots = s.slots := by
  unfold State.offerSlot
  dsimp only
  repeat' split
  all_goals simp

@[simp] theorem State.slots_issuePacket (t : TileNum) (g : Tag) (o : Owner) (sh : Shape) :
    (s.issuePacket p t g o sh).slots = s.slots := by simp [State.issuePacket]

@[simp] theorem State.slots_presentAfterIssue (c : Cand) : (s.presentAfterIssue p c).slots = s.slots := by
  unfold State.presentAfterIssue
  repeat' split
  all_goals rfl

end

/-! ## Transactions -/

section
variable (s : State) (p : PortId) (e : Entry)

theorem moves_endEntry (q : Bool) : Moves s (s.endEntry p e q) := by
  unfold State.endEntry
  dsimp only
  split
  · next i _ => exact Moves.trans (.of_slots (by simp)) (Moves.modJob _ i fun _ _ => .outstanding _)
  · exact .of_slots (by simp)

theorem moves_windowChanged (t : TileNum) (o : Option SlotNum) : Moves s (s.windowChanged t o) := by
  unfold State.windowChanged
  repeat' split
  · exact .refl s
  · exact moves_failPart s _ t _
  · exact .refl s

theorem moves_applyAck (b : Bool) : Moves s (s.applyAck e b) := by
  unfold State.applyAck
  dsimp only
  split
  case h_6 => exact Moves.trans (.of_slots rfl) (moves_windowChanged _ _ _)
  all_goals exact .of_slots rfl

theorem moves_wakeTold (i : SlotNum) (t : TileNum) : Moves s (s.wakeTold i t) := by
  unfold State.wakeTold
  have htold (c : PartCond) (hc : c ≠ .withdrawn) :
      Moves s (s.modJob i fun j => j.setPart t fun q => { q with cond := c }) :=
    Moves.modJob s i fun _ _ => .setPart fun q h => absurd h hc
  repeat' split
  · exact .refl s
  · exact .refl s
  · exact .refl s
  · exact htold _ (by simp)
  · exact htold _ (by simp)
  · exact Moves.modJob s i fun _ _ => .dropPart

theorem moves_streamTold (i : SlotNum) (t : TileNum) : Moves s (s.streamTold i t) := by
  unfold State.streamTold
  repeat' split
  all_goals first
    | exact .refl s
    | exact moves_completePart s i t

theorem moves_tellOwner (f : Option ErrorCode) : Moves s (s.tellOwner e f) := by
  unfold State.tellOwner
  repeat' split
  all_goals first
    | exact .refl s
    | exact moves_failPart s _ _ _
    | exact moves_wakeTold s _ _
    | exact moves_streamTold s _ _
    | exact moves_completePart s _ _

theorem moves_endWithAck (f : Option ErrorCode) (n : Bool) : Moves s (s.endWithAck p e f n) := by
  have hend := moves_endEntry s p e false
  have htable : Moves s (match f with
      | some c => (s.endEntry p e false).setError e.tile c
      | none => (s.endEntry p e false).applyAck e n) := by
    split
    · exact hend.trans (.of_slots rfl)
    · exact hend.trans (moves_applyAck _ e n)
  unfold State.endWithAck
  refine Moves.trans ?_ (moves_tellOwner _ e f)
  split
  · exact htable.trans (moves_rejudgePowerWaits _ _)
  · exact htable

theorem moves_cutEntry : Moves s (State.cutEntry p s e) := by
  have hend := moves_endEntry s p e true
  unfold State.cutEntry
  dsimp only
  split
  · exact (hend.trans (.of_slots rfl)).trans (moves_failPart _ _ _ _)
  · exact hend.trans (.of_slots rfl)
  · exact hend.trans (.of_slots rfl)

theorem moves_cutEntries : Moves s (s.cutEntries p) := .foldl (fun u e => moves_cutEntry u p e) _ s

theorem moves_enterEnumerating : Moves s (s.enterEnumerating p) :=
  (moves_cutEntries s p).trans (.of_slots (by simp [State.enterEnumerating]))

theorem moves_enumeratePort : Moves s (s.enumeratePort p) := by
  unfold State.enumeratePort
  split
  · exact .of_slots (by simp)
  · exact .of_slots (by simp)
  · exact moves_enterEnumerating s p
  · exact .refl s
  · exact .refl s

theorem moves_probeRefused : Moves s (s.probeRefused p e) :=
  (moves_endEntry s p e false).trans (.of_slots (by simp [State.probeRefused]))

theorem moves_discardData (ws : List Word) : Moves s (s.discardData p e ws) := by
  have hend := moves_endEntry s p e false
  unfold State.discardData
  dsimp only
  split
  · exact hend.trans (.of_slots rfl)
  · exact hend

theorem moves_endDestWrite (w : DestWrite) (ok : Bool) : Moves s (s.endDestWrite p e w ok) := by
  have hend := moves_endEntry s p e false
  have htable : Moves s (match w.report with
      | some r => (s.endEntry p e false).applyReport e.tile r
      | none => s.endEntry p e false) := by
    split
    · exact hend.trans (.of_slots rfl)
    · exact hend
  unfold State.endDestWrite
  dsimp only
  split
  · exact htable
  · refine Moves.trans ?_ (moves_tellOwner _ e _)
    split
    · exact htable.trans (.of_slots rfl)
    · exact htable

theorem moves_endTileEntries (t : TileNum) : Moves s (s.endTileEntries p t) :=
  (Moves.foldl (fun u e => moves_endEntry u p e true) _ s).trans (.of_slots rfl)

theorem moves_timeoutTile : Moves s (s.timeoutTile p e) := by
  have hlost : Moves s ((s.endTileEntries p e.tile).enterTile e.tile .lost) :=
    (moves_endTileEntries s p e.tile).trans (.of_slots rfl)
  unfold State.timeoutTile
  dsimp only
  exact (hlost.trans (moves_tellOwner _ e _)).trans (.foldl (fun u f => moves_tellOwner u f _) _ _)

theorem moves_faultIssuedPart (t : TileNum) (i : SlotNum) : Moves s (s.faultIssuedPart t i) := by
  unfold State.faultIssuedPart
  repeat' split
  all_goals first
    | exact .refl s
    | exact moves_failPart s _ _ _

theorem moves_takeFault (t : TileNum) (code : BitVec 4) : Moves s (s.takeFault t code) := by
  unfold State.takeFault
  dsimp only
  split
  · exact .of_slots rfl
  · refine Moves.trans (Moves.of_slots ?_) (.foldl (fun u i => moves_faultIssuedPart u t i) _ _)
    rfl

end

/-! ## Aborts, halts and faults -/

section
variable (s : State)

theorem moves_abortJob (i : SlotNum) : Moves s (s.abortJob i) := by
  unfold State.abortJob
  split
  · exact .refl s
  · split
    · exact (Moves.modJob s i fun _ _ => .abort _).trans (moves_enterRetiring _ i _)
    · refine Moves.trans (Moves.modJobs s i fun j hj => ?_) (moves_enterDraining _ i)
      exact (Relation.ReflTransGen.single (JobMove.abort true)).tail (.failure _)
    · exact Moves.modJob s i fun _ _ => .abort _
    · exact .refl s

theorem moves_abortAll : Moves s s.abortAll := .foldl moves_abortJob _ s

theorem moves_abortChain (c : Chain) : Moves s (s.abortChain c) := by
  refine .foldl (fun u i => ?_) _ s
  repeat' split
  all_goals first
    | exact .refl u
    | exact moves_abortJob u i

theorem moves_enterStopping : Moves s s.enterStopping := by
  refine Moves.trans ?_ ((moves_abortAll _).trans (.of_slots (State.slots_disarmAll _)))
  exact .of_slots rfl

theorem moves_fatalFault (f : EngineFault) : Moves s (s.fatalFault f) := by
  have hraise : Moves s (({ s with fault := f } : State).raise .engine) := .of_slots rfl
  unfold State.fatalFault
  split
  · dsimp only
    refine Moves.trans ?_ (.of_slots (foldl_keeps State.slots State.slots_faultRecord _ _))
    split
    · exact hraise.trans (moves_enterStopping _)
    · exact hraise
  · exact .refl s

theorem moves_skipQueued (c : Chain) : Moves s (s.skipQueued c) := by
  refine .foldl (fun u i => ?_) _ s
  repeat' split
  all_goals first
    | exact .refl u
    | exact moves_enterRetiring u i _

theorem moves_haltWalker (c : Chain) (k : HaltCause) : Moves s (s.haltWalker c k) := by
  have hhalt : Moves s ((s.modWalker c (Walker.halt s.now k)).raise .chain) := .of_slots (by simp)
  unfold State.haltWalker
  split
  · dsimp only
    split
    · exact hhalt
    · exact hhalt.trans (moves_skipQueued _ c)
  · exact .refl s

theorem moves_failEngineStep (i : SlotNum) (c : ErrorCode) : Moves s (s.failEngineStep i c) :=
  (Moves.modJob s i fun _ _ => .failure _).trans (moves_enterDraining _ i)

/-! ## Walkers -/

theorem moves_endWork_haltWalker (c : Chain) (k : HaltCause) : Moves s ((s.endWork c).haltWalker c k) :=
  Moves.trans (.of_slots (by simp)) (moves_haltWalker _ c k)

theorem moves_beginFetch (c : Chain) (a : Word) : Moves s (s.beginFetch c a) := by
  unfold State.beginFetch
  split
  · exact .of_slots (by simp)
  · exact moves_endWork_haltWalker s c _

theorem moves_followLink (c : Chain) (a : Word) : Moves s (s.followLink c a) := by
  unfold State.followLink
  split
  · exact .of_slots (by simp)
  · exact moves_beginFetch s c a

theorem moves_fetchHeader (c : Chain) (a : Word) (r : ReadResult) : Moves s (s.fetchHeader c a r) := by
  unfold State.fetchHeader
  repeat' split
  all_goals first
    | exact moves_endWork_haltWalker s c _
    | exact .of_slots (by simp)

theorem moves_rescanHeader (c : Chain) (a : Word) (r : ReadResult) : Moves s (s.rescanHeader c a r) := by
  unfold State.rescanHeader
  repeat' split
  all_goals first
    | exact moves_endWork_haltWalker s c _
    | exact .of_slots (by simp)

theorem moves_rescanValue (c : Chain) (r : ReadResult) : Moves s (s.rescanValue c r) := by
  unfold State.rescanValue
  dsimp only
  repeat' split
  all_goals first
    | exact moves_endWork_haltWalker s c _
    | exact .of_slots (by simp)

theorem moves_claim (c : Chain) (d : Fetched) (i : SlotNum) : Moves s (s.claim c d i) :=
  (Moves.setSlot_free s i (v := .claimed c) rfl).trans (.of_slots (by simp [State.claim]))

theorem moves_fetchPassed (c : Chain) (d : Fetched) : Moves s (s.fetchPassed c d) := by
  unfold State.fetchPassed
  dsimp only
  repeat' split
  all_goals first
    | exact moves_claim s c d _
    | exact .of_slots (by simp)

theorem moves_fetchSteps (c : Chain) (a : Word) (h : List Byte) (r : ReadResult) : Moves s (s.fetchSteps c a h r) := by
  unfold State.fetchSteps
  repeat' split
  all_goals first
    | exact moves_endWork_haltWalker s c _
    | exact moves_fetchPassed s c _
    | exact .of_slots (by simp)

theorem moves_directlyRetired (c : Chain) (d : DirectRetire) : Moves s (s.directlyRetired c d) := by
  unfold State.directlyRetired
  dsimp only
  have htaken : Moves s (if d.notify then (s.modWalker c fun w => { w with park := d.addr, link := d.link, work := .none }).raise
      .job else s.modWalker c fun w => { w with park := d.addr, link := d.link, work := .none }) := by
    split <;> exact .of_slots (by simp)
  repeat' split
  all_goals simp only [*, if_true, if_false, Bool.false_eq_true] at htaken
  all_goals first
    | exact htaken
    | exact htaken.trans (moves_haltWalker _ c _)
    | exact htaken.trans (moves_followLink _ c _)

theorem moves_retireFailed (i : SlotNum) : Moves s (s.retireFailed i) :=
  (Moves.setSlot_free s i rfl).trans (moves_fatalFault _ _)

theorem moves_retired (i : SlotNum) (j : Job) (r : Retirement) : Moves s (s.retired i j r) := by
  have hfree : Moves s ((s.setSlot i .free).offerSlot i) := (Moves.setSlot_free s i (v := .free) rfl).trans (.of_slots (by simp))
  unfold State.retired
  dsimp only
  have hnotice : Moves s (if j.notify then ((s.setSlot i .free).offerSlot i).raise .job else (s.setSlot i .free).offerSlot i) := by
    split
    · exact hfree.trans (.of_slots rfl)
    · exact hfree
  split
  · exact hnotice.trans (moves_haltWalker _ _ _)
  · exact hnotice

theorem moves_startWalker (c : Chain) (a : Word) : Moves s (s.startWalker c a) :=
  Moves.trans (.of_slots (by simp)) (moves_followLink _ c a)

theorem moves_statusWriteFailed (t : TileNum) (w : Rewrite) : Moves s (s.statusWriteFailed t w) := by
  unfold State.statusWriteFailed
  split
  · exact .of_slots (by simp)
  · exact Moves.trans (.of_slots (by simp)) (moves_fatalFault _ _)
  · exact Moves.trans (.of_slots (by simp)) (moves_fatalFault _ _)
  · exact .of_slots (by simp)
  · exact .of_slots (by simp)

/-! ## Issue and staging -/

theorem moves_holdRiders (t : TileNum) : Moves s (s.holdRiders t) := by
  refine .foldl (fun u i => ?_) _ s
  split
  · exact Moves.modJob u i fun _ _ => .setPart (by simp)
  · exact .refl u

theorem moves_segmentIssued (i : SlotNum) (t : TileNum) (st : Step) (o : Option Stream) (n : Nat) :
    Moves s (s.segmentIssued i t st o n) := by
  unfold State.segmentIssued
  dsimp only
  refine Moves.trans (.of_slots rfl) (Moves.modJob _ i fun _ _ => .setPart fun q h => ?_)
  repeat' split at h
  all_goals first
    | exact h
    | cases h

theorem moves_issue (p : PortId) (c : Cand) (g : Tag) : Moves s (s.issue p c g) := by
  unfold State.issue
  split
  · exact .of_slots (by simp)
  · next i _ =>
    split
    · exact .refl s
    · split
      · exact .refl s
      · next st _ =>
        dsimp only
        have hcount (sh : Shape) (o : Owner) : Moves s ((s.issuePacket p c.tile g o sh).modJob i
            fun j => { j with outstanding := j.outstanding + 1 }) :=
          Moves.trans (.of_slots (by simp)) (Moves.modJob _ i fun _ _ => .outstanding _)
        split
        · exact (hcount _ _).trans (moves_segmentIssued _ _ _ _ _ _)
        · have hissued (u : State) : Moves u (u.modJob i fun j => j.setPart c.tile fun q => { q with cond := .issued }) :=
            Moves.modJob u i fun _ _ => .setPart (by simp)
          have hgrant (u : State) : Moves u (u.recordGrant.holdRiders c.tile) := by
            refine Moves.trans (Moves.of_slots ?_) (moves_holdRiders _ _)
            rfl
          split
          · exact ((hcount _ _).trans (hissued _)).trans (hgrant _)
          · exact (hcount _ _).trans (hissued _)

theorem moves_packetIssueEffect (p : PortId) : Moves s (packetIssueEffect p s) := by
  unfold packetIssueEffect
  repeat' split
  · next c g _ _ => exact (moves_issue s p c g).trans (.of_slots (by simp))
  · exact .refl s
  · exact .refl s

theorem moves_endStagingRead (i : SlotNum) (t : TileNum) (g : Staging) : Moves s (s.endStagingRead i t g) :=
  Moves.modJob s i fun _ _ => .setPart fun q h => by
    split at h <;> exact h

theorem moves_stagingReadDoneEffect (i : SlotNum) (t : TileNum) (r : ReadResult) : Moves s (stagingReadDoneEffect i t r s) := by
  unfold stagingReadDoneEffect State.stagingReadEnds
  repeat' split
  · exact .of_slots rfl
  · exact moves_endStagingRead s i t _
  · exact (moves_endStagingRead s i t _).trans ((moves_failPart _ i t _).trans (moves_finish _ _))
  · exact .refl s
  · exact .refl s

theorem moves_resultWriteDoneEffect (i : SlotNum) (last ok : Bool) : Moves s (resultWriteDoneEffect i last ok s) := by
  unfold resultWriteDoneEffect
  split
  · exact .refl s
  · next j hj =>
    split
    · next r hr =>
      repeat' split
      · exact .setSlot_free s i rfl
      · exact .setSlot_job s i hj (.nextWrite _ (by rw [hr]; rfl))
      · exact .refl s
      · exact (moves_retireFailed s i).trans (moves_finish _ _)
      · exact .refl s
    · exact .refl s

theorem moves_pauseExpiryEffect (i : SlotNum) : Moves s (pauseExpiryEffect i s) := by
  unfold pauseExpiryEffect
  repeat' split
  · exact .refl s
  · refine Moves.trans (Moves.modJobs s i fun j _ => ?_) (moves_finish _ _)
    exact Relation.ReflTransGen.head (.pause none) (.single .engineStepDone)
  · exact .refl s

theorem moves_waitTimeoutEffect (i : SlotNum) : Moves s (waitTimeoutEffect i s) := by
  have hover : Moves s (finish s ((s.dropWait i).modJob i Job.engineStepDone)) :=
    (moves_dropWait s i).trans ((Moves.modJob _ i fun _ _ => .engineStepDone).trans (moves_finish _ _))
  have hfail : Moves s (finish s ((s.dropWait i).failEngineStep i .waitTimeout)) :=
    (moves_dropWait s i).trans ((moves_failEngineStep _ i _).trans (moves_finish _ _))
  unfold waitTimeoutEffect
  exact iteInduction (fun _ => iteInduction (fun _ => hover) fun _ => hfail) fun _ => .refl s

end

/-! ## All commands -/

/-- The commands that bring a job into a slot or into RUNNING. -/
def bringsJob : Instr → Bool
  | .jobAdmission _ | .takenWriteDone _ _ => true
  | _ => false

theorem slots_replicate_job (i : SlotNum) : ((Vector.replicate 8 Slot.free)[i]).job? = none := by
  simp [Slot.job?]

theorem Moves.of_free {s t : State} (h : t.slots = Vector.replicate 8 .free) : Moves s t := fun i j hj => by
  rw [State.job, State.slot, h, slots_replicate_job] at hj
  cases hj

theorem effectOf_moves {c : Instr} (s : State) (hc : bringsJob c = false) : Moves s (effectOf c s) := by
  have hfin {u : State} (h : Moves s u) : Moves s (finish s u) := h.trans (moves_finish s u)
  cases c
  case start => simp only [effectOf, startEffect]; repeat' split
                all_goals exact .of_slots (by simp)
  case stop =>
    simp only [effectOf, stopEffect]
    split
    · exact hfin ((Moves.of_slots (by simp)).trans (moves_enterStopping _))
    · exact .of_slots rfl
  case reset => exact .of_free rfl
  case hardReset => exact .of_free rfl
  case enumerate =>
    simp only [effectOf, enumerateEffect]
    split
    · exact hfin ((moves_enumeratePort s .A).trans (moves_enumeratePort _ .B))
    · exact .of_slots rfl
  case rescanN => simp only [effectOf, rescanNEffect, State.rescan]; split <;> exact .of_slots (by simp)
  case rescanP => simp only [effectOf, rescanPEffect, State.rescan]; split <;> exact .of_slots (by simp)
  case resumeN =>
    simp only [effectOf, resumeNEffect, State.resume]; repeat' split
    all_goals exact .of_slots (by simp)
  case resumeP =>
    simp only [effectOf, resumePEffect, State.resume]; repeat' split
    all_goals exact .of_slots (by simp)
  case abortN =>
    simp only [effectOf, abortNEffect, State.abortCommand]
    split
    · exact hfin ((moves_haltWalker s _ _).trans (moves_abortChain _ _))
    · exact .of_slots rfl
  case abortP =>
    simp only [effectOf, abortPEffect, State.abortCommand]
    split
    · exact hfin ((moves_haltWalker s _ _).trans (moves_abortChain _ _))
    · exact .of_slots rfl
  case unknownCommand code => simp only [effectOf, unknownCommandEffect]; split <;> exact .of_slots rfl
  case cbaddrWrite v => simp only [effectOf, cbaddrWriteEffect]; split <;> exact .of_slots rfl
  case noticeWrite v => exact .of_slots rfl
  case noticeenWrite v => exact .of_slots rfl
  case tilechgRead off len => simp only [effectOf, tilechgReadEffect]; split <;> exact .of_slots rfl
  case registerWriteIgnored off len => simp only [effectOf, registerWriteIgnoredEffect]; split <;> exact .of_slots rfl
  case resetNRelease => simp only [effectOf, resetNReleaseEffect]; split <;> exact .of_slots rfl
  case trigPinChange i l =>
    simp only [effectOf, trigPinChangeEffect]
    split
    · exact .refl s
    · cases i <;> exact .of_slots rfl
  case trigFilterExpiry i =>
    have hset (f : TrigFilter) : Moves s (s.setTrig i f) := .of_slots (by cases i <;> rfl)
    simp only [effectOf, trigFilterExpiryEffect]
    repeat' split
    · exact hfin ((hset _).trans (moves_occur _ _))
    · exact hset _
    · exact .refl s
  case syncPulseExpiry o => cases o <;> exact .of_slots rfl
  case receiverLock p =>
    have hlock : Moves s (s.modPort p fun v => { v with rxLock := true }) := .of_slots (by simp)
    simp only [effectOf, receiverLockEffect]
    repeat' split
    · exact hfin (hlock.trans (moves_enterEnumerating _ p))
    all_goals first
      | exact hlock
      | exact .refl s
  case tileLock p =>
    have hlock : Moves s (s.modPort p fun v => { v with tileLock := true }) := .of_slots (by simp)
    simp only [effectOf, tileLockEffect]
    repeat' split
    · exact hfin (hlock.trans (moves_enterEnumerating _ p))
    all_goals first
      | exact hlock
      | exact .refl s
  case hardError p =>
    have hsilent : Moves s (s.modPort p fun v => { v with transmitting := none }) := .of_slots (by simp)
    have hcut : Moves s ((((s.modPort p fun v => { v with transmitting := none }).cutEntries p).losePort p).enterTraining p) :=
      hsilent.trans ((moves_cutEntries _ p).trans (.of_slots (by rw [State.slots_enterTraining, State.slots_losePort])))
    simp only [effectOf, hardErrorEffect]
    repeat' split
    · exact hfin (.of_slots (by simp))
    · exact .refl s
    · exact hfin hcut
    · exact hfin hcut
    · exact .refl s
    · exact .refl s
  case ackReceived p d g st =>
    simp only [effectOf, ackReceivedEffect]
    split
    · split
      · exact hfin (.of_slots (by simp))
      · next e _ =>
        have hold : Moves s (s.keepOlderWrite p e) := .of_slots (by simp)
        split
        · exact hfin (hold.trans (moves_probeRefused _ p e))
        · exact hfin (hold.trans (moves_endWithAck _ p e _ _))
    · exact .refl s
  case dataReceived p d g ws =>
    simp only [effectOf, dataReceivedEffect]
    split
    · split
      · exact hfin (.of_slots (by simp))
      · next e _ =>
        have hold : Moves s (s.keepOlderWrite p e) := .of_slots (by simp)
        repeat' split
        · exact hfin (hold.trans ((moves_endEntry _ p e false).trans (.of_slots (by simp))))
        · exact hfin (hold.trans (moves_probeRefused _ p e))
        · exact hfin (hold.trans (moves_discardData _ p e _))
        · exact hold.trans (.of_slots (by simp [State.startDestWrite]))
        · exact hfin (hold.trans (moves_endWithAck _ p e _ _))
    · exact .refl s
  case faultNotice p d code =>
    simp only [effectOf, faultNoticeEffect]
    split
    · exact hfin (moves_takeFault s _ _)
    · exact .refl s
  case frameNotice p d =>
    simp only [effectOf, frameNoticeEffect]
    split
    · exact hfin (moves_occur s _)
    · exact .refl s
  case linkErrorPacket p bs =>
    simp only [effectOf, linkErrorPacketEffect]
    repeat' split
    all_goals exact .of_slots rfl
  case transmissionEnd p =>
    simp only [effectOf, transmissionEndEffect]
    split
    · exact .refl s
    · exact .of_slots (by simp)
  case timebaseTick => exact .of_slots rfl
  case attemptTimerExpiry p =>
    simp only [effectOf, attemptTimerExpiryEffect]
    split
    · exact hfin (.of_slots (by simp))
    · exact .refl s
  case chainResetWaitExpiry p =>
    simp only [effectOf, chainResetWaitExpiryEffect]
    split
    · refine hfin (.of_slots ?_)
      have hreset (u : State) : ((portTiles p).foldl (fun s t => s.modTile t TileEntry.chainReset) u).slots = u.slots :=
        foldl_keeps (f := fun (s : State) t => s.modTile t TileEntry.chainReset) State.slots (fun _ _ => rfl) _ _
      rw [State.slots_issueProbe, hreset]
      simp
    · exact .refl s
  case probeDeadlineExpiry p =>
    simp only [effectOf, probeDeadlineExpiryEffect]
    split
    · next e _ => exact hfin ((moves_endEntry s p e true).trans (.of_slots (by simp)))
    · exact .refl s
  case replyDeadlineExpiry p g =>
    simp only [effectOf, replyDeadlineExpiryEffect]
    split
    · next e _ =>
      exact (moves_timeoutTile s p e).trans ((moves_settle _ s).trans (.of_slots (by simp)))
    · exact .refl s
  case settleTimerExpiry t =>
    simp only [effectOf, settleTimerExpiryEffect]
    split
    · exact hfin (.of_slots rfl)
    · exact .refl s
  case restTimerExpiry t =>
    simp only [effectOf, restTimerExpiryEffect]
    split
    · exact hfin (.of_slots rfl)
    · exact .refl s
  case pollTimerExpiry c => simp only [effectOf, pollTimerExpiryEffect]; split <;> exact .of_slots (by simp)
  case waitTimeout i => exact moves_waitTimeoutEffect s i
  case pauseExpiry i => exact moves_pauseExpiryEffect s i
  case wakeHistoryAgeOut =>
    simp only [effectOf, wakeHistoryAgeOutEffect]
    repeat' split
    all_goals exact .of_slots rfl
  case sleepGateOpen t => simp only [effectOf, sleepGateOpenEffect]; split <;> exact .of_slots rfl
  case readyGateOpen t => simp only [effectOf, readyGateOpenEffect]; split <;> exact .of_slots rfl
  case controlBlockReadDone r =>
    simp only [effectOf, controlBlockReadDoneEffect]
    repeat' split
    all_goals exact .of_slots (by simp)
  case statusWriteDone t ok =>
    simp only [effectOf, statusWriteDoneEffect]
    repeat' split
    · exact .refl s
    · exact .of_slots (by simp)
    · exact .of_slots (by simp)
    · exact hfin (.of_slots (by simp))
    · exact hfin (moves_statusWriteFailed s t _)
  case statusRewriteStart t => simp only [effectOf, statusRewriteStartEffect]; split <;> exact .of_slots rfl
  case headerReadDone c r =>
    simp only [effectOf, headerReadDoneEffect]
    split
    · exact hfin (moves_fetchHeader s c _ r)
    · exact hfin (moves_rescanHeader s c _ r)
    · exact .refl s
  case stepReadDone c r =>
    simp only [effectOf, stepReadDoneEffect]
    split
    · exact hfin (moves_fetchSteps s c _ _ r)
    · exact .refl s
  case rescanReadDone c r =>
    simp only [effectOf, rescanReadDoneEffect]
    split
    · exact hfin (moves_rescanValue s c r)
    · exact .refl s
  case fetchFailWriteDone c last ok =>
    simp only [effectOf, fetchFailWriteDoneEffect]
    repeat' split
    · exact .of_slots (by simp)
    · exact .of_slots (by simp)
    · exact .refl s
    · exact hfin (moves_directlyRetired s c _)
    · exact hfin ((Moves.of_slots (by simp)).trans (moves_fatalFault _ _))
    · exact .refl s
  case resultWriteDone i last ok => exact moves_resultWriteDoneEffect s i last ok
  case stateWordWriteDone i ok =>
    simp only [effectOf, stateWordWriteDoneEffect]
    repeat' split
    · exact .refl s
    · exact .refl s
    · exact hfin (moves_retired s i _ _)
    · exact hfin (moves_retireFailed s i)
    · exact .refl s
  case stagingReadDone i t r => exact moves_stagingReadDoneEffect s i t r
  case destinationWriteDone p g ok =>
    simp only [effectOf, destinationWriteDoneEffect]
    repeat' split
    · exact .of_slots (by simp)
    · exact hfin (moves_endDestWrite s p _ _ _)
    · exact .refl s
  case packetIssue p => exact moves_packetIssueEffect s p
  case slotOffer i =>
    simp only [effectOf, slotOfferEffect]
    split
    · next c d _ => exact (moves_claim s c d i).trans (.of_slots (by simp))
    · exact .refl s
  case jobDrained i =>
    simp only [effectOf, jobDrainedEffect]
    repeat' split
    · exact .refl s
    · exact hfin (moves_enterRetiring s i _)
    · exact .refl s
  case rescanPending c => simp only [effectOf, rescanPendingEffect]; split <;> exact .of_slots (by simp)
  case resumeDeferred c => simp only [effectOf, resumeDeferredEffect]; split <;> exact .of_slots (by simp)
  case engineEntersRunning =>
    simp only [effectOf, engineEntersRunningEffect]
    split
    · have hrun : Moves s (({ s with engine := .running, nextOrder := 1 } : State).raise .engine) := .of_slots rfl
      exact hfin (hrun.trans ((moves_startWalker _ _ _).trans (moves_startWalker _ _ _)))
    · exact .refl s
  case engineStopped => simp only [effectOf, engineStoppedEffect]; split <;> exact .of_slots rfl
  all_goals cases hc

/-- What holds of every job: what each move and an admission keep, and a job that is taken has. -/
theorem effectOf_jobs {P : Job → Prop} (hmove : ∀ j k, P j → JobMove j k → P k)
    (c : Instr) (s : State)
    (hadmit : s.engine = .running → ∀ j w, P j → j.phase.isQueued = true → P { j with phase := .running, startedAt := w })
    (hnew : ∀ c d i n, (s.walker c).work = .takenWrite d i → P (d.job c n)) (hs : ∀ i, ∀ j ∈ s.job i, P j) :
    ∀ i, ∀ j ∈ (effectOf c s).job i, P j := by
  have hadm (u : State) (i : SlotNum) (hengine : u.engine = s.engine) (ha : u.admissible i = true)
      (hu : ∀ i, ∀ j ∈ u.job i, P j) : ∀ k, ∀ j ∈ (u.admitJob i).job k, P j := by
    have hrun : s.engine = .running ∧ ∀ j, u.job i = some j → j.phase.isQueued = true := by
      unfold State.admissible at ha
      split at ha
      · cases ha
      · next m hm =>
        simp only [Bool.and_eq_true, State.inRunning, decide_eq_true_eq] at ha
        refine ⟨hengine ▸ ha.1.1, fun j hj => ?_⟩
        cases hm.symm.trans hj
        exact ha.1.2
    refine (moves_stepCurrent _ i).keeps hmove fun k j hj => ?_
    rw [Option.mem_def, State.job_modJob] at hj
    split at hj
    · obtain ⟨j', hj', rfl⟩ := Option.map_eq_some_iff.1 hj
      exact hadmit hrun.1 j' _ (hu i j' hj') (hrun.2 j' hj')
    · exact hu k j hj
  by_cases hc : bringsJob c = false
  · exact (effectOf_moves s hc).keeps hmove hs
  cases c
  case jobAdmission i =>
    simp only [effectOf, jobAdmissionEffect]
    split
    · next ha => exact (moves_finish s _).keeps hmove (hadm s i rfl ha hs)
    · exact hs
  case takenWriteDone c ok =>
    simp only [effectOf, takenWriteDoneEffect]
    split
    · next d i hwork =>
      split
      · refine (moves_finish s _).keeps hmove ?_
        have hmod (f : Walker → Walker) : Moves s (s.modWalker c f) := .of_slots (by simp)
        have hentered (u : State) (hu : Moves s u) : ∀ k, ∀ j ∈ (u.enterSlot c d i).job k, P j := fun k j hj => by
          have hj : (u.setSlot i (.job (d.job c u.nextOrder))).job k = some j := hj
          rw [State.job_setSlot] at hj
          split at hj
          · cases hj
            exact hnew c d i _ hwork
          · exact hu.keeps hmove hs k j hj
        unfold State.taken
        dsimp only
        repeat' split
        · exact ((hmod _).trans (Moves.setSlot_free _ i rfl)).keeps hmove hs
        · exact (moves_abortJob _ i).keeps hmove (hentered _ (hmod _))
        · exact (moves_enterRetiring _ i _).keeps hmove (hentered _ (hmod _))
        · exact (moves_abortJob _ i).keeps hmove (hentered _ (hmod _))
        · next ha =>
          refine (moves_followLink _ c _).keeps hmove (hadm _ i ?_ ha (hentered _ (hmod _)))
          exact State.engine_of_fixed ((State.fixed_enterSlot _ c d i).trans (State.fixed_modWalker s c _))
        · exact (moves_followLink _ c _).keeps hmove (hentered _ (hmod _))
      · have hfree : Moves s ((s.endWork c).setSlot i .free) :=
          (Moves.of_slots (State.slots_endWork s c)).trans (Moves.setSlot_free _ i rfl)
        exact ((hfree.trans (moves_fatalFault _ _)).trans (moves_finish s _)).keeps hmove hs
    · exact hs
  all_goals exact absurd rfl hc

end Sys2Proof.Machine
end

section
/-! What the end of an event does to one slot and to one tile, said once for each piece of `settle`: the pieces work slot by slot
and tile by tile, so each result is a function of the slot or the tile alone (R32 to R37, R108). -/

namespace Sys2Proof.Machine

/-! ## Folds over slots and tiles -/

/-- The job in a slot changed. -/
def Slot.mapJob (f : Job → Job) : Slot → Slot
  | .job j => .job (f j)
  | v => v

@[simp] theorem Slot.job?_mapJob (f : Job → Job) (v : Slot) : (v.mapJob f).job? = v.job?.map f := by
  cases v <;> rfl

@[simp] theorem Slot.mapJob_id (v : Slot) : v.mapJob (fun j => j) = v := by
  cases v <;> rfl

theorem Slot.mapJob_mapJob (f g : Job → Job) (v : Slot) : (v.mapJob f).mapJob g = v.mapJob fun j => g (f j) := by
  cases v <;> rfl

theorem Slot.mapJob_congr {f g : Job → Job} {v : Slot} (h : ∀ j, v.job? = some j → f j = g j) : v.mapJob f = v.mapJob g := by
  cases v with
  | job j => exact congrArg Slot.job (h j rfl)
  | _ => rfl

theorem Slot.mapJob_eq_self {f : Job → Job} {v : Slot} (h : ∀ j, v.job? = some j → f j = j) : v.mapJob f = v :=
  (Slot.mapJob_congr h).trans v.mapJob_id

theorem State.slot_of_job {s : State} {i : SlotNum} {j : Job} (h : s.job i = some j) : s.slot i = .job j := by
  unfold State.job at h
  cases hv : s.slot i <;> simp_all [Slot.job?]

theorem State.slot_modJob_eq (s : State) (i k : SlotNum) (f : Job → Job) :
    (s.modJob i f).slot k = if i = k then (s.slot i).mapJob f else s.slot k := by
  rw [State.slot_modJob]
  cases s.slot i <;> rfl

theorem State.job_of_slot {s t : State} {i : SlotNum} (h : t.slot i = s.slot i) : t.job i = s.job i := congrArg Slot.job? h

theorem State.slot_of_slots {s t : State} (h : t.slots = s.slots) (i : SlotNum) : t.slot i = s.slot i := by
  simp only [State.slot, h]

theorem State.tile_of_tiles {s t : State} (h : t.tiles = s.tiles) (x : TileNum) : t.tile x = s.tile x := by
  simp only [State.tile, h]

theorem mem_allSlots (i : SlotNum) : i ∈ allSlots := List.mem_finRange i
theorem mem_allTiles (t : TileNum) : t ∈ allTiles := List.mem_finRange t

/-- A fold of steps that each work on their own slot alone. -/
theorem State.slot_foldl_of_nodup {P : State → Prop} {f : State → SlotNum → State} {F : SlotNum → Slot → Slot}
    (hP : ∀ s i, P s → P (f s i))
    (hf : ∀ s i, P s → ∀ k, (f s i).slot k = if i = k then F i (s.slot i) else s.slot k)
    (l : List SlotNum) (hl : l.Nodup) {s : State} (hs : P s) (k : SlotNum) :
    (l.foldl f s).slot k = if k ∈ l then F k (s.slot k) else s.slot k := by
  induction l generalizing s with
  | nil => simp
  | cons i l ih =>
    obtain ⟨hi, hl⟩ := List.nodup_cons.1 hl
    rw [List.foldl_cons, ih hl (hP s i hs), hf s i hs]
    by_cases hik : i = k
    · subst hik
      simp [hi]
    · simp [hik, Ne.symm hik]

theorem State.slot_foldl {P : State → Prop} {f : State → SlotNum → State} {F : SlotNum → Slot → Slot}
    (hP : ∀ s i, P s → P (f s i))
    (hf : ∀ s i, P s → ∀ k, (f s i).slot k = if i = k then F i (s.slot i) else s.slot k)
    {s : State} (hs : P s) (k : SlotNum) : (allSlots.foldl f s).slot k = F k (s.slot k) := by
  rw [State.slot_foldl_of_nodup hP hf allSlots (List.nodup_finRange 8) hs k, if_pos (mem_allSlots k)]

/-- A fold of steps that each work on their own tile alone. -/
theorem State.tile_foldl_of_nodup {P : State → Prop} {f : State → TileNum → State} {F : TileNum → TileEntry → TileEntry}
    (hP : ∀ s t, P s → P (f s t))
    (hf : ∀ s t, P s → ∀ u, (f s t).tile u = if t = u then F t (s.tile t) else s.tile u)
    (l : List TileNum) (hl : l.Nodup) {s : State} (hs : P s) (u : TileNum) :
    (l.foldl f s).tile u = if u ∈ l then F u (s.tile u) else s.tile u := by
  induction l generalizing s with
  | nil => simp
  | cons i l ih =>
    obtain ⟨hi, hl⟩ := List.nodup_cons.1 hl
    rw [List.foldl_cons, ih hl (hP s i hs), hf s i hs]
    by_cases hik : i = u
    · subst hik
      simp [hi]
    · simp [hik, Ne.symm hik]

theorem State.tile_foldl {P : State → Prop} {f : State → TileNum → State} {F : TileNum → TileEntry → TileEntry}
    (hP : ∀ s t, P s → P (f s t))
    (hf : ∀ s t, P s → ∀ u, (f s t).tile u = if t = u then F t (s.tile t) else s.tile u)
    {s : State} (hs : P s) (u : TileNum) : (allTiles.foldl f s).tile u = F u (s.tile u) := by
  rw [State.tile_foldl_of_nodup hP hf allTiles (List.nodup_finRange 24) hs u, if_pos (mem_allTiles u)]

/-- What a preorder relates at each step of a fold, it relates over the whole fold. -/
theorem foldl_rel {α : Type} {R : State → State → Prop} (hrefl : ∀ s, R s s) (htrans : ∀ s t u, R s t → R t u → R s u)
    {f : State → α → State} (hf : ∀ s a, R s (f s a)) (l : List α) (s : State) : R s (l.foldl f s) := by
  induction l generalizing s with
  | nil => exact hrefl s
  | cons a l ih => exact htrans _ _ _ (hf s a) (ih _)

/-! ## What the pieces read -/

/-- In flight, and what a judgement reads, is as it was after the Job Engine's work. -/
theorem JobFrame.hasInFlight {s t : State} (h : JobFrame s t) (i : SlotNum) (x : TileNum) :
    t.hasInFlight i x = s.hasInFlight i x := by
  unfold State.hasInFlight
  rw [h.port]

theorem JobFrame.powerInFlight {s t : State} (h : JobFrame s t) (x : TileNum) : t.powerInFlight x = s.powerInFlight x := by
  unfold State.powerInFlight
  rw [h.port]

theorem operandsFit_of_eraseWork {e f : TileEntry} (h : f.eraseWork = e.eraseWork) (st : Step) :
    operandsFit f st = operandsFit e st := by
  have hgeometry : f.geometry = e.geometry := (congrArg TileEntry.geometry h :)
  have hroll : f.roll = e.roll := (congrArg TileEntry.roll h :)
  unfold operandsFit
  rw [hgeometry, hroll]

theorem entryCheck_of_eraseWork {e f : TileEntry} (h : f.eraseWork = e.eraseWork) (st : Step) :
    entryCheck f st = entryCheck e st := by
  have hstate : f.state = e.state := (congrArg TileEntry.state h :)
  unfold entryCheck
  rw [hstate, operandsFit_of_eraseWork h]

/-- A judgement reads the ports and what no work of the Job Engine changes of a tile. -/
theorem State.judge_congr {s t : State} {x : TileNum} (htile : (t.tile x).eraseWork = (s.tile x).eraseWork)
    (hpower : t.powerInFlight x = s.powerInFlight x) (st : Step) : t.judge st x = s.judge st x := by
  have hstate : (t.tile x).state = (s.tile x).state := (congrArg TileEntry.state htile :)
  unfold State.judge
  rw [entryCheck_of_eraseWork htile, hpower, hstate]

theorem JobFrame.judge {s t : State} (h : JobFrame s t) (st : Step) (x : TileNum) : t.judge st x = s.judge st x :=
  State.judge_congr (h.tile x) (h.powerInFlight x) st

/-! ## A part fails or completes -/

/-- What a failure makes of the job. -/
def Job.failPart (x : TileNum) (c : ErrorCode) (j : Job) : Job :=
  match j.part? x with
  | none => j
  | some q => if q.cond.hasFailed then j else j.setPart x fun q => { q with cond := .failing c, staging := .empty }

/-- What a completion makes of the job. -/
def Job.completePart (x : TileNum) (j : Job) : Job :=
  match j.part? x with
  | none => j
  | some q => if q.cond.hasFailed then j else j.dropPart x

section
variable (s : State)

@[simp] theorem State.slot_modTile (t : TileNum) (f : TileEntry → TileEntry) (k : SlotNum) :
    (s.modTile t f).slot k = s.slot k := rfl

@[simp] theorem State.slot_markError (t : TileNum) (c : ErrorCode) (k : SlotNum) : (s.markError t c).slot k = s.slot k :=
  State.slot_of_slots (s.slots_markError t c) k

/-- To know an operation on the job of slot `i` slot by slot, it is enough to know it where the slot holds a job. -/
theorem State.slot_of_job_op {s t : State} {i k : SlotNum} {f : Job → Job} (hnone : s.job i = none → t.slot k = s.slot k)
    (hsome : ∀ j, s.job i = some j → t.slot k = if i = k then .job (f j) else s.slot k) :
    t.slot k = if i = k then (s.slot i).mapJob f else s.slot k := by
  cases hj : s.job i with
  | none =>
    have hself : (s.slot i).mapJob f = s.slot i := Slot.mapJob_eq_self fun j h => by
      rw [show (s.slot i).job? = s.job i from rfl, hj] at h
      cases h
    rw [hnone hj, hself]
    split
    · next h => rw [h]
    · rfl
  | some j => rw [hsome j hj, State.slot_of_job hj]; rfl

/-- The slot itself, where it is left. -/
theorem State.slot_self {i k : SlotNum} {j : Job} (hj : s.job i = some j) :
    s.slot k = if i = k then .job j else s.slot k := by
  split
  · next h => rw [← h, State.slot_of_job hj]
  · rfl

theorem State.slot_modJob_job {i k : SlotNum} {j : Job} (hj : s.job i = some j) (f : Job → Job) :
    (s.modJob i f).slot k = if i = k then .job (f j) else s.slot k := by
  rw [State.slot_modJob_eq, State.slot_of_job hj]
  rfl

theorem State.slot_failPart (i k : SlotNum) (t : TileNum) (c : ErrorCode) :
    (s.failPart i t c).slot k = if i = k then (s.slot i).mapJob (Job.failPart t c) else s.slot k := by
  refine State.slot_of_job_op (fun hj => ?_) fun j hj => ?_
  · simp [State.failPart, hj]
  · unfold State.failPart Job.failPart
    rw [hj, Option.bind_some]
    cases j.part? t with
    | none => exact s.slot_self hj
    | some q =>
      dsimp only
      split
      · exact s.slot_self hj
      · refine (State.slot_modJob_job _ (j := j) ?_ _).trans ?_
        · exact (State.job_of_slot (State.slot_markError s t c i)).trans hj
        · rw [State.slot_modTile, State.slot_markError]

theorem State.slot_completePart (i k : SlotNum) (t : TileNum) :
    (s.completePart i t).slot k = if i = k then (s.slot i).mapJob (Job.completePart t) else s.slot k := by
  refine State.slot_of_job_op (fun hj => ?_) fun j hj => ?_
  · simp [State.completePart, hj]
  · unfold State.completePart Job.completePart
    rw [hj]
    dsimp only
    cases j.part? t with
    | none => exact s.slot_self hj
    | some q =>
      dsimp only
      by_cases hf : q.cond.hasFailed = true
      · rw [if_pos hf, if_pos hf]
        exact s.slot_self hj
      · rw [if_neg hf, if_neg hf]
        split
        · exact s.slot_modJob_job hj _
        · exact s.slot_modJob_job hj _

/-! ## Judging again -/

/-- What a judgement makes of a part that is pending and has no packet of its own in flight (R32). -/
def Job.judged (x : TileNum) (v : Verdict) (onCandidate : Job → Job) (j : Job) : Job :=
  match v with
  | .fail c => j.failPart x c
  | .candidate => onCandidate j
  | .waits => j.setPart x fun q => { q with cond := .waiting, staging := .empty }
  | .joined => j.setPart x fun q => { q with cond := .joined, staging := .empty }
  | .completes => j.completePart x

/-- What a judgement makes of a part whose packets have all issued (R69, R115). -/
def Job.judgedIssued (x : TileNum) (v : Verdict) (j : Job) : Job :=
  match v with
  | .fail c => j.failPart x c
  | _ => j

/-- What judging its part on tile `x` again makes of a job; `v` judges the tile for a step. -/
def Job.rejudge (x : TileNum) (v : Step → Verdict) (j : Job) : Job :=
  match j.phase.isRunning, j.step?, j.part? x with
  | true, some st, some q =>
    match q.cond with
    | .candidate => j.judged x (v st) id
    | .waiting | .joined =>
      j.judged x (v st) fun j => j.setPart x fun q => { q with cond := .candidate, staging := stagingFor st.kind }
    | .issued => if st.kind.isStream then j.judgedIssued x (v st) else j
    | .failing _ | .draining | .withdrawn => j
  | _, _, _ => j

theorem State.slot_failPart_job {i k : SlotNum} {j : Job} (hj : s.job i = some j) (t : TileNum) (c : ErrorCode) :
    (s.failPart i t c).slot k = if i = k then .job (j.failPart t c) else s.slot k := by
  rw [State.slot_failPart, State.slot_of_job hj]
  rfl

theorem State.slot_completePart_job {i k : SlotNum} {j : Job} (hj : s.job i = some j) (t : TileNum) :
    (s.completePart i t).slot k = if i = k then .job (j.completePart t) else s.slot k := by
  rw [State.slot_completePart, State.slot_of_job hj]
  rfl

theorem State.slot_rejudgePart (i k : SlotNum) (t : TileNum) : (s.rejudgePart i t).slot k =
    if i = k then (s.slot i).mapJob (Job.rejudge t fun st => s.judge st t) else s.slot k := by
  refine State.slot_of_job_op (fun hj => ?_) fun j hj => ?_
  · simp [State.rejudgePart, hj]
  · unfold State.rejudgePart Job.rejudge
    rw [hj]
    dsimp only
    cases j.phase.isRunning with
    | false => exact s.slot_self hj
    | true =>
      cases j.step? with
      | none => exact s.slot_self hj
      | some st =>
      cases j.part? t with
      | none => exact s.slot_self hj
      | some q =>
      dsimp only
      cases q.cond
      case issued =>
        dsimp only
        split
        · unfold Job.judgedIssued
          cases s.judge st t
          case fail c => exact s.slot_failPart_job hj t c
          all_goals exact s.slot_self hj
        · exact s.slot_self hj
      case failing => exact s.slot_self hj
      case draining => exact s.slot_self hj
      case withdrawn => exact s.slot_self hj
      all_goals
        dsimp only
        unfold Job.judged
        cases s.judge st t <;> dsimp only
        case fail c => exact s.slot_failPart_job hj t c
        case completes => exact s.slot_completePart_job hj t
        all_goals first
          | exact s.slot_self hj
          | exact s.slot_modJob_job hj _

theorem State.slot_rejudgeTile (t : TileNum) (k : SlotNum) :
    (s.rejudgeTile t).slot k = (s.slot k).mapJob (Job.rejudge t fun st => s.judge st t) := by
  refine State.slot_foldl (P := JobFrame s) (f := fun u i => u.rejudgePart i t)
    (F := fun _ v => v.mapJob (Job.rejudge t fun st => s.judge st t)) (fun u i h => h.trans (u.rejudgePart_frame i t))
    (fun u i h k => ?_) (.refl s) k
  rw [State.slot_rejudgePart]
  simp only [h.judge]

end

/-- The end of an event at which no tile changed its state judges nothing again. -/
theorem State.rejudgeChanged_eq_self {before s : State} (h : ∀ u, (before.tile u).state = (s.tile u).state) :
    State.rejudgeChanged before s = s := by
  unfold State.rejudgeChanged
  induction allTiles with
  | nil => rfl
  | cons t l ih => rw [List.foldl_cons, if_pos (h t), ih]

/-- Where one tile alone changed its state, its parts alone are judged again. -/
theorem State.rejudgeChanged_eq_rejudgeTile {before s : State} {x : TileNum}
    (h : ∀ u, u ≠ x → (before.tile u).state = (s.tile u).state) (hx : (before.tile x).state ≠ (s.tile x).state) :
    State.rejudgeChanged before s = s.rejudgeTile x := by
  have hrest (l : List TileNum) (hl : x ∉ l) (u : State) (hu : JobFrame s u) :
      l.foldl (fun s t => if (before.tile t).state = (s.tile t).state then s else s.rejudgeTile t) u = u := by
    induction l with
    | nil => rfl
    | cons t l ih =>
      rw [List.mem_cons, not_or] at hl
      rw [List.foldl_cons, if_pos (by rw [hu.tileState]; exact h t (Ne.symm hl.1)), ih hl.2]
  obtain ⟨l₁, l₂, hsplit⟩ := List.append_of_mem (mem_allTiles x)
  have hnodup : (l₁ ++ x :: l₂).Nodup := hsplit ▸ List.nodup_finRange 24
  rw [List.nodup_append', List.nodup_cons] at hnodup
  obtain ⟨-, ⟨hx₂, -⟩, hdisj⟩ := hnodup
  have hx₁ : x ∉ l₁ := fun hmem => hdisj hmem List.mem_cons_self
  unfold State.rejudgeChanged
  rw [hsplit, List.foldl_append, hrest l₁ hx₁ s (.refl s), List.foldl_cons, if_neg hx,
    hrest l₂ hx₂ _ (s.rejudgeTile_frame x)]

/-! ## The failures of an event -/

/-- The job's part in the failures of one event (R34 to R36); `inFlight` says where it has packets in flight. -/
def Job.countFailures (inFlight : TileNum → Bool) (j : Job) : Job :=
  match j.phase.isRunning, lowestFailing j.parts with
  | true, some (t, c) =>
    if j.flag Step.tolerant then { j with tolerated := min 255 (j.tolerated + countFailing j.parts) }
    else
      { j with firstFailure := some ⟨c, j.current, some t⟩, phase := .draining, pauseDue := none, engineDone := false,
               parts := j.parts.filterMap fun q => withdrawPart (inFlight q.tile) q }
  | _, _ => j

/-- What the end of an event makes of a job's failed parts. -/
def Job.tidy (inFlight : TileNum → Bool) (j : Job) : Job :=
  { j with parts := j.parts.filterMap fun q => settlePart (inFlight q.tile) q }

def Job.resolve (inFlight : TileNum → Bool) (j : Job) : Job := (j.countFailures inFlight).tidy inFlight

section
variable (s : State)

@[simp] theorem State.slot_dropWait (i k : SlotNum) : (s.dropWait i).slot k = s.slot k := rfl
@[simp] theorem State.job_dropWait (i k : SlotNum) : (s.dropWait i).job k = s.job k := rfl

theorem State.slot_enterDraining (i k : SlotNum) : (s.enterDraining i).slot k =
    if i = k then (s.slot i).mapJob fun j => { j with
      phase := .draining, pauseDue := none, engineDone := false,
      parts := j.parts.filterMap fun q => withdrawPart (s.hasInFlight i q.tile) q } else s.slot k := by
  unfold State.enterDraining
  rw [State.slot_dropWait, State.slot_modJob_eq]

@[simp] theorem State.hasInFlight_modJob (i k : SlotNum) (f : Job → Job) (x : TileNum) :
    (s.modJob i f).hasInFlight k x = s.hasInFlight k x := by
  unfold State.hasInFlight
  cases hp : portOf x <;> simp [State.port]

@[simp] theorem State.hasInFlight_enterDraining (i k : SlotNum) (x : TileNum) :
    (s.enterDraining i).hasInFlight k x = s.hasInFlight k x := s.hasInFlight_modJob i k _ x

theorem State.slot_resolveSlot (i k : SlotNum) : (s.resolveSlot i).slot k =
    if i = k then (s.slot i).mapJob (Job.resolve (s.hasInFlight i)) else s.slot k := by
  refine State.slot_of_job_op (fun hj => ?_) fun j hj => ?_
  · simp [State.resolveSlot, hj]
  · unfold State.resolveSlot Job.resolve Job.countFailures
    rw [hj]
    dsimp only
    cases j.phase.isRunning with
    | false => exact s.slot_modJob_job hj _
    | true =>
      cases lowestFailing j.parts with
      | none => exact s.slot_modJob_job hj _
      | some f =>
        dsimp only
        split
        · rw [State.slot_modJob_eq, State.slot_modJob_eq, State.slot_modJob_eq, State.slot_of_job hj]
          by_cases h : i = k <;> simp [h, Slot.mapJob, Job.tidy]
        · rw [State.slot_modJob_eq, State.slot_enterDraining, State.slot_enterDraining, State.slot_modJob_eq,
            State.slot_modJob_eq, State.slot_of_job hj]
          by_cases h : i = k <;> simp [h, Slot.mapJob, Job.tidy]

theorem State.slot_resolveAll (k : SlotNum) :
    s.resolveAll.slot k = (s.slot k).mapJob (Job.resolve (s.hasInFlight k)) := by
  refine State.slot_foldl (P := JobFrame s) (f := State.resolveSlot)
    (F := fun i v => v.mapJob (Job.resolve (s.hasInFlight i))) (fun u i h => h.trans (u.resolveSlot_frame i))
    (fun u i h k => ?_) (.refl s) k
  rw [State.slot_resolveSlot, show u.hasInFlight i = s.hasInFlight i from funext fun x => h.hasInFlight i x]

end

/-- A job's failed parts are as an event leaves them: they drain, with their packets in flight (R34). -/
def Job.Settled (inFlight : TileNum → Bool) (j : Job) : Prop :=
  ∀ q ∈ j.parts, q.cond.hasFailed = true → q.cond = .draining ∧ q.staging = .empty ∧ inFlight q.tile = true

theorem lowestFailing_eq_none {ps : List TilePart} (h : ∀ q ∈ ps, ∀ c, q.cond ≠ .failing c) : lowestFailing ps = none := by
  induction ps with
  | nil => rfl
  | cons q ps ih =>
    have htail := ih fun q' hq' => h q' (List.mem_cons_of_mem q hq')
    have hq := h q List.mem_cons_self
    unfold lowestFailing
    rw [htail]
    cases hc : q.cond
    case failing c => exact absurd hc (hq c)
    all_goals rfl

theorem Job.Settled.not_failing {f : TileNum → Bool} {j : Job} (h : j.Settled f) :
    ∀ q ∈ j.parts, ∀ c, q.cond ≠ .failing c := fun q hq c hc => by
  have := (h q hq (by rw [hc]; rfl)).1
  rw [hc] at this
  cases this

theorem Job.tidy_eq_self {f : TileNum → Bool} {j : Job} (h : j.Settled f) : j.tidy f = j := by
  have hparts : j.parts.filterMap (fun q => settlePart (f q.tile) q) = j.parts := by
    rw [List.filterMap_congr (g := some) fun q hq => ?_, List.filterMap_some]
    unfold settlePart
    split
    · next hfail =>
      obtain ⟨hc, hg, hin⟩ := h q hq hfail
      rw [hin, if_pos rfl]
      cases q
      simp_all
    · rfl
  unfold Job.tidy
  rw [hparts]

/-- A job at rest is as it was after the failures of an event have been counted. -/
theorem Job.resolve_eq_self {f : TileNum → Bool} {j : Job} (h : j.Settled f) : j.resolve f = j := by
  have hcount : j.countFailures f = j := by
    unfold Job.countFailures
    rw [lowestFailing_eq_none h.not_failing]
    cases j.phase.isRunning <;> rfl
  rw [Job.resolve, hcount, Job.tidy_eq_self h]

theorem Job.settled_tidy (f : TileNum → Bool) (j : Job) : (j.tidy f).Settled f := fun q hq hfail => by
  obtain ⟨q', -, hq'⟩ := List.mem_filterMap.1 hq
  unfold settlePart at hq'
  repeat' split at hq'
  · next hin =>
    cases hq'
    exact ⟨rfl, rfl, hin⟩
  · cases hq'
  · next hnot =>
    cases hq'
    exact absurd hfail hnot

theorem Job.settled_resolve (f : TileNum → Bool) (j : Job) : (j.resolve f).Settled f := Job.settled_tidy f _

end Sys2Proof.Machine
end

section
/-! How far jobs go on at the end of an event (`advance`): until no step that is over is left, each slot and each tile touched only
where a step became current or an occurrence was waited for (R37, R161, R163). -/

namespace Sys2Proof.Machine

/-! ## Failures and closed streams where there are none -/

theorem State.setSlot_slot (s : State) (i : SlotNum) : s.setSlot i (s.slot i) = s := by
  unfold State.setSlot State.slot
  rw [show s.slots.set i s.slots[i] = s.slots from Vector.set_getElem_self i.isLt]

theorem State.modJob_eq_self {s : State} {i : SlotNum} {f : Job → Job} (h : ∀ j, s.job i = some j → f j = j) :
    s.modJob i f = s := by
  unfold State.modJob
  split
  · next j hj => rw [h j hj, ← State.slot_of_job hj, State.setSlot_slot]
  · rfl

theorem State.resolveSlot_eq_self {s : State} {i : SlotNum} (h : ∀ j, s.job i = some j → j.Settled (s.hasInFlight i)) :
    s.resolveSlot i = s := by
  unfold State.resolveSlot
  split
  · rfl
  · next j hj =>
    dsimp only
    rw [lowestFailing_eq_none (h j hj).not_failing]
    cases j.phase.isRunning <;> exact State.modJob_eq_self fun j hj => Job.tidy_eq_self (h j hj)

/-- Where every failed part drains already, the failures of the event are none. -/
theorem State.resolveAll_eq_self {s : State} (h : ∀ i, ∀ j, s.job i = some j → j.Settled (s.hasInFlight i)) :
    s.resolveAll = s := by
  unfold State.resolveAll
  induction allSlots with
  | nil => rfl
  | cons i l ih => rw [List.foldl_cons, State.resolveSlot_eq_self (h i), ih]

/-- What the end of an event makes of a tile's stream (R108, R112). -/
def State.closedEntry (s : State) (t : TileNum) (e : TileEntry) : TileEntry :=
  match e.stream with
  | none => e
  | some st => if s.streamLive st.owner t || s.hasInFlight st.owner t then e else { e with stream := none }

section
variable (s : State)

theorem State.tile_closeStream (t u : TileNum) :
    (s.closeStream t).tile u = if t = u then s.closedEntry t (s.tile t) else s.tile u := by
  have hself : s.tile u = if t = u then s.tile t else s.tile u := by
    split
    · next h => rw [h]
    · rfl
  unfold State.closeStream State.closedEntry
  cases (s.tile t).stream with
  | none => exact hself
  | some st =>
    dsimp only
    split
    · exact hself
    · rw [State.tile_modTile]

theorem State.slots_closeStream (t : TileNum) : (s.closeStream t).slots = s.slots := by
  unfold State.closeStream
  repeat' split
  all_goals rfl

theorem State.closeStream_frame (t : TileNum) : JobFrame s (s.closeStream t) := by
  unfold State.closeStream
  repeat' split
  all_goals first
    | exact JobFrame.refl s
    | exact JobFrame.modTile s t fun _ => rfl

theorem State.closedEntry_congr {u : State} (hslots : u.slots = s.slots) (h : JobFrame s u) (t : TileNum) (e : TileEntry) :
    u.closedEntry t e = s.closedEntry t e := by
  unfold State.closedEntry
  cases e.stream with
  | none => rfl
  | some st =>
    have hlive : u.streamLive st.owner t = s.streamLive st.owner t := by
      unfold State.streamLive
      rw [State.job_of_slots hslots]
    dsimp only
    rw [hlive, h.hasInFlight]

theorem State.tile_closeStreams (x : TileNum) : s.closeStreams.tile x = s.closedEntry x (s.tile x) := by
  refine State.tile_foldl (P := fun u => u.slots = s.slots ∧ JobFrame s u) (f := State.closeStream)
    (F := s.closedEntry) (fun u t h => ⟨(u.slots_closeStream t).trans h.1, h.2.trans (u.closeStream_frame t)⟩)
    (fun u t h k => ?_) ⟨rfl, .refl s⟩ x
  rw [State.tile_closeStream, s.closedEntry_congr h.1 h.2]

@[simp] theorem State.waitList_closeStreams : s.closeStreams.waitList = s.waitList := by
  refine foldl_keeps State.waitList (fun u t => ?_) _ s
  unfold State.closeStream
  repeat' split
  all_goals rfl

end

/-! ## The wait list -/

section
variable (s : State)

@[simp] theorem State.waitList_markError (t : TileNum) (c : ErrorCode) : (s.markError t c).waitList = s.waitList := by
  unfold State.markError
  split <;> rfl

@[simp] theorem State.waitList_failPart (i : SlotNum) (t : TileNum) (c : ErrorCode) :
    (s.failPart i t c).waitList = s.waitList := by
  unfold State.failPart
  repeat' split
  all_goals simp

@[simp] theorem State.waitList_completePart (i : SlotNum) (t : TileNum) : (s.completePart i t).waitList = s.waitList := by
  unfold State.completePart
  dsimp only
  repeat' split
  all_goals simp

@[simp] theorem State.waitList_rejudgePart (i : SlotNum) (t : TileNum) : (s.rejudgePart i t).waitList = s.waitList := by
  unfold State.rejudgePart
  dsimp only
  repeat' split
  all_goals simp

@[simp] theorem State.waitList_rejudgeTile (t : TileNum) : (s.rejudgeTile t).waitList = s.waitList :=
  foldl_keeps State.waitList (fun u i => u.waitList_rejudgePart i t) _ s

@[simp] theorem State.waitList_rejudgeChanged (before : State) : (State.rejudgeChanged before s).waitList = s.waitList := by
  refine foldl_keeps State.waitList (fun u t => ?_) _ s
  split
  · rfl
  · exact u.waitList_rejudgeTile t

/-- Resolving a slot takes at most its own WAIT from the list. -/
theorem State.waitList_resolveSlot (i : SlotNum) : (s.resolveSlot i).waitList = s.waitList ∨
    (s.resolveSlot i).waitList = s.waitList.filter fun w => decide (w.slot ≠ i) := by
  unfold State.resolveSlot
  split
  · exact .inl rfl
  · dsimp only
    split
    · split
      · exact .inl (by simp)
      · exact .inr (by simp [State.enterDraining, State.dropWait])
    · exact .inl (by simp)

theorem State.mem_waitList_of_resolveSlot {i : SlotNum} {w : WaitEntry} (h : w ∈ (s.resolveSlot i).waitList) :
    w ∈ s.waitList := by
  rcases s.waitList_resolveSlot i with e | e <;> rw [e] at h
  · exact h
  · exact (List.mem_filter.1 h).1

theorem State.mem_waitList_of_resolveAll {w : WaitEntry} (h : w ∈ s.resolveAll.waitList) : w ∈ s.waitList := by
  refine foldl_rel (R := fun s t => ∀ w ∈ t.waitList, w ∈ s.waitList) (fun _ _ => id)
    (fun _ _ _ h g w hw => h w (g w hw)) (fun s i w => s.mem_waitList_of_resolveSlot) allSlots s w h

end

/-! ## Occurrences -/

theorem Job.engineStepDone_idem (j : Job) : j.engineStepDone.engineStepDone = j.engineStepDone := by
  have hstep : j.engineStepDone.atEngineStep = j.atEngineStep := rfl
  show { j.engineStepDone with engineDone := j.engineStepDone.engineDone || j.engineStepDone.atEngineStep } = j.engineStepDone
  rw [hstep]
  simp [Job.engineStepDone]

/-- At a step that no occurrence can end, and at one that is over already, an occurrence changes nothing. -/
theorem Job.engineStepDone_eq_self {j : Job} (h : j.atEngineStep = false ∨ j.engineDone = true) : j.engineStepDone = j := by
  unfold Job.engineStepDone
  rcases h with h | h <;> cases j <;> simp_all

theorem Job.engineStepDone_of_stepOver {j : Job} (h : j.stepOver = true) : j.engineStepDone = j := by
  refine Job.engineStepDone_eq_self ?_
  unfold Job.stepOver at h
  unfold Job.atEngineStep
  cases hs : j.step? with
  | none => simp
  | some st =>
    rw [hs] at h
    cases hk : st.kind.isEngine with
    | false => simp [hk]
    | true => simp_all

theorem State.slot_foldl_engineStepDone (l : List WaitEntry) (s : State) (k : SlotNum) :
    (l.foldl (fun s w => s.modJob w.slot Job.engineStepDone) s).slot k =
      if ∃ w ∈ l, w.slot = k then (s.slot k).mapJob Job.engineStepDone else s.slot k := by
  induction l generalizing s with
  | nil => simp
  | cons w l ih =>
    rw [List.foldl_cons, ih, State.slot_modJob_eq]
    by_cases hw : w.slot = k
    · subst hw
      simp [Slot.mapJob_mapJob, Job.engineStepDone_idem]
    · simp [hw]

/-- An occurrence ends the steps of the slots that listen for it, and touches no other. -/
theorem State.slot_occur (s : State) (src : EventSource) (k : SlotNum) : (s.occur src).slot k =
    if ∃ w ∈ s.waitList, w.source = src ∧ w.slot = k then (s.slot k).mapJob Job.engineStepDone else s.slot k := by
  unfold State.occur
  dsimp only
  rw [State.slot_foldl_engineStepDone]
  simp only [List.mem_filter, decide_eq_true_eq, and_assoc]
  rfl

theorem State.waitList_foldl_modJob {α : Type} (g : α → SlotNum) (f : Job → Job) (l : List α) (s : State) :
    (l.foldl (fun s a => s.modJob (g a) f) s).waitList = s.waitList :=
  foldl_keeps (f := fun s a => s.modJob (g a) f) State.waitList (fun u a => by simp) l s

@[simp] theorem State.waitList_occur (s : State) (src : EventSource) :
    (s.occur src).waitList = s.waitList.filter fun w => decide (w.source ≠ src) := by
  unfold State.occur
  dsimp only
  rw [State.waitList_foldl_modJob]

@[simp] theorem State.tiles_modJob (s : State) (i : SlotNum) (f : Job → Job) : (s.modJob i f).tiles = s.tiles := by simp

@[simp] theorem State.tiles_occur (s : State) (src : EventSource) : (s.occur src).tiles = s.tiles := by
  unfold State.occur
  dsimp only
  rw [foldl_keeps (f := fun (s : State) (w : WaitEntry) => s.modJob w.slot Job.engineStepDone) State.tiles
    fun u w => u.tiles_modJob w.slot _]

/-! ## A step becomes current -/

section
variable (s : State) (i : SlotNum)

theorem State.slot_startPart_ne {k : SlotNum} (h : k ≠ i) (st : Step) (t : TileNum) :
    (s.startPart i st t).slot k = s.slot k := by
  unfold State.startPart
  dsimp only
  split
  all_goals simp [State.slot_modJob_eq, Ne.symm h]

theorem State.slot_startParts_ne {k : SlotNum} (h : k ≠ i) (st : Step) (l : List TileNum) :
    (l.foldl (fun s t => s.startPart i st t) s).slot k = s.slot k :=
  foldl_keeps (f := fun (s : State) t => s.startPart i st t) (fun u => u.slot k) (fun u t => u.slot_startPart_ne i h st t) l s

/-- A step that becomes current in one slot touches another only by an occurrence that the other waits for. -/
theorem State.slot_stepCurrent_ne {k : SlotNum} (h : k ≠ i) : (s.stepCurrent i).slot k = s.slot k ∨
    ((∃ w ∈ s.waitList, w.slot = k) ∧ (s.stepCurrent i).slot k = (s.slot k).mapJob Job.engineStepDone) := by
  unfold State.stepCurrent
  split
  · exact .inl rfl
  · next st _ =>
    split
    · split <;> exact .inl rfl
    · exact .inl (by simp [State.slot_modJob_eq, Ne.symm h])
    · rw [State.slot_modJob_eq, if_neg (Ne.symm h), State.slot_occur]
      split
      · next hw =>
        obtain ⟨w, hw, -, hk⟩ := hw
        exact .inr ⟨⟨w, hw, hk⟩, rfl⟩
      · exact .inl rfl
    · exact .inl (by rw [State.slot_resolveSlot, if_neg (Ne.symm h), State.slot_startParts_ne s i h])

@[simp] theorem State.waitList_startPart (st : Step) (t : TileNum) : (s.startPart i st t).waitList = s.waitList := by
  unfold State.startPart
  dsimp only
  split
  all_goals simp

theorem State.waitList_startParts (st : Step) (l : List TileNum) :
    (l.foldl (fun s t => s.startPart i st t) s).waitList = s.waitList :=
  foldl_keeps (f := fun (s : State) t => s.startPart i st t) State.waitList (fun u t => u.waitList_startPart i st t) l s

/-- A step that becomes current puts at most its own WAIT into the list. -/
theorem State.mem_waitList_of_stepCurrent {w : WaitEntry} (h : w ∈ (s.stepCurrent i).waitList) :
    w ∈ s.waitList ∨ w.slot = i := by
  unfold State.stepCurrent at h
  repeat' split at h
  · exact .inl h
  · rcases List.mem_append.1 h with h | h
    · exact .inl h
    · rw [List.mem_singleton.1 h]
      exact .inr rfl
  · exact .inl h
  · exact .inl (by simpa using h)
  · simp only [State.modJob_fields, State.waitList_occur] at h
    exact .inl (List.mem_filter.1 h).1
  · have h := State.mem_waitList_of_resolveSlot _ h
    rw [State.waitList_startParts] at h
    exact .inl h

/-- A step touches the tiles it names alone. -/
theorem State.tile_startPart_ne {x : TileNum} {t : TileNum} (h : t ≠ x) (st : Step) :
    (s.startPart i st t).tile x = s.tile x := by
  unfold State.startPart State.markError
  dsimp only
  repeat' split
  all_goals simp [State.tile_modTile, State.setError, h]

@[simp] theorem State.tiles_resolveSlot : (s.resolveSlot i).tiles = s.tiles := by
  unfold State.resolveSlot
  dsimp only
  repeat' split
  all_goals simp [State.enterDraining, State.dropWait]

@[simp] theorem State.tiles_resolveAll : s.resolveAll.tiles = s.tiles :=
  foldl_keeps State.tiles State.tiles_resolveSlot allSlots s

theorem mem_tilesIn {ts : TileSet} {t : TileNum} : t ∈ tilesIn ts ↔ ts.getLsbD t.val = true := by
  simp [tilesIn, mem_allTiles]

theorem State.tile_startParts_notMem {x : TileNum} (st : Step) {l : List TileNum} (hx : x ∉ l) :
    (l.foldl (fun s t => s.startPart i st t) s).tile x = s.tile x := by
  induction l generalizing s with
  | nil => rfl
  | cons t l ih =>
    rw [List.mem_cons, not_or] at hx
    rw [List.foldl_cons, ih _ hx.2, State.tile_startPart_ne _ i (Ne.symm hx.1)]

theorem State.tile_stepCurrent_of_notNamed {x : TileNum}
    (h : ∀ j st, s.job i = some j → j.step? = some st → st.tiles.getLsbD x.val = false) :
    (s.stepCurrent i).tile x = s.tile x := by
  unfold State.stepCurrent
  split
  · rfl
  · next st hst =>
    split
    · split <;> rfl
    · exact State.tile_of_tiles (by simp) x
    · exact State.tile_of_tiles (by simp) x
    · refine (State.tile_of_tiles (State.tiles_resolveSlot _ i) x).trans (State.tile_startParts_notMem s i st ?_)
      obtain ⟨j, hj, hs⟩ := Option.bind_eq_some_iff.1 hst
      rw [mem_tilesIn, h j st hj hs]
      decide

end

/-! ## A step completes -/

/-- The job as its next step becomes current. -/
def Job.next (j : Job) : Job := { j with stepsDone := j.stepsDone + 1, engineDone := false, current := j.current + 1 }

/-- The job as its last step has completed. -/
def Job.done (j : Job) : Job := { j with stepsDone := j.stepsDone + 1, engineDone := false }

theorem State.modJob_modJob (s : State) (i : SlotNum) (f g : Job → Job) :
    (s.modJob i f).modJob i g = s.modJob i fun j => g (f j) := by
  cases hj : s.job i with
  | none =>
    have hf : s.modJob i f = s := by simp [State.modJob, hj]
    rw [hf]
    simp [State.modJob, hj]
  | some j =>
    have hf : s.modJob i f = s.setSlot i (.job (f j)) := by simp [State.modJob, hj]
    have hjob : (s.setSlot i (.job (f j))).job i = some (f j) := by rw [State.job_setSlot, if_pos rfl]; rfl
    have hg : s.modJob i (fun j => g (f j)) = s.setSlot i (.job (g (f j))) := by simp [State.modJob, hj]
    rw [hf, hg]
    unfold State.modJob
    rw [hjob]
    simp [State.setSlot]

theorem State.completeStep_eq {s : State} {i : SlotNum} {j : Job} (hj : s.job i = some j) : s.completeStep i =
    if j.current + 1 < j.stepCount then (s.modJob i Job.next).stepCurrent i
    else (s.modJob i Job.done).enterRetiring i .completed := by
  unfold State.completeStep
  rw [hj]
  dsimp only
  rw [State.modJob_modJob]
  rfl

theorem State.slot_enterRetiring_ne (s : State) {i k : SlotNum} (h : k ≠ i) (c : RetireCause) :
    (s.enterRetiring i c).slot k = s.slot k := by
  unfold State.enterRetiring
  repeat' split
  all_goals simp [State.slot_setSlot, Ne.symm h]

@[simp] theorem State.waitList_enterRetiring (s : State) (i : SlotNum) (c : RetireCause) :
    (s.enterRetiring i c).waitList = s.waitList := by
  unfold State.enterRetiring
  repeat' split
  all_goals rfl

@[simp] theorem State.tiles_enterRetiring (s : State) (i : SlotNum) (c : RetireCause) :
    (s.enterRetiring i c).tiles = s.tiles := by
  unfold State.enterRetiring
  repeat' split
  all_goals rfl

theorem State.slot_completeStep_ne (s : State) {i k : SlotNum} (h : k ≠ i) : (s.completeStep i).slot k = s.slot k ∨
    ((∃ w ∈ s.waitList, w.slot = k) ∧ (s.completeStep i).slot k = (s.slot k).mapJob Job.engineStepDone) := by
  cases hj : s.job i with
  | none => exact .inl (by simp [State.completeStep, hj])
  | some j =>
    rw [State.completeStep_eq hj]
    have hmod (f : Job → Job) : (s.modJob i f).slot k = s.slot k := by rw [State.slot_modJob_eq, if_neg (Ne.symm h)]
    split
    · have hcur := (s.modJob i Job.next).slot_stepCurrent_ne i h
      rw [hmod] at hcur
      simpa using hcur
    · exact .inl (by rw [State.slot_enterRetiring_ne _ h, hmod])

theorem State.mem_waitList_of_completeStep {s : State} {i : SlotNum} {w : WaitEntry} (h : w ∈ (s.completeStep i).waitList) :
    w ∈ s.waitList ∨ w.slot = i := by
  cases hj : s.job i with
  | none => exact .inl (by simpa [State.completeStep, hj] using h)
  | some j =>
    rw [State.completeStep_eq hj] at h
    split at h
    · simpa using State.mem_waitList_of_stepCurrent _ i h
    · exact .inl (by simpa using h)

theorem State.mem_readySlots {s : State} {i : SlotNum} : i ∈ s.readySlots ↔ ∃ j, s.job i = some j ∧ j.stepOver = true := by
  unfold State.readySlots
  rw [List.mem_filter]
  cases s.job i <;> simp [mem_allSlots]

/-- A step that completes is behind the job: what its job is then has one step more done, and if it runs it stands further. -/
theorem State.job_completeStep {s : State} {i : SlotNum} {j j' : Job} (hj : s.job i = some j)
    (hj' : (s.completeStep i).job i = some j') : j.done.Ahead j' ∧
      (j'.phase.isRunning = true → j.current + 1 ≤ j'.current ∧ j.current + 1 < j.stepCount) := by
  rw [State.completeStep_eq hj] at hj'
  have hmod (f : Job → Job) {m : Job} (hm : (s.modJob i f).job i = some m) : m = f j := by
    rw [State.job_modJob, if_pos rfl, hj] at hm
    cases hm
    rfl
  split at hj'
  · next hnext =>
    obtain ⟨m, hm, hmoves⟩ := moves_stepCurrent _ i i j' hj'
    have hahead := hmoves.ahead
    rw [hmod _ hm] at hahead
    exact ⟨⟨hahead.steps, hahead.stepsDone, hahead.tolerated, (Nat.le_succ _).trans hahead.current, hahead.running⟩,
      fun _ => ⟨hahead.current, hnext⟩⟩
  · obtain ⟨m, hm, hmoves⟩ := moves_enterRetiring _ i .completed i j' hj'
    have hahead := hmoves.ahead
    rw [hmod _ hm] at hahead
    refine ⟨hahead, fun hrun => ?_⟩
    have hretired : ∀ k, ((s.modJob i Job.done).enterRetiring i .completed).job i = some k → k.phase.isRunning = false := by
      intro k hk
      unfold State.enterRetiring at hk
      repeat' split at hk
      · next hnone => cases hk.symm.trans hnone
      · rw [State.job_setSlot, if_pos rfl] at hk
        cases hk
      · rw [State.job_setSlot, if_pos rfl] at hk
        cases hk
        rfl
    rw [hretired j' hj'] at hrun
    cases hrun

/-! ## Until no step that is over is left -/

/-- Steps a job has before it. -/
def Job.toGo (j : Job) : Nat := if j.phase.isRunning then j.stepCount - j.current else 0

/-- Steps before all jobs: how often `advance` goes round at most. -/
def State.toGo (s : State) : Nat := (allSlots.map fun i => ((s.job i).map Job.toGo).getD 0).sum

theorem Job.toGo_le_of_ahead {j k : Job} (h : j.Ahead k) : k.toGo ≤ j.toGo := by
  unfold Job.toGo Job.stepCount
  by_cases hk : k.phase.isRunning = true
  · rw [if_pos hk, if_pos (h.running hk), h.steps]
    have := h.current
    omega
  · rw [if_neg hk]
    exact Nat.zero_le _

theorem State.toGo_le_stepsLeft (s : State) : s.toGo ≤ s.stepsLeft := by
  refine List.sum_le_sum fun i _ => ?_
  cases s.job i with
  | none => exact le_rfl
  | some j =>
    show j.toGo ≤ _
    unfold Job.toGo
    split <;> simp

theorem Job.current_lt_of_stepOver {j : Job} (h : j.stepOver = true) : j.phase.isRunning = true ∧ j.current < j.stepCount := by
  unfold Job.stepOver at h
  rw [Bool.and_eq_true] at h
  refine ⟨h.1, ?_⟩
  have hstep := h.2
  cases hs : j.step? with
  | none => rw [hs] at hstep; cases hstep
  | some st => exact (List.getElem?_eq_some_iff.1 hs).1

theorem State.toGo_completeStep {s : State} {i : SlotNum} (h : i ∈ s.readySlots) : (s.completeStep i).toGo < s.toGo := by
  obtain ⟨j, hj, hover⟩ := State.mem_readySlots.1 h
  obtain ⟨hrun, hcur⟩ := Job.current_lt_of_stepOver hover
  refine List.sum_lt_sum _ _ (fun k _ => ?_) ⟨i, mem_allSlots i, ?_⟩
  · cases hk : (s.completeStep i).job k with
    | none => exact Nat.zero_le _
    | some j' =>
      obtain ⟨m, hm, hmoves⟩ := moves_completeStep s h k j' hk
      rw [hm]
      exact Job.toGo_le_of_ahead hmoves.ahead
  · rw [hj]
    have hpos : 0 < j.toGo := by
      unfold Job.toGo
      rw [if_pos hrun]
      omega
    cases hk : (s.completeStep i).job i with
    | none => exact hpos
    | some j' =>
      obtain ⟨hahead, hlater⟩ := State.job_completeStep hj hk
      show j'.toGo < j.toGo
      by_cases hr : j'.phase.isRunning = true
      · have hsteps : j'.stepCount = j.stepCount := congrArg List.length hahead.steps
        obtain ⟨hle, -⟩ := hlater hr
        unfold Job.toGo
        rw [if_pos hr, if_pos hrun, hsteps]
        omega
      · unfold Job.toGo at hpos ⊢
        rwa [if_neg hr]

theorem State.toGo_pos {s : State} {i : SlotNum} (h : i ∈ s.readySlots) : 0 < s.toGo :=
  Nat.lt_of_le_of_lt (Nat.zero_le _) (State.toGo_completeStep h)

theorem State.readySlots_advance {n : Nat} {s : State} (h : s.toGo ≤ n) : (State.advance n s).readySlots = [] := by
  have hnone {u : State} (hu : u.toGo ≤ 0) : u.readySlots = [] :=
    List.eq_nil_iff_forall_not_mem.2 fun i hi => absurd (State.toGo_pos hi) (by omega)
  induction n generalizing s with
  | zero => exact hnone h
  | succ n ih =>
    unfold State.advance
    split
    · next hnext => exact State.nextSlots_eq_nil.1 hnext
    · next i hnext =>
      have := State.toGo_completeStep (State.ready_of_next (s := s) (i := i) (by rw [hnext]; exact List.mem_singleton_self i))
      exact ih (by omega)
    · next i j rest hnext =>
      dsimp only
      refine ih ?_
      have hmem : (i :: j :: rest).getD (Config.completionOrder s.choices % (i :: j :: rest).length) i ∈ s.readySlots :=
        State.ready_of_next (by rw [hnext]; exact List.getD_mod_mem _ _ _)
      have hlt : (State.completeStep { s with choices := s.choices + 1 } ((i :: j :: rest).getD
          (Config.completionOrder s.choices % (i :: j :: rest).length) i)).toGo < s.toGo :=
        State.toGo_completeStep (s := { s with choices := s.choices + 1 }) hmem
      omega

/-- Where no step is over, no job goes on. -/
theorem State.advance_eq_self {s : State} (h : s.readySlots = []) (n : Nat) : State.advance n s = s := by
  cases n with
  | zero => rfl
  | succ n =>
    unfold State.advance
    rw [State.nextSlots_eq_nil.2 h]

/-- A slot whose step is not over, and that no WAIT stands for or that stands at no engine step, is as it was. -/
theorem State.slot_advance_of_inert {n : Nat} {s : State} {k : SlotNum} (hk : k ∉ s.readySlots)
    (hw : (∀ w ∈ s.waitList, w.slot ≠ k) ∨ ∀ j, s.job k = some j → j.atEngineStep = false) :
    (State.advance n s).slot k = s.slot k := by
  refine (State.advance_induct (P := fun u => u.slot k = s.slot k ∧ ((∀ w ∈ u.waitList, w.slot ≠ k) ∨
    ∀ j, s.job k = some j → j.atEngineStep = false)) (fun _ _ h => h) (fun u i ⟨hslot, hwait⟩ hi => ?_) n ⟨rfl, hw⟩).1
  have hne : k ≠ i := fun e => hk (by
    obtain ⟨j, hj, hover⟩ := State.mem_readySlots.1 (State.ready_of_next hi)
    rw [← e, State.job_of_slot hslot] at hj
    exact State.mem_readySlots.2 ⟨j, hj, hover⟩)
  refine ⟨?_, hwait.imp_left fun h w hw => ?_⟩
  · rcases u.slot_completeStep_ne hne with e | ⟨⟨w, hw, hwk⟩, e⟩
    · exact e.trans hslot
    · rcases hwait with h | h
      · exact absurd hwk (h w hw)
      · rw [e, hslot]
        exact Slot.mapJob_eq_self fun j hj => Job.engineStepDone_eq_self (.inl (h j hj))
  · rcases State.mem_waitList_of_completeStep hw with hw | hw
    · exact h w hw
    · rw [hw]
      exact Ne.symm hne

/-- A job whose step is over has completed it once none is left: one step more is done, and if it runs it stands further. -/
theorem State.job_advance_of_ready {n : Nat} {s : State} (hn : s.toGo ≤ n) {i : SlotNum} {j j' : Job} (hj : s.job i = some j)
    (hover : j.stepOver = true) (hj' : (State.advance n s).job i = some j') :
    j.done.Ahead j' ∧ (j'.phase.isRunning = true → j.current < j'.current) := by
  have hP := State.advance_induct (P := fun u => u.slot i = s.slot i ∨ ∀ m, u.job i = some m →
    j.done.Ahead m ∧ (m.phase.isRunning = true → j.current < m.current)) (s := s) (fun _ _ h => h)
    (fun u k hu hk => ?_) n (.inl rfl)
  · rcases hP with h | h
    · have hready : i ∈ (State.advance n s).readySlots := State.mem_readySlots.2 ⟨j, (State.job_of_slot h).trans hj, hover⟩
      rw [State.readySlots_advance hn] at hready
      cases hready
    · exact h j' hj'
  · rcases hu with hu | hu
    · have hju : u.job i = some j := (State.job_of_slot hu).trans hj
      by_cases hik : i = k
      · subst hik
        refine .inr fun m hm => ?_
        obtain ⟨hahead, hlater⟩ := State.job_completeStep hju hm
        exact ⟨hahead, fun hr => (hlater hr).1⟩
      · refine .inl ?_
        rcases u.slot_completeStep_ne hik with e | ⟨-, e⟩
        · exact e.trans hu
        · rw [e, ← hu, State.slot_of_job hju]
          exact congrArg Slot.job (Job.engineStepDone_of_stepOver hover)
    · refine .inr fun m hm => ?_
      obtain ⟨l, hl, hmoves⟩ := moves_completeStep u (State.ready_of_next hk) i m hm
      obtain ⟨hahead, hlater⟩ := hu l hl
      have hm := hmoves.ahead
      refine ⟨⟨hm.steps.trans hahead.steps, hahead.stepsDone.trans hm.stepsDone, hahead.tolerated.trans hm.tolerated,
        hahead.current.trans hm.current, hahead.running ∘ hm.running⟩, fun hr => ?_⟩
      exact (hlater (hm.running hr)).trans_le hm.current

end Sys2Proof.Machine
end

section
/-! What holds between two events (`Quiet`), kept by every command: a step that is over goes on at its own event (R34, R36, R37,
R40, R173). -/

namespace Sys2Proof.Machine

/-! ## The end of an event -/

/-- Every job's failed parts are as an event leaves them (R34). -/
def State.Settled (s : State) : Prop := ∀ i j, s.job i = some j → j.Settled (s.hasInFlight i)

theorem Job.Settled.of_parts {f : TileNum → Bool} {j k : Job} (h : j.Settled f) (hp : k.parts = j.parts) : k.Settled f :=
  fun q hq => h q (hp ▸ hq)

theorem State.Settled.of_slots {s t : State} (h : s.Settled) (hslots : t.slots = s.slots)
    (hin : ∀ i x, t.hasInFlight i x = s.hasInFlight i x) : t.Settled := fun i j hj => by
  rw [State.job_of_slots hslots] at hj
  rw [show t.hasInFlight i = s.hasInFlight i from funext (hin i)]
  exact h i j hj

theorem State.Settled.modJob {s : State} (h : s.Settled) (i : SlotNum) {f : Job → Job} (hf : ∀ j, (f j).parts = j.parts) :
    (s.modJob i f).Settled := fun k j hj => by
  rw [show (s.modJob i f).hasInFlight k = s.hasInFlight k from funext fun x => s.hasInFlight_modJob i k f x]
  rw [State.job_modJob] at hj
  split at hj
  · next e =>
    subst e
    obtain ⟨m, hm, rfl⟩ := Option.map_eq_some_iff.1 hj
    exact (h i m hm).of_parts (hf m)
  · exact h k j hj

theorem State.settled_resolveAll (s : State) : s.resolveAll.Settled := fun i j hj => by
  rw [show s.resolveAll.hasInFlight i = s.hasInFlight i from funext fun x => s.resolveAll_frame.hasInFlight i x]
  rw [State.job, State.slot_resolveAll, Slot.job?_mapJob] at hj
  obtain ⟨m, -, rfl⟩ := Option.map_eq_some_iff.1 hj
  exact m.settled_resolve _

theorem State.settled_closeStreams {s : State} (h : s.Settled) : s.closeStreams.Settled :=
  h.of_slots s.slots_closeStreams fun i x => s.closeStreams_frame.hasInFlight i x

/-- All that an occurrence does to a job leaves its parts. -/
theorem State.settled_occur {s : State} (h : s.Settled) (src : EventSource) : (s.occur src).Settled := fun k j hj => by
  rw [show (s.occur src).hasInFlight k = s.hasInFlight k from funext fun x => (s.occur_frame src).hasInFlight k x]
  rw [State.job, State.slot_occur] at hj
  split at hj
  · rw [Slot.job?_mapJob] at hj
    obtain ⟨m, hm, rfl⟩ := Option.map_eq_some_iff.1 hj
    exact (h k m hm).of_parts rfl
  · exact h k j hj

theorem State.settled_stepCurrent {s : State} (h : s.Settled) (i : SlotNum) : (s.stepCurrent i).Settled := by
  unfold State.stepCurrent
  split
  · exact h
  · next st _ =>
    split
    · split
      · exact h.of_slots rfl fun _ _ => rfl
      · exact h
    · exact h.modJob i fun _ => rfl
    · exact (State.settled_occur h _).modJob i fun _ => rfl
    · intro k j hj
      have hframe := (JobFrame.foldl (fun s t => State.startPart_frame s i st t) (tilesIn st.tiles) s).trans
        (State.resolveSlot_frame _ i)
      rw [State.job, State.slot_resolveSlot] at hj
      split at hj
      · next e =>
        subst e
        rw [Slot.job?_mapJob] at hj
        obtain ⟨m, -, rfl⟩ := Option.map_eq_some_iff.1 hj
        have hin := funext fun x => (State.resolveSlot_frame
          ((tilesIn st.tiles).foldl (fun s t => s.startPart i st t) s) i).hasInFlight i x
        rw [hin]
        exact m.settled_resolve _
      · next hne =>
        rw [State.slot_startParts_ne s i (Ne.symm hne)] at hj
        have hin := funext fun x => hframe.hasInFlight k x
        rw [hin]
        exact h k j hj

theorem State.settled_completeStep {s : State} (h : s.Settled) (i : SlotNum) : (s.completeStep i).Settled := by
  cases hj : s.job i with
  | none =>
    rw [show s.completeStep i = s by simp [State.completeStep, hj]]
    exact h
  | some j =>
    rw [State.completeStep_eq hj]
    split
    · exact State.settled_stepCurrent (h.modJob i (f := Job.next) fun _ => rfl) i
    · have hdone : (s.modJob i Job.done).Settled := h.modJob i fun _ => rfl
      unfold State.enterRetiring
      split
      · exact hdone
      · split
        all_goals
          intro k m hm
          rw [State.job_setSlot] at hm
          split at hm
        · cases hm
        · exact hdone k m hm
        · cases hm
          exact fun q hq => absurd hq List.not_mem_nil
        · exact hdone k m hm

theorem State.settled_advance (n : Nat) {s : State} (h : s.Settled) : (State.advance n s).Settled :=
  State.advance_induct (P := State.Settled) (fun _ _ h => h.of_slots rfl fun _ _ => rfl)
    (fun _ i h _ => State.settled_completeStep h i) n h

theorem settled_settle (before s : State) : (settle before s).Settled :=
  State.settled_advance _ (State.settled_closeStreams (State.settled_resolveAll _))

theorem readySlots_settle (before s : State) : (settle before s).readySlots = [] :=
  State.readySlots_advance (State.toGo_le_stepsLeft _)

theorem State.readySlots_of_slots {s t : State} (h : t.slots = s.slots) : t.readySlots = s.readySlots := by
  unfold State.readySlots
  simp only [State.job_of_slots h]

theorem readySlots_finish (before s : State) : (finish before s).readySlots = [] :=
  (State.readySlots_of_slots (slots_commit _ _)).trans (readySlots_settle before s)

theorem EventFrame.hasInFlight {s t : State} (h : EventFrame s t) (i : SlotNum) (x : TileNum) :
    t.hasInFlight i x = s.hasInFlight i x := by
  unfold State.hasInFlight
  rw [h.port]

theorem settled_commit (before : State) {s : State} (h : s.Settled) : (commit before s).Settled :=
  h.of_slots (slots_commit _ _) fun i x => (commit_frame before s).hasInFlight i x

theorem settled_finish (before s : State) : (finish before s).Settled := settled_commit _ (settled_settle before s)

/-! ## Jobs run only while the engine does -/

/-- No job runs. -/
def State.Idle (s : State) : Prop := ∀ i, ∀ j ∈ s.job i, j.phase.isRunning = false

theorem JobMove.not_running {j k : Job} (hj : j.phase.isRunning = false) (h : JobMove j k) : k.phase.isRunning = false := by
  by_contra hk
  rw [h.ahead.running (by simpa using hk)] at hj
  cases hj

theorem State.Idle.moves {s t : State} (h : s.Idle) (hm : Moves s t) : t.Idle := hm.keeps (fun _ _ => JobMove.not_running) h

theorem State.idle_of_free {s : State} (h : s.slots = Vector.replicate 8 .free) : s.Idle := fun i j hj => by
  rw [Option.mem_def, State.job, State.slot, h, slots_replicate_job] at hj
  cases hj

/-- What an abort makes of a slot (R40). -/
def Slot.abort (fatal : Bool) (now : Word) (inFlight : TileNum → Bool) : Slot → Slot
  | .job j =>
    match j.phase with
    | .queued =>
      if fatal then .free
      else .job { j with abortRequested := true, phase := .retiring (j.results .abortedQueued now), parts := [],
                         pauseDue := none, engineDone := false }
    | .running =>
      .job { j with abortRequested := true, firstFailure := some (j.firstFailure.getD ⟨.aborted, j.current, none⟩),
                    phase := .draining, pauseDue := none, engineDone := false,
                    parts := j.parts.filterMap fun q => withdrawPart (inFlight q.tile) q }
    | .draining => .job { j with abortRequested := true }
    | .retiring _ => .job j
  | v => v

section
variable {fatal : Bool} {now : Word} {f : TileNum → Bool} {j : Job}

theorem Slot.abort_queued (h : j.phase = .queued) : (Slot.job j).abort fatal now f =
    if fatal then .free
    else .job { j with abortRequested := true, phase := .retiring (j.results .abortedQueued now), parts := [],
                       pauseDue := none, engineDone := false } := by
  cases j
  cases h
  rfl

theorem Slot.abort_running (h : j.phase = .running) : (Slot.job j).abort fatal now f =
    .job { j with abortRequested := true, firstFailure := some (j.firstFailure.getD ⟨.aborted, j.current, none⟩),
                  phase := .draining, pauseDue := none, engineDone := false,
                  parts := j.parts.filterMap fun q => withdrawPart (f q.tile) q } := by
  cases j
  cases h
  rfl

theorem Slot.abort_draining (h : j.phase = .draining) : (Slot.job j).abort fatal now f =
    .job { j with abortRequested := true } := by
  cases j
  cases h
  rfl

theorem Slot.abort_retiring {r : Retirement} (h : j.phase = .retiring r) : (Slot.job j).abort fatal now f = .job j := by
  cases j
  cases h
  rfl

end

theorem State.fatal_modJob (s : State) (i : SlotNum) (f : Job → Job) : (s.modJob i f).fatal = s.fatal := by
  simp [State.fatal]

theorem State.slot_abortJob (s : State) (i k : SlotNum) : (s.abortJob i).slot k =
    if i = k then (s.slot i).abort s.fatal s.now (s.hasInFlight i) else s.slot k := by
  cases hj : s.job i with
  | none =>
    have hself : s.abortJob i = s := by simp [State.abortJob, hj]
    rw [hself]
    have habort : (s.slot i).abort s.fatal s.now (s.hasInFlight i) = s.slot i := by
      unfold State.job at hj
      cases hv : s.slot i <;> simp_all [Slot.abort, Slot.job?]
    rw [habort]
    split
    · next h => rw [h]
    · rfl
  | some j =>
    have hslot := State.slot_of_job hj
    unfold State.abortJob
    rw [hj, hslot]
    dsimp only
    split
    · next hp =>
      have hjob : (s.modJob i fun j => { j with abortRequested := true }).job i = some { j with abortRequested := true } := by
        rw [State.job_modJob, if_pos rfl, hj]
        rfl
      rw [Slot.abort_queued hp]
      unfold State.enterRetiring
      rw [hjob, State.fatal_modJob]
      dsimp only
      by_cases hik : i = k
      · subst hik
        rw [if_pos rfl]
        split
        · rw [State.slot_setSlot_self]
        · rw [State.slot_setSlot_self]
          simp [Job.results]
      · split
        all_goals rw [State.slot_setSlot, if_neg hik, State.slot_modJob_eq, if_neg hik]
    · next hp =>
      rw [Slot.abort_running hp, State.slot_enterDraining, State.slot_modJob_eq, State.slot_modJob_eq, hslot]
      by_cases hik : i = k
      · subst hik
        simp only [if_true, Slot.mapJob, State.hasInFlight_modJob]
        cases j.firstFailure <;> rfl
      · simp [hik]
    · next hp =>
      rw [Slot.abort_draining hp]
      exact s.slot_modJob_job hj _
    · next hp =>
      rw [Slot.abort_retiring hp]
      exact s.slot_self hj

theorem State.hasInFlight_abortJob (s : State) (i k : SlotNum) (x : TileNum) :
    (s.abortJob i).hasInFlight k x = s.hasInFlight k x := by
  unfold State.hasInFlight
  rw [State.port_of_fixed (s.fixed_abortJob i)]

/-- What a state says to an abort. -/
def State.abortView (s : State) : Bool × Word × (SlotNum → TileNum → Bool) := (s.fatal, s.now, s.hasInFlight)

theorem State.abortView_abortJob (s : State) (i : SlotNum) : (s.abortJob i).abortView = s.abortView := by
  unfold State.abortView
  rw [State.fatal_of_fixed (s.fixed_abortJob i), State.now_of_fixed (s.fixed_abortJob i),
    show (s.abortJob i).hasInFlight = s.hasInFlight from funext₂ fun k x => s.hasInFlight_abortJob i k x]

theorem State.slot_abortAll (s : State) (k : SlotNum) :
    s.abortAll.slot k = (s.slot k).abort s.fatal s.now (s.hasInFlight k) := by
  refine State.slot_foldl (P := fun u => u.abortView = s.abortView) (f := State.abortJob)
    (F := fun i v => v.abort s.fatal s.now (s.hasInFlight i)) (fun u i h => (u.abortView_abortJob i).trans h)
    (fun u i h k => ?_) rfl k
  simp only [State.abortView, Prod.mk.injEq] at h
  rw [State.slot_abortJob, h.1, h.2.1, h.2.2]

theorem Slot.not_running_abort {fatal : Bool} {now : Word} {f : TileNum → Bool} {v : Slot} {j : Job}
    (h : (v.abort fatal now f).job? = some j) : j.phase.isRunning = false := by
  cases v with
  | job m =>
    cases hp : m.phase with
    | queued =>
      rw [Slot.abort_queued hp] at h
      split at h <;> cases h
      rfl
    | running =>
      rw [Slot.abort_running hp] at h
      cases h
      rfl
    | draining =>
      rw [Slot.abort_draining hp] at h
      cases h
      exact congrArg Phase.isRunning hp
    | retiring r =>
      rw [Slot.abort_retiring hp] at h
      cases h
      exact congrArg Phase.isRunning hp
  | _ => cases h

theorem State.idle_abortAll (s : State) : s.abortAll.Idle := fun i j hj => by
  rw [Option.mem_def, State.job, State.slot_abortAll] at hj
  exact Slot.not_running_abort hj

theorem State.idle_enterStopping (s : State) : s.enterStopping.Idle :=
  (State.idle_abortAll _).moves (.of_slots (State.slots_disarmAll _))

/-- The engine is RUNNING, or no job runs. -/
def State.RunOnly (s : State) : Prop := s.engine = .running ∨ s.Idle

theorem State.runOnly_iff {s : State} : s.RunOnly ↔ (s.engine ≠ .running → s.Idle) := by
  unfold State.RunOnly
  tauto

theorem State.RunOnly.of_engine {s t : State} (h : s.RunOnly) (hm : Moves s t) (he : t.engine = s.engine) : t.RunOnly :=
  h.imp (he.trans ·) (·.moves hm)

theorem State.RunOnly.finish {s : State} (before : State) (h : s.RunOnly) : (finish before s).RunOnly :=
  h.of_engine (moves_finish before s) (State.engine_of_body (State.body_finish _ _))

theorem State.runOnly_fatalFault {s : State} (f : EngineFault) (h : s.RunOnly) : (s.fatalFault f).RunOnly := by
  rcases h with h | h
  · unfold State.fatalFault
    split
    · dsimp only
      exact .inr ((State.idle_enterStopping _).moves (.of_slots (foldl_keeps State.slots State.slots_faultRecord _ _)))
    · exact .inl h
  · exact .inr (h.moves (moves_fatalFault s f))

theorem State.runOnly_retireFailed {s : State} (i : SlotNum) (h : s.RunOnly) : (s.retireFailed i).RunOnly :=
  State.runOnly_fatalFault _ (h.of_engine (t := s.setSlot i .free) (Moves.setSlot_free s i rfl) rfl)

theorem State.runOnly_nextStatusWrite {s : State} (t : TileNum) (w : Rewrite) (h : s.RunOnly) :
    (s.nextStatusWrite t w).RunOnly := by
  refine h.imp (fun h => ?_) fun h => h.moves (.of_slots (by simp))
  have hend (j : Bool) : (s.endRewrite t j).engine = .running :=
    (State.engine_of_body (State.body_endRewrite s t j)).trans h
  unfold State.nextStatusWrite
  split
  · exact h
  · exact h
  · unfold State.portsPhaseIfDone
    rw [if_neg (fun he => by rw [hend] at he; exact absurd he.1 (by simp))]
    exact hend _

theorem State.runOnly_statusWriteFailed {s : State} (t : TileNum) (w : Rewrite) (h : s.RunOnly) :
    (s.statusWriteFailed t w).RunOnly := by
  by_cases hrun : s.engine = .running
  · unfold State.statusWriteFailed
    rw [hrun]
    exact State.runOnly_fatalFault _ (.inl ((State.engine_of_body (State.body_endRewrite s t _)).trans hrun))
  · exact .inr ((State.runOnly_iff.1 h hrun).moves (moves_statusWriteFailed s t w))

theorem runOnly_effectOf (c : Instr) (s : State) (h : s.RunOnly) : (effectOf c s).RunOnly := by
  by_cases hrun : s.engine = .running
  swap
  · exact .inr (effectOf_jobs (fun _ _ => JobMove.not_running) c s (fun he => absurd he hrun) (fun _ _ _ _ _ => rfl)
      (State.runOnly_iff.1 h hrun))
  have hsame {t : State} (he : t.engine = s.engine) : t.RunOnly := .inl (he.trans hrun)
  by_cases hw : isWalkerRow c = true
  · exact hsame (State.engine_of_fixed (effectOf_walkerRow hw s))
  by_cases hb : keepsBody c = true
  · exact hsame (State.engine_of_body (body_effectOf s hb))
  have hoff : s.engine.isOffOrHalted = false := by rw [hrun]; rfl
  cases c
  case start => exact hsame (by simp only [effectOf, startEffect, hoff]; rfl)
  case stop =>
    simp only [effectOf, stopEffect]
    split
    · exact (State.RunOnly.finish s (.inr (State.idle_enterStopping _)))
    · exact hsame rfl
  case reset => exact .inr (State.idle_of_free rfl)
  case hardReset => exact .inr (State.idle_of_free rfl)
  case abortN =>
    simp only [effectOf, abortNEffect, State.abortCommand]
    split
    · exact State.RunOnly.finish s (hsame (State.engine_of_fixed (by simp)))
    · exact hsame rfl
  case abortP =>
    simp only [effectOf, abortPEffect, State.abortCommand]
    split
    · exact State.RunOnly.finish s (hsame (State.engine_of_fixed (by simp)))
    · exact hsame rfl
  case controlBlockReadDone r =>
    simp only [effectOf, controlBlockReadDoneEffect]
    split
    · rw [if_neg (by rw [hrun]; simp)]
      exact hsame rfl
    · exact h
  case statusWriteDone t ok =>
    simp only [effectOf, statusWriteDoneEffect]
    repeat' split
    · exact h
    · exact hsame (State.engine_of_body (by simp))
    · exact hsame (State.engine_of_body (by simp))
    · exact (State.runOnly_nextStatusWrite t _ h).finish s
    · exact (State.runOnly_statusWriteFailed t _ h).finish s
  case headerReadDone c r =>
    simp only [effectOf, headerReadDoneEffect]
    split
    · exact State.RunOnly.finish s (hsame (State.engine_of_fixed (by simp)))
    · exact State.RunOnly.finish s (hsame (State.engine_of_fixed (by simp)))
    · exact h
  case stepReadDone c r =>
    simp only [effectOf, stepReadDoneEffect]
    split
    · exact State.RunOnly.finish s (hsame (State.engine_of_fixed (by simp)))
    · exact h
  case rescanReadDone c r =>
    simp only [effectOf, rescanReadDoneEffect]
    split
    · exact State.RunOnly.finish s (hsame (State.engine_of_fixed (by simp)))
    · exact h
  case takenWriteDone c ok =>
    simp only [effectOf, takenWriteDoneEffect]
    repeat' split
    · exact State.RunOnly.finish s (hsame (State.engine_of_fixed (by simp)))
    · exact (State.runOnly_fatalFault _ (hsame (t := (s.endWork c).setSlot _ .free)
        (State.engine_of_fixed (by simp)))).finish s
    · exact h
  case fetchFailWriteDone c last ok =>
    simp only [effectOf, fetchFailWriteDoneEffect]
    repeat' split
    · exact hsame (State.engine_of_fixed (by simp))
    · exact hsame (State.engine_of_fixed (by simp))
    · exact h
    · exact State.RunOnly.finish s (hsame (State.engine_of_fixed (by simp)))
    · exact (State.runOnly_fatalFault _ (hsame (t := s.endWork c) (State.engine_of_fixed (by simp)))).finish s
    · exact h
  case resultWriteDone i last ok =>
    simp only [effectOf, resultWriteDoneEffect]
    repeat' split
    · exact h
    · exact hsame rfl
    · exact hsame rfl
    · exact h
    · exact (State.runOnly_retireFailed i h).finish s
    · exact h
    · exact h
  case stateWordWriteDone i ok =>
    simp only [effectOf, stateWordWriteDoneEffect]
    repeat' split
    · exact h
    · exact h
    · exact State.RunOnly.finish s (hsame (State.engine_of_fixed (by simp)))
    · exact (State.runOnly_retireFailed i h).finish s
    · exact h
  case engineEntersRunning =>
    simp only [effectOf, engineEntersRunningEffect]
    rw [if_neg (by rw [hrun]; simp)]
    exact h
  case engineStopped =>
    simp only [effectOf, engineStoppedEffect]
    rw [if_neg (by rw [hrun]; simp)]
    exact h
  case resetNRelease => simp only [effectOf, resetNReleaseEffect]; split <;> exact hsame rfl
  case cbaddrWrite v => simp only [effectOf, cbaddrWriteEffect]; split <;> exact hsame rfl
  case noticeenWrite v => exact hsame rfl
  case tilechgRead off len => simp only [effectOf, tilechgReadEffect]; split <;> exact hsame rfl
  case trigPinChange i l =>
    simp only [effectOf, trigPinChangeEffect]
    split
    · exact h
    · cases i <;> exact hsame rfl
  case trigFilterExpiry i => exact hsame (trigFilterExpiryEffect_mode i s).1
  case timebaseTick => exact hsame rfl
  case wakeHistoryAgeOut =>
    simp only [effectOf, wakeHistoryAgeOutEffect]
    repeat' split
    all_goals exact hsame rfl
  case packetIssue p => exact hsame (packetIssueEffect_mode p s).1
  all_goals first
    | exact absurd rfl hw
    | exact absurd rfl hb

end Sys2Proof.Machine
end

section
/-! Every command leaves no step over, and no failed part unsettled, where there was none (R34, R37). With the jobs' moves, O31. -/

namespace Sys2Proof.Machine

/-! ## Commands that leave jobs at their steps -/

/-- What `t` may not break of `s`: no job stands with its step over, and failed parts drain with their packets in flight. -/
structure Calm (s t : State) : Prop where
  ready : s.readySlots = [] → t.readySlots = []
  settled : s.Settled → t.Settled

theorem Calm.refl (s : State) : Calm s s := ⟨id, id⟩

theorem Calm.finish (s before u : State) : Calm s (finish before u) :=
  ⟨fun _ => readySlots_finish before u, fun _ => settled_finish before u⟩

theorem Calm.of_slots {s t : State} (h : t.slots = s.slots) (hin : ∀ i x, s.hasInFlight i x = true → t.hasInFlight i x = true) :
    Calm s t := by
  refine ⟨fun hs => (State.readySlots_of_slots h).trans hs, fun hs i j hj q hq hf => ?_⟩
  rw [State.job_of_slots h] at hj
  obtain ⟨hc, hg, hflight⟩ := hs i j hj q hq hf
  exact ⟨hc, hg, hin i q.tile hflight⟩

theorem State.hasInFlight_of_ports {s t : State} (h : t.ports = s.ports) (i : SlotNum) (x : TileNum) :
    t.hasInFlight i x = s.hasInFlight i x := by
  unfold State.hasInFlight
  have hA : t.portA = s.portA := (congrArg Prod.fst h :)
  have hB : t.portB = s.portB := (congrArg Prod.snd h :)
  cases hp : portOf x
  · rw [show t.port .A = s.port .A from hA]
  · rw [show t.port .B = s.port .B from hB]

theorem Calm.of_ports {s t : State} (h : t.slots = s.slots) (hp : t.ports = s.ports) : Calm s t :=
  .of_slots h fun i x hin => (State.hasInFlight_of_ports hp i x).trans hin

/-- A command whose jobs are at the step they were at, with no failed part it did not find. -/
theorem Calm.of_jobs {s t : State} (hin : ∀ i x, s.hasInFlight i x = true → t.hasInFlight i x = true)
    (h : ∀ i j', t.job i = some j' → j'.parts = [] ∧ j'.phase.isRunning = false ∨ ∃ j, s.job i = some j ∧
      (j'.stepOver = true → j.stepOver = true) ∧
      (j.Settled (s.hasInFlight i) → ∀ q ∈ j'.parts, q.cond.hasFailed = true → q ∈ j.parts)) : Calm s t where
  ready hs := by
    refine List.eq_nil_iff_forall_not_mem.2 fun i hi => ?_
    obtain ⟨j', hj', hover⟩ := State.mem_readySlots.1 hi
    rcases h i j' hj' with ⟨-, hstill⟩ | ⟨j, hj, hstep, -⟩
    · rw [(Job.current_lt_of_stepOver hover).1] at hstill
      cases hstill
    · have : i ∈ s.readySlots := State.mem_readySlots.2 ⟨j, hj, hstep hover⟩
      rw [hs] at this
      cases this
  settled hs i j' hj' q hq hf := by
    rcases h i j' hj' with ⟨hparts, -⟩ | ⟨j, hj, -, hmem⟩
    · rw [hparts] at hq
      cases hq
    · obtain ⟨hc, hg, hflight⟩ := hs i j hj q (hmem (hs i j hj) q hq hf) hf
      exact ⟨hc, hg, hin i q.tile hflight⟩

/-- Changing one part of a job leaves the job at its step. -/
theorem Job.stepOver_setPart (j : Job) (t : TileNum) (f : TilePart → TilePart) : (j.setPart t f).stepOver = j.stepOver := by
  unfold Job.stepOver Job.setPart Job.step?
  simp

theorem Job.mem_setPart_of_failed {j : Job} {t : TileNum} {f : TilePart → TilePart}
    (hf : ∀ q ∈ j.parts, (f q).cond.hasFailed = true → f q = q) {q : TilePart} (hq : q ∈ (j.setPart t f).parts)
    (hfail : q.cond.hasFailed = true) : q ∈ j.parts := by
  obtain ⟨q', hq', rfl⟩ := List.mem_map.1 hq
  split at hfail
  · next h =>
    rw [if_pos h, hf q' hq' hfail]
    exact hq'
  · next h =>
    rw [if_neg h]
    exact hq'

/-- Nothing but counts and parts of a job changed, and no part to a failed one. -/
structure Job.SameStep (j k : Job) : Prop where
  step : k.stepOver = j.stepOver
  failed : ∀ q ∈ k.parts, q.cond.hasFailed = true → q ∈ j.parts

theorem Job.SameStep.trans {j k l : Job} (h : j.SameStep k) (g : k.SameStep l) : j.SameStep l :=
  ⟨g.step.trans h.step, fun q hq hf => h.failed q (g.failed q hq hf) hf⟩

theorem Job.SameStep.setPart {j : Job} {t : TileNum} {f : TilePart → TilePart}
    (hf : ∀ q ∈ j.parts, (f q).cond.hasFailed = true → f q = q) : j.SameStep (j.setPart t f) :=
  ⟨j.stepOver_setPart t f, fun _ hq hfail => Job.mem_setPart_of_failed hf hq hfail⟩

/-- Every job of `t` is one of `s` at the same step. -/
def SameSteps (s t : State) : Prop := ∀ i j', t.job i = some j' → ∃ j, s.job i = some j ∧ j.SameStep j'

theorem SameSteps.refl (s : State) : SameSteps s s := fun _ j h => ⟨j, h, rfl, fun _ h _ => h⟩

theorem SameSteps.trans {s t u : State} (h : SameSteps s t) (g : SameSteps t u) : SameSteps s u := fun i j hj => by
  obtain ⟨k, hk, hkj⟩ := g i j hj
  obtain ⟨l, hl, hlk⟩ := h i k hk
  exact ⟨l, hl, hlk.trans hkj⟩

theorem SameSteps.of_slots {s t : State} (h : t.slots = s.slots) : SameSteps s t := fun i j hj => by
  rw [State.job_of_slots h] at hj
  exact SameSteps.refl s i j hj

theorem SameSteps.modJob (s : State) (i : SlotNum) {f : Job → Job} (hf : ∀ j : Job, j.SameStep (f j)) : SameSteps s (s.modJob i f) :=
  fun k j' hj' => by
    rw [State.job_modJob] at hj'
    split at hj'
    · next h =>
      subst h
      obtain ⟨j, hj, rfl⟩ := Option.map_eq_some_iff.1 hj'
      exact ⟨j, hj, hf j⟩
    · exact SameSteps.refl s k j' hj'

theorem SameSteps.calm {s t : State} (h : SameSteps s t)
    (hin : ∀ i x, s.hasInFlight i x = true → t.hasInFlight i x = true) : Calm s t :=
  .of_jobs hin fun i j' hj' => by
    obtain ⟨j, hj, hstep, hfailed⟩ := h i j' hj'
    exact .inr ⟨j, hj, fun ho => hstep ▸ ho, fun _ => hfailed⟩

/-! ## The issue of a packet -/

/-- Every entry in flight in `s` is in flight in `t`. -/
def KeepsEntries (s t : State) : Prop := ∀ p, ∀ e ∈ (s.port p).inFlight, e ∈ (t.port p).inFlight

theorem KeepsEntries.trans {s t u : State} (h : KeepsEntries s t) (g : KeepsEntries t u) : KeepsEntries s u :=
  fun p e he => g p e (h p e he)

theorem KeepsEntries.of_ports {s t : State} (h : t.ports = s.ports) : KeepsEntries s t := fun p e he => by
  rw [State.port_of_ports h]
  exact he

theorem KeepsEntries.hasInFlight {s t : State} (h : KeepsEntries s t) (i : SlotNum) (x : TileNum)
    (hin : s.hasInFlight i x = true) : t.hasInFlight i x = true := by
  obtain ⟨e, he, hx⟩ := List.any_eq_true.1 hin
  exact List.any_eq_true.2 ⟨e, h _ e he, hx⟩

theorem KeepsEntries.issuePacket (s : State) (p : PortId) (x : TileNum) (g : Tag) (o : Owner) (sh : Shape) :
    KeepsEntries s (s.issuePacket p x g o sh) := fun q e he => by
  unfold State.issuePacket
  dsimp only
  by_cases hq : q = p
  · subst hq
    simp [he]
  · simpa [State.port_modPort_ne _ _ hq] using he

section
variable (s : State)

theorem sameSteps_holdRiders (t : TileNum) : SameSteps s (s.holdRiders t) := by
  refine foldl_rel (R := SameSteps) SameSteps.refl (fun _ _ _ => SameSteps.trans) (fun u i => ?_) _ s
  split
  · exact SameSteps.modJob u i fun j => .setPart fun _ _ hf => absurd hf (by simp [PartCond.hasFailed])
  · exact .refl u

theorem sameSteps_segmentIssued (i : SlotNum) (t : TileNum) (st : Step) (o : Option Stream) (n : Nat) :
    SameSteps s (s.segmentIssued i t st o n) := by
  unfold State.segmentIssued
  dsimp only
  refine SameSteps.trans (SameSteps.of_slots ?_) (SameSteps.modJob _ i fun j => .setPart fun q _ hf => ?_)
  · rfl
  split
  · rfl
  · next hc =>
    rw [if_neg hc] at hf
    split at hf
    · cases hf
    · rw [show q.cond = .candidate from not_not.1 hc] at hf
      cases hf

theorem sameSteps_issue (p : PortId) (c : Cand) (g : Tag) : SameSteps s (s.issue p c g) := by
  unfold State.issue
  split
  · exact .of_slots (by simp)
  · next i _ =>
    split
    · exact .refl s
    · split
      · exact .refl s
      · next st _ =>
        dsimp only
        have hcount (sh : Shape) (o : Owner) : SameSteps s ((s.issuePacket p c.tile g o sh).modJob i
            fun j => { j with outstanding := j.outstanding + 1 }) :=
          SameSteps.trans (.of_slots (by simp)) (SameSteps.modJob _ i fun _ => ⟨rfl, fun _ h _ => h⟩)
        split
        · exact (hcount _ _).trans (sameSteps_segmentIssued _ _ _ _ _ _)
        · have hissued (u : State) :
              SameSteps u (u.modJob i fun j => j.setPart c.tile fun q => { q with cond := .issued }) :=
            SameSteps.modJob u i fun _ => .setPart fun _ _ hf => absurd hf (by simp [PartCond.hasFailed])
          have hgrant (u : State) : SameSteps u (u.recordGrant.holdRiders c.tile) := by
            refine SameSteps.trans (SameSteps.of_slots ?_) (sameSteps_holdRiders _ _)
            rfl
          split
          · exact ((hcount _ _).trans (hissued _)).trans (hgrant _)
          · exact (hcount _ _).trans (hissued _)

theorem keepsEntries_issue (p : PortId) (c : Cand) (g : Tag) : KeepsEntries s (s.issue p c g) := by
  unfold State.issue
  split
  · exact (KeepsEntries.issuePacket s p c.tile g _ _).trans (.of_ports rfl)
  · next i _ =>
    split
    · exact .of_ports rfl
    · next j _ =>
      split
      · exact .of_ports rfl
      · next st _ =>
        dsimp only
        split
        · exact (KeepsEntries.issuePacket s p c.tile g (.job i j.current) (segmentShape st (s.ownStream i c.tile)
            ((s.staged i c.tile).getD []))).trans (.of_ports (by simp [State.segmentIssued]))
        · refine (KeepsEntries.issuePacket s p c.tile g (.job i j.current) (settingShape st)).trans (.of_ports ?_)
          split
          · rw [State.ports_holdRiders]
            exact (State.ports_modJob _ _ _).trans (State.ports_modJob _ _ _)
          · exact (State.ports_modJob _ _ _).trans (State.ports_modJob _ _ _)

theorem calm_packetIssueEffect (p : PortId) : Calm s (packetIssueEffect p s) := by
  unfold packetIssueEffect
  split
  · split
    · next c g hc hg =>
      have hkeeps : KeepsEntries s ((commit s (s.issue p c g)).presentAfterIssue p c) :=
        (keepsEntries_issue s p c g).trans (.of_ports (by simp))
      exact SameSteps.calm ((sameSteps_issue s p c g).trans (.of_slots (by simp))) hkeeps.hasInFlight
    · exact .refl s
  · exact .refl s

end

theorem KeepsEntries.modPort (s : State) (p : PortId) {f : Port → Port} (hf : ∀ v, (f v).inFlight = v.inFlight) :
    KeepsEntries s (s.modPort p f) := fun q e he => by
  by_cases hq : q = p
  · subst hq
    rw [State.port_modPort, hf]
    exact he
  · rw [State.port_modPort_ne _ _ hq]
    exact he

theorem Calm.modPort (s : State) (p : PortId) {f : Port → Port} (hf : ∀ v, (f v).inFlight = v.inFlight) :
    Calm s (s.modPort p f) := .of_slots (by simp) (KeepsEntries.modPort s p hf).hasInFlight

theorem Calm.trans {s t u : State} (h : Calm s t) (g : Calm t u) : Calm s u := ⟨g.ready ∘ h.ready, g.settled ∘ h.settled⟩

theorem State.hasInFlight_startDestWrite (s : State) (p : PortId) (e : Entry) (w : DestWrite) (i : SlotNum) (x : TileNum) :
    (s.startDestWrite p e w).hasInFlight i x = s.hasInFlight i x := by
  unfold State.hasInFlight State.startDestWrite
  by_cases hp : portOf x = p
  · subst hp
    rw [State.port_modPort]
    dsimp only
    rw [List.any_map]
    refine congrArg (fun f => List.any _ f) (funext fun f => ?_)
    simp only [Function.comp_apply]
    split <;> rfl
  · rw [State.port_modPort_ne _ _ hp]

theorem calm_dataReceivedEffect (s : State) (p : PortId) (d : Position) (g : Tag) (ws : List Word) :
    Calm s (dataReceivedEffect p d g ws s) := by
  unfold dataReceivedEffect
  split
  · split
    · exact .finish s _ _
    · next e _ =>
      dsimp only
      repeat' split
      · exact .finish s _ _
      · exact .finish s _ _
      · exact .finish s _ _
      · refine Calm.trans (.modPort s p (f := fun v => { v with cutWrites := v.cutWrites ++ e.writeUnderWay }) fun _ => rfl)
          (.of_slots (by simp [State.startDestWrite, State.keepOlderWrite_eq]) fun i x hin => ?_)
        rw [State.hasInFlight_startDestWrite, State.keepOlderWrite_eq]
        exact hin
      · exact .finish s _ _
  · exact .refl s

/-! ## The ends of staging reads and of result writes -/

theorem calm_stagingReadDoneEffect (s : State) (i : SlotNum) (t : TileNum) (r : ReadResult) :
    Calm s (stagingReadDoneEffect i t r s) := by
  have hread (g : Staging) : Calm s (s.endStagingRead i t g) := by
    unfold State.endStagingRead
    refine .of_jobs (fun k x hin => (s.hasInFlight_modJob i k _ x).trans hin) fun k j' hj' => ?_
    rw [State.job_modJob] at hj'
    split at hj'
    · next e =>
      subst e
      obtain ⟨j, hj, rfl⟩ := Option.map_eq_some_iff.1 hj'
      refine .inr ⟨j, hj, fun ho => (Job.stepOver_setPart ..) ▸ ho, fun hs q hq hf => Job.mem_setPart_of_failed ?_ hq hf⟩
      intro q' hq' hfail
      split
      · next hreading =>
        rw [if_pos hreading] at hfail
        rw [(hs q' hq' hfail).2.1] at hreading
        cases hreading
      · rfl
    · exact .inr ⟨j', hj', id, fun _ _ h _ => h⟩
  unfold stagingReadDoneEffect State.stagingReadEnds
  repeat' split
  · exact .of_slots rfl fun _ _ => id
  · exact hread _
  · exact .finish s _ _
  · exact .refl s
  · exact .refl s

theorem calm_setSlot {s : State} {i : SlotNum} {v : Slot}
    (hv : ∀ j', v.job? = some j' → j'.phase.isRunning = false ∧ (j'.parts = [] ∨ ∃ j, s.job i = some j ∧ j'.parts = j.parts)) :
    Calm s (s.setSlot i v) :=
  .of_jobs (fun _ _ => id) fun k j' hj' => by
    rw [State.job_setSlot] at hj'
    split at hj'
    · next e =>
      subst e
      obtain ⟨hstill, hparts⟩ := hv j' hj'
      rcases hparts with hparts | ⟨j, hj, hparts⟩
      · exact .inl ⟨hparts, hstill⟩
      · refine .inr ⟨j, hj, fun ho => ?_, fun _ q hq _ => hparts ▸ hq⟩
        rw [(Job.current_lt_of_stepOver ho).1] at hstill
        cases hstill
    · exact .inr ⟨j', hj', id, fun _ _ h _ => h⟩

theorem calm_resultWriteDoneEffect (s : State) (i : SlotNum) (last ok : Bool) : Calm s (resultWriteDoneEffect i last ok s) := by
  unfold resultWriteDoneEffect
  split
  · exact .refl s
  · next j hj =>
    repeat' split
    · exact calm_setSlot fun _ h => by cases h
    · refine calm_setSlot fun j' h => ?_
      cases h
      exact ⟨rfl, .inr ⟨j, hj, rfl⟩⟩
    · exact .refl s
    · exact .finish s _ _
    · exact .refl s
    · exact .refl s

theorem calm_slotOfferEffect (s : State) (i : SlotNum) : Calm s (slotOfferEffect i s) := by
  have hclaim (c : Chain) (d : Fetched) : Calm s (s.claim c d i) := by
    have hslot : Calm s (s.setSlot i (.claimed c)) := calm_setSlot fun _ h => by cases h
    have hwalker : Calm (s.setSlot i (.claimed c)) (s.claim c d i) :=
      .of_ports (by simp [State.claim]) (State.ports_of_fixed (by simp [State.claim]))
    exact ⟨hwalker.ready ∘ hslot.ready, hwalker.settled ∘ hslot.settled⟩
  unfold slotOfferEffect
  split
  · next c d _ =>
    have hwalker : Calm (s.claim c d i) ((s.claim c d i).modWalker (otherChain c)
        (Walker.modOffers fun o => o.filter fun k => decide (k ≠ i))) :=
      .of_ports (by simp) (State.ports_of_fixed (by simp))
    exact ⟨hwalker.ready ∘ (hclaim c d).ready, hwalker.settled ∘ (hclaim c d).settled⟩
  · exact .refl s

theorem calm_of_free {s t : State} (h : t.slots = Vector.replicate 8 .free) : Calm s t := by
  have hnone (i : SlotNum) : t.job i = none := by rw [State.job, State.slot, h, slots_replicate_job]
  refine ⟨fun _ => List.eq_nil_iff_forall_not_mem.2 fun i hi => ?_, fun _ i j hj => ?_⟩
  · obtain ⟨j, hj, -⟩ := State.mem_readySlots.1 hi
    rw [hnone] at hj
    cases hj
  · rw [hnone] at hj
    cases hj

/-! ## All commands -/

theorem calm_effectOf (c : Instr) (s : State) : Calm s (effectOf c s) := by
  cases c
  case packetIssue p => exact calm_packetIssueEffect s p
  case stagingReadDone i t r => exact calm_stagingReadDoneEffect s i t r
  case resultWriteDone i last ok => exact calm_resultWriteDoneEffect s i last ok
  case slotOffer i => exact calm_slotOfferEffect s i
  case start =>
    simp only [effectOf, startEffect]
    repeat' split
    · exact .of_ports (State.slots_startFails _ _) (State.ports_startFails _ _)
    · exact .of_ports rfl rfl
    · exact .of_ports rfl rfl
  case stop =>
    simp only [effectOf, stopEffect]
    split
    · exact .finish s _ _
    · exact .of_ports rfl rfl
  case reset => exact calm_of_free rfl
  case hardReset => exact calm_of_free rfl
  case enumerate =>
    simp only [effectOf, enumerateEffect]
    split
    · exact .finish s _ _
    · exact .of_ports rfl rfl
  case rescanN => simp only [effectOf, rescanNEffect, State.rescan]; split <;> exact .of_ports (by simp) (State.ports_of_fixed (by simp))
  case rescanP => simp only [effectOf, rescanPEffect, State.rescan]; split <;> exact .of_ports (by simp) (State.ports_of_fixed (by simp))
  case resumeN =>
    simp only [effectOf, resumeNEffect, State.resume]; repeat' split
    all_goals exact .of_ports (by simp) (State.ports_of_fixed (by simp))
  case resumeP =>
    simp only [effectOf, resumePEffect, State.resume]; repeat' split
    all_goals exact .of_ports (by simp) (State.ports_of_fixed (by simp))
  case abortN =>
    simp only [effectOf, abortNEffect, State.abortCommand]
    split
    · exact .finish s _ _
    · exact .of_ports rfl rfl
  case abortP =>
    simp only [effectOf, abortPEffect, State.abortCommand]
    split
    · exact .finish s _ _
    · exact .of_ports rfl rfl
  case unknownCommand code => simp only [effectOf, unknownCommandEffect]; split <;> exact .of_ports rfl rfl
  case cbaddrWrite v => simp only [effectOf, cbaddrWriteEffect]; split <;> exact .of_ports rfl rfl
  case noticeWrite v => exact .of_ports rfl rfl
  case noticeenWrite v => exact .of_ports rfl rfl
  case tilechgRead off len => simp only [effectOf, tilechgReadEffect]; split <;> exact .of_ports rfl rfl
  case registerWriteIgnored off len => simp only [effectOf, registerWriteIgnoredEffect]; split <;> exact .of_ports rfl rfl
  case resetNRelease => simp only [effectOf, resetNReleaseEffect]; split <;> exact .of_ports rfl rfl
  case trigPinChange i l =>
    simp only [effectOf, trigPinChangeEffect]
    split
    · exact .refl s
    · cases i <;> exact .of_ports rfl rfl
  case trigFilterExpiry i =>
    simp only [effectOf, trigFilterExpiryEffect]
    repeat' split
    · exact .finish s _ _
    · cases i <;> exact .of_ports rfl rfl
    · exact .refl s
  case syncPulseExpiry o => cases o <;> exact .of_ports rfl rfl
  case receiverLock p =>
    have hlock : Calm s (s.modPort p fun v => { v with rxLock := true }) := .modPort s p fun _ => rfl
    simp only [effectOf, receiverLockEffect]
    repeat' split
    · exact .finish s _ _
    all_goals first
      | exact hlock
      | exact .refl s
  case tileLock p =>
    have hlock : Calm s (s.modPort p fun v => { v with tileLock := true }) := .modPort s p fun _ => rfl
    simp only [effectOf, tileLockEffect]
    repeat' split
    · exact .finish s _ _
    all_goals first
      | exact hlock
      | exact .refl s
  case hardError p =>
    simp only [effectOf, hardErrorEffect]
    repeat' split
    all_goals first
      | exact .finish s _ _
      | exact .refl s
  case ackReceived p d g st =>
    simp only [effectOf, ackReceivedEffect]
    repeat' split
    all_goals first
      | exact .finish s _ _
      | exact .refl s
  case dataReceived p d g ws => exact calm_dataReceivedEffect s p d g ws
  case faultNotice p d code =>
    simp only [effectOf, faultNoticeEffect]
    split
    · exact .finish s _ _
    · exact .refl s
  case frameNotice p d =>
    simp only [effectOf, frameNoticeEffect]
    split
    · exact .finish s _ _
    · exact .refl s
  case linkErrorPacket p bs =>
    simp only [effectOf, linkErrorPacketEffect]
    repeat' split
    all_goals exact .of_ports rfl rfl
  case transmissionEnd p =>
    simp only [effectOf, transmissionEndEffect]
    split
    · exact .refl s
    · have hsilent : Calm s (s.modPort p fun v => { v with transmitting := none }) := .modPort s p fun _ => rfl
      exact hsilent.trans (.of_ports (slots_commit _ _) (State.ports_commit _ _))
  case timebaseTick => exact .of_ports rfl rfl
  case attemptTimerExpiry p =>
    simp only [effectOf, attemptTimerExpiryEffect]
    split
    · exact .finish s _ _
    · exact .refl s
  case chainResetWaitExpiry p =>
    simp only [effectOf, chainResetWaitExpiryEffect]
    split
    · exact .finish s _ _
    · exact .refl s
  case probeDeadlineExpiry p =>
    simp only [effectOf, probeDeadlineExpiryEffect]
    split
    · exact .finish s _ _
    · exact .refl s
  case replyDeadlineExpiry p g =>
    simp only [effectOf, replyDeadlineExpiryEffect]
    split
    · next e _ =>
      have hslots : (commit s ((settle s (s.timeoutTile p e)).setError e.tile .timeout)).slots =
          (settle s (s.timeoutTile p e)).slots := by simp
      refine ⟨fun _ => (State.readySlots_of_slots hslots).trans (readySlots_settle _ _), fun _ => ?_⟩
      exact settled_commit s ((settled_settle s _).of_slots (State.slots_setError _ _ _)
        fun i x => (State.setError_frame _ _ _).hasInFlight i x)
    · exact .refl s
  case settleTimerExpiry t =>
    simp only [effectOf, settleTimerExpiryEffect]
    split
    · exact .finish s _ _
    · exact .refl s
  case restTimerExpiry t =>
    simp only [effectOf, restTimerExpiryEffect]
    split
    · exact .finish s _ _
    · exact .refl s
  case pollTimerExpiry c =>
    simp only [effectOf, pollTimerExpiryEffect]
    split <;> exact .of_ports (by simp) (State.ports_of_fixed (by simp))
  case waitTimeout i =>
    simp only [effectOf, waitTimeoutEffect]
    exact iteInduction (fun _ => iteInduction (fun _ => .finish s _ _) fun _ => .finish s _ _) fun _ => .refl s
  case pauseExpiry i =>
    simp only [effectOf, pauseExpiryEffect]
    repeat' split
    · exact .refl s
    · exact .finish s _ _
    · exact .refl s
  case wakeHistoryAgeOut =>
    simp only [effectOf, wakeHistoryAgeOutEffect]
    repeat' split
    all_goals exact .of_ports rfl rfl
  case sleepGateOpen t => simp only [effectOf, sleepGateOpenEffect]; split <;> exact .of_ports rfl rfl
  case readyGateOpen t => simp only [effectOf, readyGateOpenEffect]; split <;> exact .of_ports rfl rfl
  case controlBlockReadDone r =>
    simp only [effectOf, controlBlockReadDoneEffect]
    repeat' split
    · exact .of_ports (State.slots_startFails _ _) (State.ports_startFails _ _)
    · exact .of_ports (State.slots_startFails _ _) (State.ports_startFails _ _)
    · exact .of_ports (State.slots_takeSettings _ _) (State.ports_takeSettings _ _)
    · exact .of_ports rfl rfl
    · exact .refl s
  case statusWriteDone t ok =>
    simp only [effectOf, statusWriteDoneEffect]
    repeat' split
    · exact .refl s
    · exact .of_ports (by simp) (by simp)
    · exact .of_ports (by simp) (by simp)
    · exact .finish s _ _
    · exact .finish s _ _
  case statusRewriteStart t => simp only [effectOf, statusRewriteStartEffect]; split <;> exact .of_ports rfl rfl
  case headerReadDone c r =>
    simp only [effectOf, headerReadDoneEffect]
    split
    · exact .finish s _ _
    · exact .finish s _ _
    · exact .refl s
  case stepReadDone c r =>
    simp only [effectOf, stepReadDoneEffect]
    split
    · exact .finish s _ _
    · exact .refl s
  case rescanReadDone c r =>
    simp only [effectOf, rescanReadDoneEffect]
    split
    · exact .finish s _ _
    · exact .refl s
  case takenWriteDone c ok =>
    simp only [effectOf, takenWriteDoneEffect]
    repeat' split
    · exact .finish s _ _
    · exact .finish s _ _
    · exact .refl s
  case fetchFailWriteDone c last ok =>
    simp only [effectOf, fetchFailWriteDoneEffect]
    repeat' split
    · exact .of_ports (by simp) (State.ports_of_fixed (by simp))
    · exact .of_ports (by simp) (State.ports_of_fixed (by simp))
    · exact .refl s
    · exact .finish s _ _
    · exact .finish s _ _
    · exact .refl s
  case stateWordWriteDone i ok =>
    simp only [effectOf, stateWordWriteDoneEffect]
    repeat' split
    all_goals first
      | exact .refl s
      | exact .finish s _ _
  case destinationWriteDone p g ok =>
    simp only [effectOf, destinationWriteDoneEffect]
    repeat' split
    · exact .modPort s p fun _ => rfl
    · exact .finish s _ _
    · exact .refl s
  case jobAdmission i =>
    simp only [effectOf, jobAdmissionEffect]
    split
    · exact .finish s _ _
    · exact .refl s
  case jobDrained i =>
    simp only [effectOf, jobDrainedEffect]
    repeat' split
    · exact .refl s
    · exact .finish s _ _
    · exact .refl s
  case rescanPending c =>
    simp only [effectOf, rescanPendingEffect]
    split <;> exact .of_ports (by simp) (State.ports_of_fixed (by simp))
  case resumeDeferred c =>
    simp only [effectOf, resumeDeferredEffect]
    split <;> exact .of_ports (by simp) (State.ports_of_fixed (by simp))
  case engineEntersRunning =>
    simp only [effectOf, engineEntersRunningEffect]
    split
    · exact .finish s _ _
    · exact .refl s
  case engineStopped => simp only [effectOf, engineStoppedEffect]; split <;> exact .of_ports rfl rfl

/-! ## What holds between two events -/

theorem Quiet.sound {s : State} (h : Quiet s) : ∀ i, ∀ j ∈ s.job i, j.Sound := by
  obtain ⟨-, hdone, -, hwith, -⟩ := h
  exact fun i j hj => ⟨fun hd => absurd ((hdone i j hj).symm.trans hd) (by simp), hwith i j hj⟩

theorem Quiet.settled {s : State} (h : Quiet s) : s.Settled := h.2.2.1

theorem Quiet.runOnly {s : State} (h : Quiet s) : s.RunOnly := State.runOnly_iff.2 h.2.2.2.2

theorem Quiet.of_sound {s : State} (hready : s.readySlots = []) (hsound : ∀ i, ∀ j ∈ s.job i, j.Sound) (hsettled : s.Settled)
    (hrun : s.RunOnly) : Quiet s := by
  refine ⟨hready, fun i j hj => ?_, hsettled, fun i j hj => (hsound i j hj).withdrawn, State.runOnly_iff.1 hrun⟩
  by_contra hdone
  have hat := (hsound i j hj).engineDone (by simpa using hdone)
  have hover : j.stepOver = true := by
    unfold Job.atEngineStep at hat
    unfold Job.stepOver
    rw [Bool.and_eq_true] at hat ⊢
    refine ⟨hat.1, ?_⟩
    obtain ⟨-, hat⟩ := hat
    cases hs : j.step? with
    | none => rw [hs] at hat; cases hat
    | some st =>
      rw [hs] at hat
      simpa [show st.kind.isEngine = true from hat] using hdone
  have : i ∈ s.readySlots := State.mem_readySlots.2 ⟨j, hj, hover⟩
  rw [hready] at this
  cases this

theorem quiet_effectOf (c : Instr) (s : State) (h : Quiet s) : Quiet (effectOf c s) := by
  refine .of_sound ((calm_effectOf c s).ready h.1) ?_ ((calm_effectOf c s).settled h.settled) (runOnly_effectOf c s h.runOnly)
  refine effectOf_jobs (fun _ _ hj hm => hm.sound hj) c s (fun _ j w hj hq => ⟨fun hd => ?_, fun q hmem hw => ?_⟩)
    (fun _ _ _ _ _ => ?_) h.sound
  · have hat := hj.engineDone hd
    cases hp : j.phase <;> simp [Job.atEngineStep, Phase.isRunning, Phase.isQueued, hp] at hat hq
  · have hdrain := hj.withdrawn q hmem hw
    cases hp : j.phase <;> simp [Phase.isDraining, Phase.isQueued, hp] at hdrain hq
  · exact ⟨fun hd => absurd hd (by simp [Fetched.job]), fun _ hq => absurd hq List.not_mem_nil⟩

end Sys2Proof.Machine
end

section
/-! No walker brings a job without steps: a header passes check 4 with a step at least, and what is fetched, held or written TAKEN
has the steps of its header (R22, R53). With it, O31. -/

namespace Sys2Proof.Machine

theorem checkSteps_ne_nil {st : Settings} {bs : List Byte} {k n : Nat} {ps : List Step} (hn : 1 ≤ n)
    (h : checkSteps st bs k n = .ok ps) : ps ≠ [] := by
  cases n with
  | zero => omega
  | succ n =>
    unfold checkSteps at h
    repeat' split at h
    all_goals cases h
    exact List.cons_ne_nil _ _

/-- What the walkers fetch, hold or have marked TAKEN has steps. -/
def State.WorkSteps (s : State) : Prop := ∀ c, (s.walker c).work.HasSteps

section
variable {s t : State}

theorem State.WorkSteps.of_walkers (h : s.WorkSteps) (hw : ∀ c, t.walker c = s.walker c) : t.WorkSteps := fun c => by
  rw [hw]
  exact h c

theorem State.WorkSteps.of_body (h : s.WorkSteps) (hb : t.body = s.body) : t.WorkSteps :=
  h.of_walkers (State.walker_of_body hb)

theorem State.WorkSteps.modWalker (h : s.WorkSteps) (c : Chain) {f : Walker → Walker} (hf : (f (s.walker c)).work.HasSteps) :
    (s.modWalker c f).WorkSteps := fun d => by
  by_cases hd : d = c
  · subst hd
    rw [State.walker_modWalker]
    exact hf
  · rw [State.walker_modWalker_ne _ _ hd]
    exact h d

/-- A walker changed but for its work. -/
theorem State.WorkSteps.modWalker_rest (h : s.WorkSteps) (c : Chain) {f : Walker → Walker}
    (hf : (f (s.walker c)).work = (s.walker c).work) : (s.modWalker c f).WorkSteps :=
  h.modWalker c (by rw [hf]; exact h c)

theorem State.WorkSteps.finish (h : s.WorkSteps) (before : State) : (finish before s).WorkSteps :=
  h.of_body (State.body_finish before s)

theorem WalkerWork.hasSteps_none : WalkerWork.none.HasSteps := trivial

theorem State.WorkSteps.endWork (h : s.WorkSteps) (c : Chain) : (s.endWork c).WorkSteps := h.modWalker c trivial

theorem State.WorkSteps.parkWalker (h : s.WorkSteps) (c : Chain) : (s.parkWalker c).WorkSteps := h.modWalker c trivial

theorem State.WorkSteps.haltWalker (h : s.WorkSteps) (c : Chain) (k : HaltCause) : (s.haltWalker c k).WorkSteps := by
  have hhalt : ((s.modWalker c (Walker.halt s.now k)).raise .chain).WorkSteps := by
    refine State.WorkSteps.of_body (s := s.modWalker c (Walker.halt s.now k)) (h.modWalker c ?_) (State.body_raise _ _)
    have hc := h c
    unfold Walker.halt
    dsimp only
    split
    · trivial
    · exact hc
  unfold State.haltWalker
  split
  · dsimp only
    split
    · exact hhalt
    · exact hhalt.of_body (State.body_skipQueued _ c)
  · exact h

theorem State.WorkSteps.beginFetch (h : s.WorkSteps) (c : Chain) (a : Word) : (s.beginFetch c a).WorkSteps := by
  unfold State.beginFetch
  split
  · exact h.modWalker c trivial
  · exact (h.endWork c).haltWalker c _

theorem State.WorkSteps.followLink (h : s.WorkSteps) (c : Chain) (a : Word) : (s.followLink c a).WorkSteps := by
  unfold State.followLink
  split
  · exact h.parkWalker c
  · exact h.beginFetch c a

theorem State.WorkSteps.check4 (h : s.WorkSteps) (c : Chain) (a : Word) (bs : List Byte) : (s.check4 c a bs).WorkSteps := by
  unfold State.check4
  split
  · next hpass => exact h.modWalker c hpass.1
  · exact h.modWalker c trivial

theorem State.WorkSteps.fetchHeader (h : s.WorkSteps) (c : Chain) (a : Word) (r : ReadResult) :
    (s.fetchHeader c a r).WorkSteps := by
  unfold State.fetchHeader
  repeat' split
  · exact h.endWork c
  · exact (h.endWork c).haltWalker c _
  · exact h.check4 c a _
  · exact h.endWork c
  · exact h.parkWalker c

theorem State.WorkSteps.rescanHeader (h : s.WorkSteps) (c : Chain) (a : Word) (r : ReadResult) :
    (s.rescanHeader c a r).WorkSteps := by
  unfold State.rescanHeader
  repeat' split
  · exact h.endWork c
  · exact (h.endWork c).haltWalker c _
  · exact (h.modWalker_rest c rfl).check4 c a _
  · exact h.endWork c

theorem State.WorkSteps.rescanValue (h : s.WorkSteps) (c : Chain) (r : ReadResult) : (s.rescanValue c r).WorkSteps := by
  unfold State.rescanValue
  dsimp only
  repeat' split
  · exact h.endWork c
  · exact (h.endWork c).haltWalker c _
  · exact h.endWork c
  · exact h.modWalker c trivial
  · exact (h.endWork c).haltWalker c _

theorem State.WorkSteps.claim (h : s.WorkSteps) (c : Chain) {d : Fetched} (i : SlotNum) (hd : d.steps ≠ []) :
    (s.claim c d i).WorkSteps := by
  have hslot : (s.setSlot i (.claimed c)).WorkSteps := h.of_body (State.body_setSlot s i _)
  exact hslot.modWalker c hd

theorem State.WorkSteps.fetchPassed (h : s.WorkSteps) (c : Chain) {d : Fetched} (hd : d.steps ≠ []) :
    (s.fetchPassed c d).WorkSteps := by
  unfold State.fetchPassed
  dsimp only
  repeat' split
  · exact h.modWalker c trivial
  · exact h.claim c _ hd
  · exact h.modWalker c hd
  · exact h.modWalker c hd
  · exact h.modWalker c hd

theorem State.WorkSteps.fetchSteps (h : s.WorkSteps) (c : Chain) (a : Word) {bs : List Byte} (r : ReadResult)
    (hcount : 1 ≤ headerCount bs) : (s.fetchSteps c a bs r).WorkSteps := by
  unfold State.fetchSteps
  split
  · exact h.endWork c
  · split
    · exact (h.endWork c).haltWalker c _
    · split
      · exact h.modWalker c trivial
      · split
        · exact h.modWalker c trivial
        · next ps hps => exact h.fetchPassed c (checkSteps_ne_nil hcount hps)

theorem State.WorkSteps.taken (h : s.WorkSteps) (c : Chain) (d : Fetched) (i : SlotNum) : (s.taken c d i).WorkSteps := by
  have hbase : (s.modWalker c fun w => { w with park := d.addr, link := d.link, work := .none }).WorkSteps :=
    h.modWalker c trivial
  have hentered : ((s.modWalker c fun w => { w with park := d.addr, link := d.link, work := .none }).enterSlot c d i).WorkSteps :=
    hbase.of_walkers fun _ => rfl
  unfold State.taken
  dsimp only
  repeat' split
  · exact hbase.of_body (State.body_setSlot _ i _)
  · exact hentered.of_body (State.body_abortJob _ i)
  · exact hentered.of_body (State.body_enterRetiring _ i _)
  · exact hentered.of_body (State.body_abortJob _ i)
  · exact (hentered.of_body (State.body_admit _ i)).followLink c _
  · exact hentered.followLink c _

theorem State.WorkSteps.directlyRetired (h : s.WorkSteps) (c : Chain) (d : DirectRetire) :
    (s.directlyRetired c d).WorkSteps := by
  have hbase : (s.modWalker c fun w => { w with park := d.addr, link := d.link, work := .none }).WorkSteps :=
    h.modWalker c trivial
  have hnotice : (if d.notify then
      (s.modWalker c fun w => { w with park := d.addr, link := d.link, work := .none }).raise .job
      else s.modWalker c fun w => { w with park := d.addr, link := d.link, work := .none }).WorkSteps := by
    split
    · exact hbase.of_walkers fun _ => rfl
    · exact hbase
  unfold State.directlyRetired
  dsimp only
  generalize (if d.notify then
      (s.modWalker c fun w => { w with park := d.addr, link := d.link, work := .none }).raise .job
      else s.modWalker c fun w => { w with park := d.addr, link := d.link, work := .none }) = u at hnotice ⊢
  repeat' split
  · exact hnotice
  · exact hnotice.haltWalker c _
  · exact hnotice.haltWalker c _
  · exact hnotice.followLink c _

theorem State.WorkSteps.offerSlot (h : s.WorkSteps) (i : SlotNum) : (s.offerSlot i).WorkSteps := by
  have hoffer {u : State} (hu : u.WorkSteps) (c : Chain) :
      (if u.mayUse c then u.modWalker c (Walker.modOffers (· ++ [i])) else u).WorkSteps := by
    split
    · refine hu.modWalker c ?_
      have hc := hu c
      unfold Walker.modOffers
      split
      · next d o hw =>
        rw [hw] at hc
        exact hc
      · exact hc
    · exact hu
  exact hoffer (hoffer h .priority) .normal

theorem State.WorkSteps.retired (h : s.WorkSteps) (i : SlotNum) (j : Job) (r : Retirement) : (s.retired i j r).WorkSteps := by
  have hfree : (s.setSlot i .free).WorkSteps := h.of_body (State.body_setSlot s i _)
  have hoffered := hfree.offerSlot i
  unfold State.retired
  dsimp only
  have hnotice : (if j.notify then ((s.setSlot i .free).offerSlot i).raise .job else (s.setSlot i .free).offerSlot i).WorkSteps := by
    split
    · exact hoffered.of_walkers fun _ => rfl
    · exact hoffered
  split
  · exact hnotice.haltWalker _ _
  · exact hnotice

theorem State.WorkSteps.beginRescan (h : s.WorkSteps) (c : Chain) : (s.beginRescan c).WorkSteps := h.modWalker c trivial

theorem State.WorkSteps.rescanCause (h : s.WorkSteps) (c : Chain) : (s.rescanCause c).WorkSteps := by
  unfold State.rescanCause
  dsimp only
  repeat' split
  · exact h.beginRescan c
  · exact h.modWalker_rest c rfl
  · exact h.modWalker_rest c rfl
  · exact h.modWalker_rest c rfl
  · exact h
  · exact h

theorem State.WorkSteps.resumeWalker (h : s.WorkSteps) (c : Chain) : (s.resumeWalker c).WorkSteps :=
  ((h.modWalker_rest c rfl).parkWalker c).beginRescan c

theorem State.WorkSteps.startWalker (h : s.WorkSteps) (c : Chain) (a : Word) : (s.startWalker c a).WorkSteps := by
  have hcut : (s.cutWalkerAccess c).WorkSteps := h.of_walkers fun d => by cases d <;> rfl
  have hstart : ((s.cutWalkerAccess c).modWalker c fun w => { w with
      cause := .none, park := 0, link := 0, work := .none, rescanPending := false, resumePending := false }).WorkSteps :=
    hcut.modWalker c trivial
  exact hstart.followLink c a

theorem State.WorkSteps.enterStopping (h : s.WorkSteps) : s.enterStopping.WorkSteps := by
  have hidle : (({ s with engine := .stopping } : State).idleWalkers).WorkSteps := fun c => by
    have hc := h c
    have htoIdle (w : Walker) (hw : w.work.HasSteps) : w.toIdle.work.HasSteps := by
      unfold Walker.toIdle
      dsimp only
      split
      · trivial
      · exact hw
    cases c
    · exact htoIdle _ hc
    · exact htoIdle _ hc
  exact hidle.of_body ((State.body_disarmAll _).trans (State.body_abortAll _))

theorem State.WorkSteps.fatalFault (h : s.WorkSteps) (f : EngineFault) : (s.fatalFault f).WorkSteps := by
  have hraise : (({ s with fault := f } : State).raise .engine).WorkSteps := h.of_walkers fun c => by cases c <;> rfl
  unfold State.fatalFault
  split
  · dsimp only
    refine State.WorkSteps.of_body ?_ (foldl_keeps State.body State.body_faultRecord _ _)
    split
    · exact hraise.enterStopping
    · exact hraise
  · exact h

theorem State.WorkSteps.startFails (h : s.WorkSteps) (f : EngineFault) : (s.startFails f).WorkSteps := by
  have hhalted : ({ s with engine := .halted, fault := f } : State).WorkSteps := h.of_walkers fun c => by cases c <;> rfl
  exact hhalted.of_body (s.body_startFails f)

theorem State.WorkSteps.retireFailed (h : s.WorkSteps) (i : SlotNum) : (s.retireFailed i).WorkSteps :=
  (h.of_body (State.body_setSlot s i _)).fatalFault _

theorem State.WorkSteps.nextStatusWrite (h : s.WorkSteps) (x : TileNum) (w : Rewrite) : (s.nextStatusWrite x w).WorkSteps := by
  unfold State.nextStatusWrite
  split
  · exact h.of_body (State.body_modRecord ..)
  · exact h.of_body ((State.body_modRecord ..).trans (State.body_modTile ..))
  · have hend : (s.endRewrite x w.joins).WorkSteps := h.of_body (State.body_endRewrite s x _)
    unfold State.portsPhaseIfDone
    split
    · have hports : ({ s.endRewrite x w.joins with engine := .starting .ports } : State).WorkSteps :=
        hend.of_walkers fun c => by cases c <;> rfl
      exact hports.of_body ((State.body_bringUp _ .B).trans (State.body_bringUp _ .A))
    · exact hend

theorem State.WorkSteps.cutControlBlockRead (h : s.WorkSteps) : s.cutControlBlockRead.WorkSteps := by
  unfold State.cutControlBlockRead
  split
  · exact h.of_walkers fun c => by cases c <;> rfl
  · exact h

theorem State.WorkSteps.statusWriteFailed (h : s.WorkSteps) (x : TileNum) (w : Rewrite) :
    (s.statusWriteFailed x w).WorkSteps := by
  have hend : (s.endRewrite x w.joins).WorkSteps := h.of_body (State.body_endRewrite s x _)
  unfold State.statusWriteFailed
  split
  · have hrecord : (s.modRecord x fun r =>
        { r with rewrite := none, markChange := r.markChange || w.joins }).WorkSteps := h.of_body (State.body_modRecord ..)
    exact (hrecord.startFails .statusWriteError).cutControlBlockRead
  · exact hend.fatalFault _
  · exact hend.fatalFault _
  · exact hend
  · exact hend

theorem State.WorkSteps.takeSettings (h : s.WorkSteps) (st : Settings) : (s.takeSettings st).WorkSteps := by
  have hlatched : s.latchGates.WorkSteps := h.of_body (State.body_latchGates s)
  unfold State.takeSettings
  refine State.WorkSteps.of_body ?_ (State.body_markAllRecords _)
  generalize s.latchGates = u at hlatched ⊢
  exact hlatched.of_walkers fun c => by cases c <;> rfl

end

theorem workSteps_effectOf (c : Instr) (s : State) (h : s.WorkSteps) : (effectOf c s).WorkSteps := by
  by_cases hb : keepsBody c = true
  · exact h.of_body (body_effectOf s hb)
  have hsame {t : State} (hn : t.walkerN = s.walkerN) (hp : t.walkerP = s.walkerP) : t.WorkSteps :=
    h.of_walkers fun c => by cases c; exacts [hn, hp]
  cases c
  case start =>
    simp only [effectOf, startEffect]
    repeat' split
    · exact (hsame (t := { s with engine := .starting .controlBlock, fault := .none }) rfl rfl).startFails _
    · exact hsame rfl rfl
    · exact hsame rfl rfl
  case stop =>
    simp only [effectOf, stopEffect]
    split
    · exact ((h.of_body (State.body_dropStartMarks s)).enterStopping).finish s
    · exact hsame rfl rfl
  case reset => exact fun c => by cases c <;> trivial
  case hardReset => exact fun c => by cases c <;> trivial
  case rescanN => simp only [effectOf, rescanNEffect, State.rescan]; split; exacts [h.rescanCause _, hsame rfl rfl]
  case rescanP => simp only [effectOf, rescanPEffect, State.rescan]; split; exacts [h.rescanCause _, hsame rfl rfl]
  case resumeN =>
    simp only [effectOf, resumeNEffect, State.resume]; repeat' split
    exacts [h.resumeWalker _, h.modWalker_rest _ rfl, h, hsame rfl rfl]
  case resumeP =>
    simp only [effectOf, resumePEffect, State.resume]; repeat' split
    exacts [h.resumeWalker _, h.modWalker_rest _ rfl, h, hsame rfl rfl]
  case abortN =>
    simp only [effectOf, abortNEffect, State.abortCommand]; split
    exacts [((h.haltWalker _ _).of_body (State.body_abortChain _ _)).finish s, hsame rfl rfl]
  case abortP =>
    simp only [effectOf, abortPEffect, State.abortCommand]; split
    exacts [((h.haltWalker _ _).of_body (State.body_abortChain _ _)).finish s, hsame rfl rfl]
  case pollTimerExpiry c =>
    simp only [effectOf, pollTimerExpiryEffect]; split
    exacts [(h.modWalker_rest c rfl).rescanCause c, h]
  case controlBlockReadDone r =>
    simp only [effectOf, controlBlockReadDoneEffect]
    have hread : ({ s with cbRead := false } : State).WorkSteps := hsame rfl rfl
    repeat' split
    exacts [hread.startFails _, hread.startFails _, hread.takeSettings _, hread, h]
  case statusWriteDone t ok =>
    simp only [effectOf, statusWriteDoneEffect]
    have hend (j : Bool) : (s.endRewrite t j).WorkSteps := h.of_body (State.body_endRewrite s t j)
    repeat' split
    exacts [h, hend _, hend _, (h.nextStatusWrite t _).finish s, (h.statusWriteFailed t _).finish s]
  case headerReadDone c r =>
    simp only [effectOf, headerReadDoneEffect]; split
    exacts [(h.fetchHeader c _ r).finish s, (h.rescanHeader c _ r).finish s, h]
  case stepReadDone c r =>
    simp only [effectOf, stepReadDoneEffect]; split
    · next a bs hw =>
      have hcount := h c
      rw [hw] at hcount
      exact (h.fetchSteps c a r hcount).finish s
    · exact h
  case rescanReadDone c r =>
    simp only [effectOf, rescanReadDoneEffect]; split
    exacts [(h.rescanValue c r).finish s, h]
  case takenWriteDone c ok =>
    simp only [effectOf, takenWriteDoneEffect]
    repeat' split
    · exact (h.taken c _ _).finish s
    · exact (((h.endWork c).of_body (State.body_setSlot _ _ _)).fatalFault _).finish s
    · exact h
  case fetchFailWriteDone c last ok =>
    simp only [effectOf, fetchFailWriteDoneEffect]
    repeat' split
    · exact h.endWork c
    · exact h.modWalker c trivial
    · exact h
    · exact (h.directlyRetired c _).finish s
    · exact ((h.endWork c).fatalFault _).finish s
    · exact h
  case resultWriteDone i last ok =>
    simp only [effectOf, resultWriteDoneEffect]
    repeat' split
    exacts [h, hsame rfl rfl, hsame rfl rfl, h, (h.retireFailed i).finish s, h, h]
  case stateWordWriteDone i ok =>
    simp only [effectOf, stateWordWriteDoneEffect]
    repeat' split
    exacts [h, h, (h.retired i _ _).finish s, (h.retireFailed i).finish s, h]
  case slotOffer i =>
    simp only [effectOf, slotOfferEffect]; split
    · next c d hd =>
      have hsteps : d.steps ≠ [] := by
        have hto (e : Chain) (d : Fetched) (hoffered : s.offeredTo i e = some d) : d.steps ≠ [] := by
          have he := h e
          unfold State.offeredTo at hoffered
          split at hoffered
          · next d' o hw =>
            rw [hw] at he
            split at hoffered
            · cases hoffered
              exact he
            · cases hoffered
          · cases hoffered
        unfold State.offerTaker at hd
        split at hd
        · next d' hp =>
          cases hd
          exact hto _ _ hp
        · obtain ⟨d', hp, e⟩ := Option.map_eq_some_iff.1 hd
          cases e
          exact hto _ _ hp
      refine (h.claim c i hsteps).modWalker _ ?_
      have hother := (h.claim c i hsteps) (otherChain c)
      unfold Walker.modOffers
      split
      · next d' o hw =>
        rw [hw] at hother
        exact hother
      · exact hother
    · exact h
  case rescanPending c =>
    simp only [effectOf, rescanPendingEffect]; split
    exacts [(h.modWalker_rest c rfl).beginRescan c, h]
  case resumeDeferred c =>
    simp only [effectOf, resumeDeferredEffect]; split
    exacts [h.resumeWalker c, h]
  case engineEntersRunning =>
    simp only [effectOf, engineEntersRunningEffect]; split
    · have hrun : (({ s with engine := .running, nextOrder := 1 } : State).raise .engine).WorkSteps := hsame rfl rfl
      exact ((hrun.startWalker _ _).startWalker _ _).finish s
    · exact h
  case engineStopped => simp only [effectOf, engineStoppedEffect]; split <;> exact hsame rfl rfl
  case resetNRelease => simp only [effectOf, resetNReleaseEffect]; split <;> exact hsame rfl rfl
  case cbaddrWrite v => simp only [effectOf, cbaddrWriteEffect]; split <;> exact hsame rfl rfl
  case noticeenWrite v => exact hsame rfl rfl
  case tilechgRead off len => simp only [effectOf, tilechgReadEffect]; split <;> exact hsame rfl rfl
  case trigPinChange i l =>
    simp only [effectOf, trigPinChangeEffect]; split
    · exact h
    · cases i <;> exact hsame rfl rfl
  case trigFilterExpiry i =>
    have hset (f : TrigFilter) : (s.setTrig i f).WorkSteps := by cases i <;> exact hsame rfl rfl
    simp only [effectOf, trigFilterExpiryEffect]
    repeat' split
    exacts [((hset _).of_body (State.body_occur _ _)).finish s, hset _, h]
  case timebaseTick => exact hsame rfl rfl
  case wakeHistoryAgeOut =>
    simp only [effectOf, wakeHistoryAgeOutEffect]
    repeat' split
    exacts [h, hsame rfl rfl, h]
  case packetIssue p =>
    simp only [effectOf, packetIssueEffect]
    repeat' split
    · next c g _ _ =>
      have hissue : (s.issue p c g).WorkSteps := h.of_walkers fun d => by
        have hb := s.body_issue p c g
        cases d
        · exact (congrArg State.walkerN hb :)
        · exact (congrArg State.walkerP hb :)
      refine (hissue.of_body (State.body_commit s _)).of_walkers fun d => ?_
      unfold State.presentAfterIssue
      repeat' split
      all_goals cases d <;> rfl
    · exact h
    · exact h
  all_goals exact absurd rfl hb

/-- Settles O31: each command ends with no step over, or leaves the jobs at their steps; and it moves, admits or takes jobs. -/
theorem stepsGoOnAtTheirEvent : Obligations.StepsGoOnAtTheirEvent := by
  unfold Obligations.StepsGoOnAtTheirEvent
  have hnone (i : SlotNum) : State.reset.job i = none := slots_replicate_job i
  refine ⟨fun s t hs h => ?_, fun s t hs h => ?_, fun s t hs h => ?_, ?_, ?_, ?_⟩
  · exact step_keeps (P := fun s => s.readySlots = []) (fun _ _ => id) (fun _ _ => id) (fun c s => (calm_effectOf c s).ready) hs h
  · exact step_keeps (P := Quiet) (fun _ _ => id) (fun _ _ => id) quiet_effectOf hs h
  · refine step_keeps (P := State.HasSteps) (fun _ _ => id) (fun _ _ => id) (fun c s hs => ?_) hs h
    obtain ⟨hjobs, hwork⟩ := hs
    refine ⟨effectOf_jobs (P := Job.AtStep) (fun _ _ hj hm => hm.atStep hj) c s (fun _ _ _ hj _ => hj) ?_ hjobs,
      workSteps_effectOf c s hwork⟩
    intro d f i n hw
    have hsteps := hwork d
    rw [hw] at hsteps
    exact List.length_pos_iff.2 hsteps
  · exact List.eq_nil_iff_forall_not_mem.2 fun i hi => by
      obtain ⟨j, hj, -⟩ := State.mem_readySlots.1 hi
      rw [hnone] at hj
      cases hj
  · refine Quiet.of_sound (List.eq_nil_iff_forall_not_mem.2 fun i hi => ?_) (fun i j hj => ?_) (fun i j hj => ?_)
      (.inr fun i j hj => ?_)
    · obtain ⟨j, hj, -⟩ := State.mem_readySlots.1 hi
      rw [hnone] at hj
      cases hj
    all_goals
      rw [hnone] at hj
      cases hj
  · refine ⟨fun i j hj => ?_, fun c => by cases c <;> trivial⟩
    rw [hnone] at hj
    cases hj

end Sys2Proof.Machine
end

section
/-! START and its control block (R46, R47, R87, R95, R171), and STOP (R40, R67, R86, R102, R109, R173): O15, O17, O18. -/

namespace Sys2Proof.Machine

/-! ## Folds over records and tiles -/

/-- The state without its status records' control and its tiles. -/
def State.noTables (s : State) : State :=
  { s with records := Vector.replicate 24 RecordCtl.reset, tiles := Vector.replicate 24 TileEntry.reset }

theorem State.noTables_startFails (s : State) (f : EngineFault) : (s.startFails f).noTables =
    ({ s with engine := .halted, fault := f, notice := { s.notice with engine := true } } : State).noTables := by
  have hstep (u : State) (t : TileNum) : (u.failRecord t).noTables = u.noTables := rfl
  unfold State.startFails
  rw [foldl_keeps State.noTables hstep]
  rfl

@[simp] theorem State.tiles_startFails (s : State) (f : EngineFault) : (s.startFails f).tiles = s.tiles := by
  have hstep (u : State) (t : TileNum) : (u.failRecord t).tiles = u.tiles := rfl
  unfold State.startFails
  rw [foldl_keeps State.tiles hstep]
  rfl

/-- A fold of steps that each work on their own record alone. -/
theorem State.record_foldl_of_nodup {f : State → TileNum → State} {F : TileNum → RecordCtl → RecordCtl}
    (hf : ∀ s t u, (f s t).record u = if t = u then F t (s.record t) else s.record u)
    (l : List TileNum) (hl : l.Nodup) (s : State) (u : TileNum) :
    (l.foldl f s).record u = if u ∈ l then F u (s.record u) else s.record u := by
  induction l generalizing s with
  | nil => simp
  | cons i l ih =>
    obtain ⟨hi, hl⟩ := List.nodup_cons.1 hl
    rw [List.foldl_cons, ih hl, hf]
    by_cases hik : i = u
    · subst hik
      simp [hi]
    · simp [hik, Ne.symm hik]

theorem State.record_foldl {f : State → TileNum → State} {F : TileNum → RecordCtl → RecordCtl}
    (hf : ∀ s t u, (f s t).record u = if t = u then F t (s.record t) else s.record u) (s : State) (u : TileNum) :
    (allTiles.foldl f s).record u = F u (s.record u) := by
  rw [State.record_foldl_of_nodup hf allTiles (List.nodup_finRange 24), if_pos (mem_allTiles u)]

theorem State.record_markAllRecords (s : State) (x : TileNum) :
    s.markAllRecords.record x = { s.record x with markStart := true } :=
  State.record_foldl (F := fun _ r => { r with markStart := true }) (fun s t u => s.record_modRecord t u _) s x

theorem State.noTables_markAllRecords (s : State) : s.markAllRecords.noTables = s.noTables := by
  unfold State.markAllRecords
  refine foldl_keeps State.noTables (fun u t => ?_) allTiles s
  rfl

@[simp] theorem State.tiles_markAllRecords (s : State) : s.markAllRecords.tiles = s.tiles := by
  unfold State.markAllRecords
  refine foldl_keeps State.tiles (fun u t => ?_) allTiles s
  rfl

/-- Opening the gates of one tile. -/
def State.latchGate (s : State) (t : TileNum) : State := readyGateOpenEffect t (sleepGateOpenEffect t s)

theorem State.noTables_latchGate (s : State) (t : TileNum) : (s.latchGate t).noTables = s.noTables := by
  unfold State.latchGate readyGateOpenEffect sleepGateOpenEffect
  repeat' split
  all_goals rfl

theorem State.records_latchGate (s : State) (t : TileNum) : (s.latchGate t).records = s.records := by
  unfold State.latchGate readyGateOpenEffect sleepGateOpenEffect
  repeat' split
  all_goals rfl

theorem State.state_modTile {s : State} {t : TileNum} {f : TileEntry → TileEntry}
    (hf : ∀ e, (f e).state = e.state ∧ (f e).settleDue = e.settleDue) (x : TileNum) :
    ((s.modTile t f).tile x).state = (s.tile x).state ∧ ((s.modTile t f).tile x).settleDue = (s.tile x).settleDue := by
  rw [State.tile_modTile]
  split
  · next h => rw [← h]; exact hf _
  · exact ⟨rfl, rfl⟩

theorem State.state_latchGate (s : State) (t x : TileNum) : ((s.latchGate t).tile x).state = (s.tile x).state ∧
    ((s.latchGate t).tile x).settleDue = (s.tile x).settleDue := by
  have hsleep : ((sleepGateOpenEffect t s).tile x).state = (s.tile x).state ∧
      ((sleepGateOpenEffect t s).tile x).settleDue = (s.tile x).settleDue := by
    unfold sleepGateOpenEffect
    split
    · refine State.state_modTile (fun e => ?_) x
      exact ⟨rfl, rfl⟩
    · exact ⟨rfl, rfl⟩
  unfold State.latchGate readyGateOpenEffect
  generalize sleepGateOpenEffect t s = u at hsleep ⊢
  split
  · rw [← hsleep.1, ← hsleep.2]
    refine State.state_modTile (fun e => ?_) x
    exact ⟨rfl, rfl⟩
  · exact hsleep

theorem State.noTables_latchGates (s : State) : s.latchGates.noTables = s.noTables :=
  foldl_keeps (f := State.latchGate) State.noTables State.noTables_latchGate allTiles s

theorem State.records_latchGates (s : State) : s.latchGates.records = s.records :=
  foldl_keeps (f := State.latchGate) State.records State.records_latchGate allTiles s

theorem State.state_latchGates (s : State) (x : TileNum) : (s.latchGates.tile x).state = (s.tile x).state ∧
    (s.latchGates.tile x).settleDue = (s.tile x).settleDue :=
  Prod.mk.inj (foldl_keeps (f := State.latchGate) (fun u => ((u.tile x).state, (u.tile x).settleDue))
    (fun u t => Prod.ext (u.state_latchGate t x).1 (u.state_latchGate t x).2) allTiles s)

/-! ## The control block's settings -/

/-- The state as the status-record phase of START begins (R46, R171). -/
def State.withSettings (st : Settings) (history : List Word) (s : State) : State :=
  { s with settings := st, wakeHistory := history, engine := .starting .statusRecords }

theorem State.noTables_takeSettings (s : State) (st : Settings) : (s.takeSettings st).noTables =
    ({ s with settings := st, wakeHistory := trimHistory st.wakeLimit s.wakeHistory,
              engine := .starting .statusRecords } : State).noTables := by
  have h := s.noTables_latchGates
  unfold State.takeSettings
  generalize s.latchGates = u at h ⊢
  dsimp only
  rw [State.noTables_markAllRecords]
  have hhistory : u.wakeHistory = s.wakeHistory := (congrArg State.wakeHistory h :)
  rw [hhistory]
  exact (congrArg (State.withSettings st (trimHistory st.wakeLimit s.wakeHistory)) h :)

theorem State.record_takeSettings (s : State) (st : Settings) (x : TileNum) :
    (s.takeSettings st).record x = { s.record x with markStart := true } := by
  have h := s.records_latchGates
  unfold State.takeSettings
  generalize s.latchGates = u at h ⊢
  dsimp only
  rw [State.record_markAllRecords]
  unfold State.record
  rw [← h]

theorem State.state_takeSettings (s : State) (st : Settings) (x : TileNum) :
    ((s.takeSettings st).tile x).state = (s.tile x).state ∧
      ((s.takeSettings st).tile x).settleDue = (s.tile x).settleDue := by
  have h := s.state_latchGates x
  unfold State.takeSettings
  generalize s.latchGates = u at h ⊢
  dsimp only
  rw [State.tile_of_tiles (State.tiles_markAllRecords _)]
  exact h

theorem parseSync_selects {b : Byte} {v : Option EventSource} (h : parseSync b = some v) : SyncSelects b v := by
  unfold parseSync at h
  unfold SyncSelects
  by_cases hb : b = 0xFF#8
  · subst hb
    cases h
    refine ⟨fun _ => rfl, fun x hx => ?_, by decide, by decide, fun n hn => ?_⟩
    · have hx : 255 = x.val := hx
      omega
    · have hn : 255 = 0x30 + n.val := hn
      omega
  · rw [if_neg hb] at h
    have hof (src : EventSource) (hs : EventSource.ofCode b.toNat = some src) : v = some src := by
      rw [hs] at h
      exact (Option.some.inj h).symm
    refine ⟨fun e => absurd e hb, fun x hx => hof _ ?_, fun e => hof _ ?_, fun e => hof _ ?_, fun n hn => hof _ ?_⟩
    · rw [hx]
      unfold EventSource.ofCode
      rw [dif_pos x.isLt]
    · rw [e]; rfl
    · rw [e]; rfl
    · rw [hn]
      fin_cases n <;> rfl

theorem parseRights_of_code {n : Nat} {r : Rights} (h : parseRights n = some r) :
    (n = 0 → r = .none) ∧ (n = 1 → r = .read) ∧ (n = 2 → r = .write) ∧ (n = 3 → r = .readWrite) := by
  refine ⟨?_, ?_, ?_, ?_⟩ <;> rintro rfl <;> exact (Option.some.inj h).symm

/-- What a block parses to is what its bytes say. -/
theorem settingsRead_of_parse {cb : Word} {bs : List Byte} {st : Settings} (h : parseSettings cb bs = some st) :
    SettingsRead bs st := by
  obtain ⟨w, v0, v1, hw, hv0, hv1, -, rfl⟩ := (parseSettings_eq_some_iff cb bs st).1 h
  refine ⟨rfl, rfl, rfl, fun a => ?_, rfl, rfl, rfl, rfl, rfl, rfl, rfl, rfl, rfl, rfl, parseSync_selects hv0,
    parseSync_selects hv1⟩
  rw [blockSettings_aperture]
  obtain ⟨hbase, hsize, hrights⟩ := parseAperture_fields (hw a)
  refine ⟨hbase, hsize, fun hne => ?_⟩
  obtain ⟨h0, h1, h2, h3⟩ := parseRights_of_code (hrights (by rw [hsize]; exact hne))
  exact ⟨fun e => h0 (congrArg BitVec.toNat e), fun e => h1 (congrArg BitVec.toNat e), fun e => h2 (congrArg BitVec.toNat e),
    fun e => h3 (congrArg BitVec.toNat e)⟩

theorem cbaddrBad_iff (a : Word) : cbaddrBad a = true ↔ a = 0 ∨ a.toNat % 64 ≠ 0 := by
  simp [cbaddrBad]

/-- Settles O15. -/
theorem startTaken : Obligations.StartTaken := by
  unfold Obligations.StartTaken
  intro s hlow hengine
  rw [exec_of_high hlow rfl]
  have heffect : effectOf .start s = if cbaddrBad s.cbaddr
      then ({ s with engine := .starting .controlBlock, fault := .none } : State).startFails .cbInvalid
      else { s with engine := .starting .controlBlock, fault := .none, cbRead := true } := if_pos hengine
  refine ⟨fun hgood => ?_, fun hbad => ?_⟩
  · rw [heffect, if_neg (by rw [cbaddrBad_iff]; tauto)]
  · rw [heffect, if_pos ((cbaddrBad_iff _).2 hbad)]
    have hframe := State.noTables_startFails { s with engine := .starting .controlBlock, fault := .none } .cbInvalid
    have htiles := State.tiles_startFails { s with engine := .starting .controlBlock, fault := .none } .cbInvalid
    generalize State.startFails _ _ = t at hframe htiles ⊢
    exact ⟨t, rfl, (congrArg State.engine hframe :), (congrArg State.fault hframe :), (congrArg State.notice hframe :),
      (congrArg State.settings hframe :), (congrArg State.cbRead hframe :), htiles,
      (congrArg State.slots hframe :), (congrArg State.portA hframe :), (congrArg State.portB hframe :),
      (congrArg State.walkerN hframe :), (congrArg State.walkerP hframe :), (congrArg State.wakeHistory hframe :)⟩

/-- Settles O17. -/
theorem controlBlockRead : Obligations.ControlBlockRead := by
  unfold Obligations.ControlBlockRead
  intro s r hlow hcut hread
  have hexec : exec (.controlBlockReadDone r) s = .next (controlBlockReadDoneEffect r s) := endOfAccess_of_live hlow hcut _
  have htaken {bs : List Byte} {st : Settings} (he : s.engine = .starting .controlBlock)
      (hp : parseSettings s.cbaddr bs = some st) := controlBlockReadDoneEffect_taken hread he hp
  refine ⟨fun he => ⟨?_, ?_, ?_⟩, fun hne => ?_⟩
  · rintro bs st rfl hparse
    rw [htaken he hparse] at hexec
    have hframe := State.noTables_takeSettings { s with cbRead := false } st
    have hrecord := State.record_takeSettings { s with cbRead := false } st
    have hstate := State.state_takeSettings { s with cbRead := false } st
    generalize State.takeSettings _ st = t at hexec hframe hrecord hstate
    refine ⟨t, hexec, (congrArg State.settings hframe :), (congrArg State.cbRead hframe :), (congrArg State.engine hframe :),
      (congrArg State.wakeHistory hframe :), fun x => ?_, (congrArg State.fault hframe :), (congrArg State.notice hframe :),
      (congrArg State.portA hframe :), (congrArg State.portB hframe :), (congrArg State.slots hframe :)⟩
    rw [hrecord x]
    exact ⟨rfl, rfl, hstate x⟩
  · rintro bs rfl hin
    obtain ⟨st, hst⟩ := (exists_parseSettings_iff s.cbaddr bs).2 hin
    rw [htaken he hst] at hexec
    have hframe := State.noTables_takeSettings { s with cbRead := false } st
    generalize State.takeSettings _ st = t at hexec hframe
    refine ⟨t, hexec, ?_, (congrArg State.historyWindowMs hframe :)⟩
    rw [show t.settings = st from (congrArg State.settings hframe :)]
    exact settingsRead_of_parse hst
  · intro hfail
    have heffect : controlBlockReadDoneEffect r s = ({ s with cbRead := false } : State).startFails
        (if r = .busError then .cbBusError else .cbInvalid) := by
      rcases hfail with rfl | ⟨bs, rfl, hnone⟩
      · simp only [controlBlockReadDoneEffect, if_pos hread, if_pos he, if_true]
      · rw [controlBlockReadDoneEffect_invalid hread he hnone, if_neg (by simp)]
    rw [heffect] at hexec
    generalize (if r = .busError then EngineFault.cbBusError else .cbInvalid) = f at hexec ⊢
    have hframe := State.noTables_startFails { s with cbRead := false } f
    have htiles := State.tiles_startFails { s with cbRead := false } f
    generalize State.startFails _ f = t at hexec hframe htiles
    exact ⟨t, hexec, (congrArg State.engine hframe :), (congrArg State.fault hframe :), (congrArg State.settings hframe :),
      (congrArg State.cbRead hframe :), (congrArg State.notice hframe :), (congrArg State.wakeHistory hframe :), htiles⟩
  · rw [hexec, controlBlockReadDoneEffect, if_pos hread, if_neg hne]

end Sys2Proof.Machine
end

section
/-! STOP (R40, R67, R86, R102, R109, R173): O18. An event that leaves no job RUNNING ends with its failures counted and its
streams closed alone. -/

namespace Sys2Proof.Machine

/-! ## Events that end with no job RUNNING -/

theorem Job.resolve_of_not_running {j : Job} (h : j.phase.isRunning = false) (f : TileNum → Bool) :
    j.resolve f = j.tidy f := by
  unfold Job.resolve Job.countFailures
  rw [h]

theorem Job.phase_tidy (f : TileNum → Bool) (j : Job) : (j.tidy f).phase = j.phase := rfl

theorem State.Idle.readySlots {s : State} (h : s.Idle) : s.readySlots = [] :=
  List.eq_nil_iff_forall_not_mem.2 fun i hi => by
    obtain ⟨j, hj, hover⟩ := State.mem_readySlots.1 hi
    have := (Job.current_lt_of_stepOver hover).1
    rw [h i j hj] at this
    cases this

/-- Where no job runs no step goes on. -/
theorem settle_of_idle {before s : State} (hstates : ∀ x, (before.tile x).state = (s.tile x).state) (h : s.Idle) :
    settle before s = s.resolveAll.closeStreams := by
  have hidle : s.resolveAll.closeStreams.Idle :=
    (h.moves (moves_resolveAll s)).moves (.of_slots (State.slots_closeStreams _))
  unfold settle
  dsimp only
  rw [State.rejudgeChanged_eq_self hstates, State.advance_eq_self hidle.readySlots]

theorem State.slot_commit (before s : State) (k : SlotNum) : (commit before s).slot k = s.slot k :=
  State.slot_of_slots (slots_commit before s) k

theorem State.tile_commit (before s : State) (x : TileNum) : (commit before s).tile x = s.tile x :=
  State.tile_of_tiles (tiles_commit before s) x

theorem slot_finish_of_idle {before s : State} (hstates : ∀ x, (before.tile x).state = (s.tile x).state) (h : s.Idle)
    (k : SlotNum) : (finish before s).slot k = (s.slot k).mapJob (Job.tidy (s.hasInFlight k)) := by
  rw [finish, State.slot_commit, settle_of_idle hstates h, State.slot_of_slots (State.slots_closeStreams _),
    State.slot_resolveAll]
  exact Slot.mapJob_congr fun j hj => Job.resolve_of_not_running (h k j hj) _

theorem tile_finish_of_idle {before s : State} (hstates : ∀ x, (before.tile x).state = (s.tile x).state) (h : s.Idle)
    (x : TileNum) : (finish before s).tile x = s.resolveAll.closedEntry x (s.tile x) := by
  rw [finish, State.tile_commit, settle_of_idle hstates h, State.tile_closeStreams,
    State.tile_of_tiles (State.tiles_resolveAll s)]

theorem State.closedEntry_cases (s : State) (x : TileNum) (e : TileEntry) :
    s.closedEntry x e = e ∨ s.closedEntry x e = { e with stream := none } := by
  unfold State.closedEntry
  repeat' split
  · exact .inl rfl
  · exact .inl rfl
  · exact .inr rfl

/-! ## Idle jobs and unarmed tiles offer nothing -/

theorem State.Idle.candidates {s : State} (h : s.Idle) (harmed : ∀ x, (s.tile x).armed = false) (p : PortId) :
    s.candidates p = [] := by
  refine List.eq_nil_iff_forall_not_mem.2 fun c hc => ?_
  unfold State.candidates at hc
  rcases List.mem_append.1 hc with hc | hc
  · obtain ⟨l, hl, hcl⟩ := List.mem_flatten.1 hc
    obtain ⟨i, -, rfl⟩ := List.mem_map.1 hl
    unfold State.jobCandidates at hcl
    split at hcl
    · cases hcl
    · next j hj =>
      rw [h i j hj] at hcl
      cases hcl
  · unfold State.offers at hc
    obtain ⟨x, hx, -⟩ := List.mem_map.1 hc
    have := (List.mem_filter.1 hx).2
    rw [harmed x] at this
    cases this

theorem State.Idle.wakeOwner {s : State} (h : s.Idle) (x : TileNum) : s.wakeOwner x = none := by
  have hnone : allSlots.filter (fun i => s.wakeCandidate i x) = [] := List.filter_eq_nil_iff.2 fun i _ hi => by
    unfold State.wakeCandidate at hi
    split at hi
    · cases hi
    · next j hj =>
      rw [h i j hj] at hi
      cases hi
  unfold State.wakeOwner
  rw [hnone]

theorem State.Idle.wakeList {s : State} (h : s.Idle) : s.wakeList = [] := by
  unfold State.wakeList
  induction allTiles with
  | nil => rfl
  | cons x l ih => rw [List.foldr_cons, h.wakeOwner, ih]

/-! ## Staging reads that an event stops -/

theorem State.mem_stagingReads {s : State} {i : SlotNum} {j : Job} {st : Step} {q : TilePart} (hj : s.job i = some j)
    (hst : j.step? = some st) (hq : q ∈ j.parts) (hg : q.staging = .reading) :
    s.stagingRead i q.tile st ∈ s.stagingReads i := by
  unfold State.stagingReads
  rw [hj]
  dsimp only
  rw [hst]
  exact List.mem_map.2 ⟨q, List.mem_filter.2 ⟨hq, decide_eq_true hg⟩, rfl⟩

theorem State.stoppedReads_noteRecordChanges (before s : State) :
    (State.noteRecordChanges before s).stoppedReads = s.stoppedReads := by
  refine foldl_keeps State.stoppedReads (fun u t => ?_) _ s
  unfold State.recordChange
  repeat' split
  all_goals rfl

theorem State.stoppedReads_commit (before s : State) :
    (commit before s).stoppedReads = (State.keepStoppedReads before s).stoppedReads := by
  unfold commit
  dsimp only
  split
  · exact State.stoppedReads_noteRecordChanges before _
  · exact State.stoppedReads_noteRecordChanges before _

/-- A staging read whose part no longer reads at the end of the event runs on. -/
theorem State.stoppedRead_commit {before s : State} {i : SlotNum} {j : Job} {st : Step} {q : TilePart}
    (hj : before.job i = some j) (hst : j.step? = some st) (hq : q ∈ j.parts) (hg : q.staging = .reading)
    (hstill : ∀ k, s.job i = some k → ∀ q' ∈ k.parts, q'.staging ≠ .reading) :
    ∃ v ∈ (commit before s).stoppedReads, v.slot = i ∧ v.tile = q.tile := by
  refine ⟨before.stagingRead i q.tile st, ?_, rfl, rfl⟩
  rw [State.stoppedReads_commit]
  refine List.mem_append_right _ (List.mem_filter.2 ⟨List.mem_flatten.2 ⟨before.stagingReads i,
    List.mem_map.2 ⟨i, mem_allSlots i, rfl⟩, State.mem_stagingReads hj hst hq hg⟩, ?_⟩)
  have hslot : (before.stagingRead i q.tile st).slot = i := rfl
  unfold State.stillReading
  rw [hslot, hj]
  cases hk : s.job i with
  | none => rfl
  | some k =>
    dsimp only
    cases hp : k.part? (before.stagingRead i q.tile st).tile with
    | none => simp
    | some q' =>
      have hread := hstill k hk q' (List.mem_of_find?_eq_some hp)
      simp [hread]

/-- What stays of a job's parts when it drains reads nothing once the event has ended. -/
theorem Job.staging_tidy_withdrawn {f : TileNum → Bool} {ps : List TilePart} {j : Job}
    (hp : j.parts = ps.filterMap fun q => withdrawPart (f q.tile) q) : ∀ q ∈ (j.tidy f).parts, q.staging = .empty := by
  intro q hq
  by_cases hfail : q.cond.hasFailed = true
  · exact (Job.settled_tidy f j q hq hfail).2.1
  · obtain ⟨q₁, hq₁, hset⟩ := List.mem_filterMap.1 hq
    unfold settlePart at hset
    repeat' split at hset
    · cases hset; exact absurd rfl hfail
    · cases hset
    · cases hset
      rw [hp] at hq₁
      obtain ⟨q₂, -, hw⟩ := List.mem_filterMap.1 hq₁
      unfold withdrawPart at hw
      split at hw
      case h_5 hc => cases hw; rw [hc] at hfail; exact absurd rfl hfail
      case h_6 hc => cases hw; rw [hc] at hfail; exact absurd rfl hfail
      all_goals cases hw
      all_goals rfl

/-! ## The engine enters STOPPING -/

@[simp] theorem State.tiles_dropWait (s : State) (i : SlotNum) : (s.dropWait i).tiles = s.tiles := rfl

@[simp] theorem State.tiles_abortJob (s : State) (i : SlotNum) : (s.abortJob i).tiles = s.tiles := by
  unfold State.abortJob
  repeat' split
  all_goals simp [State.enterDraining]

@[simp] theorem State.tiles_abortAll (s : State) : s.abortAll.tiles = s.tiles :=
  foldl_keeps State.tiles State.tiles_abortJob allSlots s

theorem State.tile_disarmAll (s : State) (x : TileNum) : s.disarmAll.tile x = { s.tile x with armed := false } :=
  State.tile_foldl (P := fun _ => True) (F := fun _ e => { e with armed := false }) (fun _ _ h => h)
    (fun s t _ u => s.tile_modTile t u _) trivial x

/-- The state as the engine enters STOPPING, before its jobs are aborted. -/
def State.stopping (s : State) : State := ({ s with engine := .stopping } : State).idleWalkers

theorem State.tile_enterStopping (s : State) (x : TileNum) : s.enterStopping.tile x = { s.tile x with armed := false } := by
  have h : s.enterStopping.tile x = { s.stopping.abortAll.tile x with armed := false } := State.tile_disarmAll _ x
  rw [h, State.tile_of_tiles (State.tiles_abortAll _)]
  rfl

theorem State.slot_enterStopping (s : State) (k : SlotNum) : s.enterStopping.slot k =
    (s.slot k).abort (decide (s.fault ≠ .none)) s.now (s.hasInFlight k) := by
  have h : s.enterStopping.slot k = s.stopping.abortAll.slot k := State.slot_of_slots (State.slots_disarmAll _) k
  rw [h, State.slot_abortAll]
  rfl

theorem State.body_enterStopping (s : State) : s.enterStopping.body = s.stopping.body :=
  (State.body_disarmAll _).trans (State.body_abortAll _)

theorem State.walker_enterStopping (s : State) (c : Chain) : s.enterStopping.walker c = (s.walker c).toIdle := by
  rw [State.walker_of_body s.body_enterStopping]
  cases c <;> rfl

/-! ## STOP -/

theorem State.noTables_dropStartMarks (s : State) : s.dropStartMarks.noTables = s.noTables := by
  unfold State.dropStartMarks
  refine foldl_keeps State.noTables (fun u t => ?_) allTiles s
  rfl

theorem State.tiles_dropStartMarks (s : State) : s.dropStartMarks.tiles = s.tiles := by
  unfold State.dropStartMarks
  refine foldl_keeps State.tiles (fun u t => ?_) allTiles s
  rfl

/-- What STOP makes of a job (R40). -/
theorem Slot.abort_taken {now : Word} {f : TileNum → Bool} (j : Job) :
    ∃ j', ((Slot.job j).abort false now f).mapJob (Job.tidy f) = .job j' ∧
      (j.phase = .queued → ∃ r, j'.phase = .retiring r ∧ r.terminal = .aborted ∧ r.code = some .aborted ∧ r.endedAt = now) ∧
      (j.phase = .running → j'.phase = .draining ∧ j'.abortRequested = true ∧
        j'.firstFailure = some (j.firstFailure.getD ⟨.aborted, j.current, none⟩) ∧ ∀ q ∈ j'.parts, q.staging = .empty) ∧
      (j.phase = .draining → j'.phase = .draining ∧ j'.abortRequested = true ∧ j'.firstFailure = j.firstFailure) ∧
      (∀ r, j.phase = .retiring r → j'.phase = .retiring r) := by
  cases hp : j.phase with
  | queued => exact ⟨_, by rw [Slot.abort_queued hp]; rfl, fun _ => ⟨_, rfl, rfl, rfl, rfl⟩, nofun, nofun, nofun⟩
  | running =>
    refine ⟨_, by rw [Slot.abort_running hp]; rfl, nofun, fun _ => ⟨rfl, rfl, rfl, ?_⟩, nofun, nofun⟩
    exact Job.staging_tidy_withdrawn (ps := j.parts) rfl
  | draining =>
    refine ⟨Job.tidy f { j with abortRequested := true }, by rw [Slot.abort_draining hp]; rfl, nofun, nofun,
      fun _ => ⟨hp, rfl, rfl⟩, nofun⟩
  | retiring r =>
    exact ⟨j.tidy f, by rw [Slot.abort_retiring hp]; rfl, nofun, nofun, nofun, fun r' hr => hp.trans hr⟩

theorem toIdle_fields (w : Walker) : w.toIdle.state = .idle ∧ w.toIdle.cause = w.cause ∧ w.toIdle.park = w.park ∧
    w.toIdle.pollDue = none ∧ w.toIdle.rescanPending = false ∧ ∀ d o, w.toIdle.work ≠ .held d o := by
  refine ⟨rfl, rfl, rfl, rfl, rfl, fun d o h => ?_⟩
  unfold Walker.toIdle at h
  dsimp only at h
  split at h
  · cases h
  · next hne => exact hne d o h

/-- Settles O18: every job is aborted, so that nothing goes on at the end of the event. -/
theorem stopTaken : Obligations.StopTaken := by
  unfold Obligations.StopTaken
  intro s hlow hengine hfault
  have heffect : effectOf .stop s = finish s (s.dropStartMarks.enterStopping) := if_pos hengine
  rw [exec_of_high hlow rfl, heffect]
  have hdrop := s.noTables_dropStartMarks
  have htiles := s.tiles_dropStartMarks
  generalize s.dropStartMarks = d at hdrop htiles ⊢
  have hfault : d.fault = .none := (congrArg State.fault hdrop :).trans hfault
  have hnow : d.now = s.now := (congrArg State.now hdrop :)
  have hslots : d.slots = s.slots := (congrArg State.slots hdrop :)
  have hportA : d.portA = s.portA := (congrArg State.portA hdrop :)
  have hportB : d.portB = s.portB := (congrArg State.portB hdrop :)
  have hports : d.ports = s.ports := Prod.ext hportA hportB
  have hbody := d.body_enterStopping
  have hfixed := d.fixed_enterStopping
  have htile (x : TileNum) : d.enterStopping.tile x = { s.tile x with armed := false } := by
    rw [State.tile_enterStopping, State.tile_of_tiles htiles]
  have hslot (k : SlotNum) : d.enterStopping.slot k = (s.slot k).abort false s.now (s.hasInFlight k) := by
    rw [State.slot_enterStopping, State.slot_of_slots hslots, hfault, hnow,
      show d.hasInFlight k = s.hasInFlight k from funext fun x => State.hasInFlight_of_ports hports k x]
    rfl
  have hwalker := d.walker_enterStopping
  have hidle := d.idle_enterStopping
  have hports' : d.enterStopping.ports = s.ports := d.ports_enterStopping.trans hports
  generalize d.enterStopping = u at hbody hfixed htile hslot hwalker hidle hports' ⊢
  have hstates (x : TileNum) : (s.tile x).state = (u.tile x).state := by rw [htile]
  have hframe := finish_frame s u
  have hfslot (k : SlotNum) : (finish s u).slot k =
      ((s.slot k).abort false s.now (s.hasInFlight k)).mapJob (Job.tidy (s.hasInFlight k)) := by
    rw [slot_finish_of_idle hstates hidle, hslot,
      show u.hasInFlight k = s.hasInFlight k from funext fun x => State.hasInFlight_of_ports hports' k x]
  have hftile (x : TileNum) : ((finish s u).tile x).armed = false ∧ ((finish s u).tile x).state = (s.tile x).state := by
    rw [tile_finish_of_idle hstates hidle]
    rcases State.closedEntry_cases u.resolveAll x (u.tile x) with e | e <;> rw [e, htile] <;> exact ⟨rfl, rfl⟩
  have hfidle : (finish s u).Idle := hidle.moves (moves_finish s u)
  have hsettle (k : SlotNum) : (settle s u).slot k = (finish s u).slot k := (State.slot_commit s _ k).symm
  refine ⟨finish s u, rfl, ?_, ?_, ?_, ?_, ?_, ?_, ?_, ?_, hftile, fun p => hfidle.candidates (fun x => (hftile x).1) p,
    hfidle.wakeList, ?_, ?_⟩
  · exact hframe.engine.trans (State.engine_of_fixed hfixed)
  · exact hframe.fault.trans ((State.fault_of_fixed hfixed).trans hfault)
  · exact hframe.settings.trans ((State.settings_of_fixed hfixed).trans (congrArg State.settings hdrop :))
  · exact hframe.cbRead.trans ((State.cbRead_of_body hbody).trans (congrArg State.cbRead hdrop :))
  · exact hframe.portA.trans (congrArg Prod.fst hports' :)
  · exact hframe.portB.trans (congrArg Prod.snd hports' :)
  · exact hframe.wakeHistory.trans ((State.wakeHistory_of_body hbody).trans (congrArg State.wakeHistory hdrop :))
  · intro c
    have hw : (finish s u).walker c = (s.walker c).toIdle := by
      rw [hframe.walker, hwalker]
      cases c
      · exact congrArg Walker.toIdle (congrArg State.walkerN hdrop :)
      · exact congrArg Walker.toIdle (congrArg State.walkerP hdrop :)
    rw [hw]
    exact toIdle_fields _
  · intro i j q st hj hrun hst hq hg hfail
    refine State.stoppedRead_commit hj hst hq hg fun k hk q' hq' => ?_
    obtain ⟨j', he, -, hrunning, -⟩ := Slot.abort_taken (now := s.now) (f := s.hasInFlight i) j
    have hki : (settle s u).job i = some j' := by
      rw [State.job, hsettle, hfslot, State.slot_of_job hj, he]
      rfl
    rw [hk] at hki
    cases hki
    rw [(hrunning hrun).2.2.2 q' hq']
    exact Staging.noConfusion
  · intro i j hj
    obtain ⟨j', he, hqueued, hrunning, hdraining, hretiring⟩ := Slot.abort_taken (now := s.now) (f := s.hasInFlight i) j
    refine ⟨j', ?_, hqueued, fun h => ?_, hdraining, hretiring⟩
    · rw [State.job, hfslot, State.slot_of_job hj, he]
      rfl
    · obtain ⟨hphase, habort, hfirst, -⟩ := hrunning h
      exact ⟨hphase, habort, hfirst⟩

end Sys2Proof.Machine
end

section
/-! The walkers' operations, said once: what each leaves (`WalkerFrame`), and where a walker stands after a halt and after
following a link (R51, R52, R57, R60, R63, R64). -/

namespace Sys2Proof.Machine

@[simp] theorem otherChain_ne (c : Chain) : otherChain c ≠ c := by cases c <;> exact Chain.noConfusion

theorem eq_otherChain {c d : Chain} (h : d ≠ c) : d = otherChain c := by
  cases c <;> cases d
  exacts [absurd rfl h, rfl, rfl, absurd rfl h]

/-! ## Jobs skipped at a halt -/

/-- The job as it enters RETIRING. -/
def Job.retire (j : Job) (cause : RetireCause) (now : Word) : Job :=
  { j with phase := .retiring (j.results cause now), parts := [], pauseDue := none, engineDone := false }

/-- What a halt of the walker of chain `c` makes of a slot (R64). -/
def Slot.skip (c : Chain) (now : Word) : Slot → Slot
  | .job j => if j.chain = c ∧ j.phase.isQueued = true then .job (j.retire .skipped now) else .job j
  | v => v

theorem Slot.skip_job (c : Chain) (now : Word) (j : Job) : (Slot.job j).skip c now =
    if j.chain = c ∧ j.phase.isQueued = true then .job (j.retire .skipped now) else .job j := rfl

theorem Slot.skip_skip (c : Chain) (now : Word) (v : Slot) : (v.skip c now).skip c now = v.skip c now := by
  cases v with
  | job j =>
    rw [Slot.skip_job]
    by_cases h : j.chain = c ∧ j.phase.isQueued = true
    · rw [if_pos h, Slot.skip_job, if_neg (fun e => Bool.false_ne_true e.2)]
    · rw [if_neg h, Slot.skip_job, if_neg h]
  | _ => rfl

theorem State.enterRetiring_of_not_fatal {s : State} {i : SlotNum} {j : Job} (hj : s.job i = some j)
    (hfatal : s.fatal = false) (cause : RetireCause) : s.enterRetiring i cause = s.setSlot i (.job (j.retire cause s.now)) := by
  unfold State.enterRetiring
  rw [hj]
  dsimp only
  rw [hfatal]
  rfl

theorem State.slot_skipQueued {s : State} (hfatal : s.fatal = false) (c : Chain) (k : SlotNum) :
    (s.skipQueued c).slot k = (s.slot k).skip c s.now := by
  refine State.slot_foldl (P := fun u => u.fatal = false ∧ u.now = s.now) (F := fun _ v => v.skip c s.now)
    (fun u i hu => ?_) (fun u i hu k => ?_) ⟨hfatal, rfl⟩ k
  · split
    · split
      · exact ⟨(State.fatal_of_fixed (u.fixed_enterRetiring i _)).trans hu.1,
          (State.now_of_fixed (u.fixed_enterRetiring i _)).trans hu.2⟩
      · exact hu
    · exact hu
  · cases hj : u.job i with
    | none =>
      have hself : (u.slot i).skip c s.now = u.slot i := by
        unfold State.job at hj
        cases hv : u.slot i with
        | job j => rw [hv] at hj; cases hj
        | _ => rfl
      dsimp only
      rw [hself]
      split
      · next e => rw [e]
      · rfl
    | some j =>
      have hslot := State.slot_of_job hj
      dsimp only
      rw [hslot]
      unfold Slot.skip
      dsimp only
      split
      · rw [State.enterRetiring_of_not_fatal hj hu.1, State.slot_setSlot, hu.2]
      · exact u.slot_self hj

@[simp] theorem State.tiles_skipQueued (s : State) (c : Chain) : (s.skipQueued c).tiles = s.tiles := by
  refine foldl_keeps State.tiles (fun u i => ?_) allSlots s
  repeat' split
  all_goals simp

theorem State.notice_enterRetiring (s : State) (i : SlotNum) (k : RetireCause) : (s.enterRetiring i k).notice = s.notice := by
  unfold State.enterRetiring
  repeat' split
  all_goals rfl

@[simp] theorem State.notice_skipQueued (s : State) (c : Chain) : (s.skipQueued c).notice = s.notice := by
  refine foldl_keeps State.notice (fun u i => ?_) allSlots s
  repeat' split
  all_goals first
    | rfl
    | exact u.notice_enterRetiring i _

theorem State.walker_skipQueued (s : State) (c d : Chain) : (s.skipQueued c).walker d = s.walker d :=
  State.walker_of_body (State.body_skipQueued s c) d

@[simp] theorem State.waitList_skipQueued (s : State) (c : Chain) : (s.skipQueued c).waitList = s.waitList := by
  refine foldl_keeps State.waitList (fun u i => ?_) allSlots s
  repeat' split
  all_goals first
    | rfl
    | exact u.waitList_enterRetiring i _

/-! ## What the operations on one walker leave -/

/-- `t` is `s` after work of the walker of chain `c`, which at most skips the QUEUED jobs of its chain and raises CHAIN. -/
structure WalkerFrame (c : Chain) (s t : State) : Prop where
  fixed : t.fixed = s.fixed
  other : t.walker (otherChain c) = s.walker (otherChain c)
  tiles : t.tiles = s.tiles
  waitList : t.waitList = s.waitList
  notice : t.notice = { s.notice with chain := t.notice.chain }
  chain : s.notice.chain = true → t.notice.chain = true
  cutAccesses : t.cutAccesses = s.cutAccesses
  nextOrder : t.nextOrder = s.nextOrder
  slots : (∀ k, t.slot k = s.slot k) ∨ ∀ k, t.slot k = (s.slot k).skip c s.now

namespace WalkerFrame

variable {c : Chain} {s t u : State}

theorem refl (c : Chain) (s : State) : WalkerFrame c s s := ⟨rfl, rfl, rfl, rfl, rfl, id, rfl, rfl, .inl fun _ => rfl⟩

theorem trans (h : WalkerFrame c s t) (g : WalkerFrame c t u) : WalkerFrame c s u where
  fixed := g.fixed.trans h.fixed
  other := g.other.trans h.other
  tiles := g.tiles.trans h.tiles
  waitList := g.waitList.trans h.waitList
  notice := by rw [g.notice, h.notice]
  chain := g.chain ∘ h.chain
  cutAccesses := g.cutAccesses.trans h.cutAccesses
  nextOrder := g.nextOrder.trans h.nextOrder
  slots := by
    have hnow : t.now = s.now := State.now_of_fixed h.fixed
    rcases h.slots with h | h <;> rcases g.slots with g | g
    · exact .inl fun k => (g k).trans (h k)
    · exact .inr fun k => by rw [g, h, hnow]
    · exact .inr fun k => (g k).trans (h k)
    · exact .inr fun k => by rw [g, h, hnow, Slot.skip_skip]

theorem modWalker (c : Chain) (s : State) (f : Walker → Walker) : WalkerFrame c s (s.modWalker c f) :=
  ⟨s.fixed_modWalker c f, State.walker_modWalker_ne s f (otherChain_ne c), by simp, by simp, by simp, by simp, by simp,
    by simp, .inl fun k => by simp⟩

theorem engine (h : WalkerFrame c s t) : t.engine = s.engine := State.engine_of_fixed h.fixed
theorem fault (h : WalkerFrame c s t) : t.fault = s.fault := State.fault_of_fixed h.fixed
theorem settings (h : WalkerFrame c s t) : t.settings = s.settings := State.settings_of_fixed h.fixed
theorem now (h : WalkerFrame c s t) : t.now = s.now := State.now_of_fixed h.fixed
theorem portA (h : WalkerFrame c s t) : t.portA = s.portA := State.portA_of_fixed h.fixed
theorem portB (h : WalkerFrame c s t) : t.portB = s.portB := State.portB_of_fixed h.fixed
theorem ports (h : WalkerFrame c s t) : t.ports = s.ports := State.ports_of_fixed h.fixed
theorem tile (h : WalkerFrame c s t) (x : TileNum) : t.tile x = s.tile x := State.tile_of_tiles h.tiles x

end WalkerFrame

section
variable (s : State) (c : Chain)

theorem frame_endWork : WalkerFrame c s (s.endWork c) := .modWalker c s _
theorem frame_parkWalker : WalkerFrame c s (s.parkWalker c) := .modWalker c s _

/-! ## Halts -/

theorem State.haltWalker_eq_self {k : HaltCause} (h : s.engine ≠ .running ∨ (s.walker c).state = .halted) :
    s.haltWalker c k = s := by
  refine if_neg fun hhalt => ?_
  rw [Bool.and_eq_true, decide_eq_true_eq] at hhalt
  rcases h with h | h
  · exact h (of_decide_eq_true hhalt.1)
  · exact hhalt.2 h

/-- The halt itself, before jobs are skipped. -/
def State.halted (s : State) (c : Chain) (k : HaltCause) : State := (s.modWalker c (Walker.halt s.now k)).raise .chain

variable {s c}

theorem State.haltWalker_eq {k : HaltCause} (hrun : s.engine = .running) (h : (s.walker c).state ≠ .halted) :
    s.haltWalker c k = if k = .aborted then s.halted c k else (s.halted c k).skipQueued c :=
  if_pos (by rw [State.inRunning, hrun, decide_eq_true h]; rfl)

theorem State.fatal_halted (hrun : s.engine = .running) (k : HaltCause) : (s.halted c k).fatal = false := by
  have : (s.halted c k).engine = .running := (State.modWalker_fields s c _).2.2.2.2.2.2.2.2.1.trans hrun
  unfold State.fatal
  rw [this]
  rfl

theorem frame_halted (s : State) (c : Chain) (k : HaltCause) : WalkerFrame c s (s.halted c k) :=
  (WalkerFrame.modWalker c s _).trans ⟨rfl, rfl, rfl, rfl, rfl, fun _ => rfl, rfl, rfl, .inl fun _ => rfl⟩

theorem frame_haltWalker (s : State) (c : Chain) (k : HaltCause) : WalkerFrame c s (s.haltWalker c k) := by
  by_cases hrun : s.engine = .running
  swap
  · rw [State.haltWalker_eq_self s c (.inl hrun)]
    exact .refl c s
  by_cases hhalt : (s.walker c).state = .halted
  · rw [State.haltWalker_eq_self s c (.inr hhalt)]
    exact .refl c s
  rw [State.haltWalker_eq hrun hhalt]
  have hframe := frame_halted s c k
  have hfatal := State.fatal_halted (c := c) hrun k
  generalize s.halted c k = u at hframe hfatal ⊢
  have hbody := State.body_skipQueued u c
  have hcut : (u.skipQueued c).cutAccesses = u.cutAccesses := by
    generalize u.skipQueued c = v at hbody
    exact (congrArg State.cutAccesses hbody :)
  have hnext : (u.skipQueued c).nextOrder = u.nextOrder := State.nextOrder_of_body hbody
  split
  · exact hframe
  · exact hframe.trans ⟨u.fixed_skipQueued c, u.walker_skipQueued c _, u.tiles_skipQueued c, u.waitList_skipQueued c,
      by rw [u.notice_skipQueued c], by rw [u.notice_skipQueued c]; exact id,
      hcut, hnext,
      .inr fun k => State.slot_skipQueued hfatal c k⟩

theorem State.walker_haltWalker {k : HaltCause} (hrun : s.engine = .running) (h : (s.walker c).state ≠ .halted) :
    (s.haltWalker c k).walker c = (s.walker c).halt s.now k := by
  rw [State.haltWalker_eq hrun h]
  have hhalted : (s.halted c k).walker c = (s.walker c).halt s.now k := by
    refine Eq.trans ?_ (s.walker_modWalker c _)
    cases c <;> rfl
  split
  · exact hhalted
  · rw [State.walker_skipQueued]
    exact hhalted

theorem State.notice_haltWalker {k : HaltCause} (hrun : s.engine = .running) (h : (s.walker c).state ≠ .halted) :
    (s.haltWalker c k).notice.chain = true := by
  rw [State.haltWalker_eq hrun h]
  split
  · rfl
  · rw [State.notice_skipQueued]
    rfl

/-- What a halt does to the slots (R64, R65). -/
theorem State.slot_haltWalker {k : HaltCause} (hrun : s.engine = .running) (h : (s.walker c).state ≠ .halted) (i : SlotNum) :
    (s.haltWalker c k).slot i = if k = .aborted then s.slot i else (s.slot i).skip c s.now := by
  rw [State.haltWalker_eq hrun h]
  have hslot : (s.halted c k).slot i = s.slot i := by simp [State.halted]
  split
  · exact hslot
  · rw [State.slot_skipQueued (State.fatal_halted hrun k), hslot, (frame_halted s c k).now]

/-! ## Following links -/

/-- A link that passes check 1 (R52). -/
theorem State.check1_iff {s : State} {a : Word} :
    s.check1 a = true ↔ a.toNat % 16 = 0 ∧ s.settings.permits a.toNat 32 true true = true := by
  simp [State.check1]

theorem State.check1_of_settings {s t : State} (h : t.settings = s.settings) (a : Word) : t.check1 a = s.check1 a := by
  unfold State.check1
  rw [h]

theorem frame_beginFetch (s : State) (c : Chain) (a : Word) : WalkerFrame c s (s.beginFetch c a) := by
  unfold State.beginFetch
  split
  · exact .modWalker c s _
  · exact (frame_endWork s c).trans (frame_haltWalker _ c _)

theorem frame_followLink (s : State) (c : Chain) (a : Word) : WalkerFrame c s (s.followLink c a) := by
  unfold State.followLink
  split
  · exact frame_parkWalker s c
  · exact frame_beginFetch s c a

theorem State.walker_followLink_zero (s : State) (c : Chain) :
    (s.followLink c 0).walker c = { s.walker c with state := .parked, work := .none, pollDue := pollStart s } := by
  unfold State.followLink State.parkWalker
  rw [if_pos rfl, State.walker_modWalker]

theorem State.walker_followLink {a : Word} (hne : a ≠ 0) (h : s.check1 a = true) :
    (s.followLink c a).walker c = { s.walker c with state := .fetching, pollDue := none, work := .readHeader a } := by
  unfold State.followLink State.beginFetch
  rw [if_neg hne, if_pos h, State.walker_modWalker]

/-- A link that does not pass check 1 halts the walker (R52, R63). -/
theorem State.followLink_bad {a : Word} (hne : a ≠ 0) (h : s.check1 a = false) :
    s.followLink c a = (s.endWork c).haltWalker c .access := by
  unfold State.followLink State.beginFetch
  rw [if_neg hne, h, if_neg Bool.false_ne_true]

theorem State.engine_endWork (s : State) (c : Chain) : (s.endWork c).engine = s.engine := (frame_endWork s c).engine

theorem State.walker_endWork (s : State) (c : Chain) : (s.endWork c).walker c = { s.walker c with work := .none } :=
  s.walker_modWalker c _

/-- A halt of a walker whose work has ended. -/
theorem State.walker_endWork_halt (k : HaltCause) (hrun : s.engine = .running) (h : (s.walker c).state ≠ .halted) :
    ((s.endWork c).haltWalker c k).walker c = { s.walker c with
      state := .halted, cause := k, pollDue := none, rescanPending := false, haltTime := s.now, work := .none } := by
  have hw := s.walker_endWork c
  rw [State.walker_haltWalker (by rw [State.engine_endWork]; exact hrun) (by rw [hw]; exact h), hw, (frame_endWork s c).now]
  rfl

theorem State.notice_endWork_halt (k : HaltCause) (hrun : s.engine = .running) (h : (s.walker c).state ≠ .halted) :
    ((s.endWork c).haltWalker c k).notice.chain = true :=
  State.notice_haltWalker (by rw [State.engine_endWork]; exact hrun) (by rw [State.walker_endWork]; exact h)

theorem State.slot_endWork_halt {k : HaltCause} (hk : k ≠ .aborted) (hrun : s.engine = .running)
    (h : (s.walker c).state ≠ .halted) (i : SlotNum) :
    ((s.endWork c).haltWalker c k).slot i = (s.slot i).skip c s.now := by
  rw [State.slot_haltWalker (by rw [State.engine_endWork]; exact hrun) (by rw [State.walker_endWork]; exact h), if_neg hk,
    (frame_endWork s c).now, State.slot_of_slots (s.slots_endWork c)]

end

/-! ## The fetch -/

section
variable (s : State) (c : Chain)

theorem frame_failAtFetch (a : Word) (h : List Byte) (k : ErrorCode) (n : Nat) : WalkerFrame c s (s.failAtFetch c a h k n) := by
  unfold State.failAtFetch
  exact .modWalker c s _

theorem frame_check4 (a : Word) (h : List Byte) : WalkerFrame c s (s.check4 c a h) := by
  unfold State.check4
  split
  · exact .modWalker c s _
  · exact frame_failAtFetch s c a h _ _

theorem frame_fetchHeader (a : Word) (r : ReadResult) : WalkerFrame c s (s.fetchHeader c a r) := by
  unfold State.fetchHeader
  repeat' split
  · exact frame_endWork s c
  · exact (frame_endWork s c).trans (frame_haltWalker _ c _)
  · exact frame_check4 s c a _
  · exact frame_endWork s c
  · exact frame_parkWalker s c

theorem frame_rescanHeader (a : Word) (r : ReadResult) : WalkerFrame c s (s.rescanHeader c a r) := by
  unfold State.rescanHeader
  repeat' split
  · exact frame_endWork s c
  · exact (frame_endWork s c).trans (frame_haltWalker _ c _)
  · exact (WalkerFrame.modWalker c s _).trans (frame_check4 _ c a _)
  · exact frame_endWork s c

theorem frame_rescanValue (r : ReadResult) : WalkerFrame c s (s.rescanValue c r) := by
  unfold State.rescanValue
  dsimp only
  repeat' split
  · exact frame_endWork s c
  · exact (frame_endWork s c).trans (frame_haltWalker _ c _)
  · exact frame_endWork s c
  · exact .modWalker c s _
  · exact (frame_endWork s c).trans (frame_haltWalker _ c _)

/-- The end of an event at which walkers alone worked, or slots changed, leaves the tiles' states. -/
theorem WalkerFrame.states {s t : State} {c : Chain} (h : WalkerFrame c s t) (x : TileNum) :
    (s.tile x).state = (t.tile x).state := by rw [h.tile]

end

/-! ## The end of a walker's event -/

/-- Where nothing is to settle, and no step is over, the end of an event closes streams alone. -/
theorem settle_of_still {before s : State} (hstates : ∀ x, (before.tile x).state = (s.tile x).state) (hsettled : s.Settled)
    (hready : s.readySlots = []) : settle before s = s.closeStreams := by
  have hclosed : s.closeStreams.readySlots = [] := (State.readySlots_of_slots s.slots_closeStreams).trans hready
  unfold settle
  dsimp only
  rw [State.rejudgeChanged_eq_self hstates, State.resolveAll_eq_self hsettled, State.advance_eq_self hclosed]

theorem slots_finish_of_still {before s : State} (hstates : ∀ x, (before.tile x).state = (s.tile x).state)
    (hsettled : s.Settled) (hready : s.readySlots = []) : (finish before s).slots = s.slots := by
  rw [finish, slots_commit, settle_of_still hstates hsettled hready, State.slots_closeStreams]

theorem Slot.skip_cases (c : Chain) (now : Word) (v : Slot) : v.skip c now = v ∨
    ∃ j, v = .job j ∧ j.chain = c ∧ j.phase = .queued ∧ v.skip c now = .job (j.retire .skipped now) := by
  cases v with
  | job j =>
    rw [Slot.skip_job]
    by_cases h : j.chain = c ∧ j.phase.isQueued = true
    · refine .inr ⟨j, rfl, h.1, ?_, if_pos h⟩
      cases hp : j.phase <;> simp_all [Phase.isQueued]
    · exact .inl (if_neg h)
  | _ => exact .inl rfl

theorem WalkerFrame.slot_cases {c : Chain} {s t : State} (h : WalkerFrame c s t) (k : SlotNum) : t.slot k = s.slot k ∨
    ∃ j, s.slot k = .job j ∧ j.chain = c ∧ j.phase = .queued ∧ t.slot k = .job (j.retire .skipped s.now) := by
  rcases h.slots with h | h
  · exact .inl (h k)
  · rw [h k]
    exact Slot.skip_cases c s.now (s.slot k)

/-- Jobs that enter RETIRING leave nothing to settle. -/
theorem still_of_slots {s t : State} (hports : t.ports = s.ports)
    (hslot : ∀ k j', t.job k = some j' → s.job k = some j' ∨ (j'.phase.isRunning = false ∧ j'.parts = []))
    (hs : s.Settled ∧ s.readySlots = []) : t.Settled ∧ t.readySlots = [] := by
  refine ⟨fun k j' hj' => ?_, List.eq_nil_iff_forall_not_mem.2 fun k hk => ?_⟩
  · rw [show t.hasInFlight k = s.hasInFlight k from funext fun x => State.hasInFlight_of_ports hports k x]
    rcases hslot k j' hj' with h | ⟨-, h⟩
    · exact hs.1 k j' h
    · intro q hq
      rw [h] at hq
      cases hq
  · obtain ⟨j', hj', hover⟩ := State.mem_readySlots.1 hk
    rcases hslot k j' hj' with h | ⟨h, -⟩
    · have : k ∈ s.readySlots := State.mem_readySlots.2 ⟨j', h, hover⟩
      rw [hs.2] at this
      cases this
    · rw [(Job.current_lt_of_stepOver hover).1] at h
      cases h

theorem Quiet.ready {s : State} (h : Quiet s) : s.readySlots = [] := h.1

/-- Skipping QUEUED jobs leaves nothing to settle. -/
theorem still_of_skip {c : Chain} {s t : State} (hports : t.ports = s.ports) {now : Word}
    (hskip : ∀ k, t.slot k = (s.slot k).skip c now) (hs : s.Settled ∧ s.readySlots = []) : t.Settled ∧ t.readySlots = [] := by
  refine still_of_slots hports (fun k j' hj' => ?_) hs
  rcases Slot.skip_cases c now (s.slot k) with e | ⟨j, -, -, -, e⟩
  · exact .inl ((State.job_of_slot ((hskip k).trans e)).symm.trans hj')
  · rw [State.job, hskip, e] at hj'
    cases hj'
    exact .inr ⟨rfl, rfl⟩

theorem WalkerFrame.still {c : Chain} {s t : State} (h : WalkerFrame c s t) (hs : s.Settled ∧ s.readySlots = []) :
    t.Settled ∧ t.readySlots = [] := by
  refine still_of_slots h.ports (fun k j' hj' => ?_) hs
  rcases h.slot_cases k with e | ⟨j, hj, -, hp, e⟩
  · exact .inl ((State.job_of_slot e).symm.trans hj')
  · rw [State.job, e] at hj'
    cases hj'
    exact .inr ⟨rfl, rfl⟩

/-- A walker's work at rest leaves, at the end of its event, the slots as it left them. -/
theorem WalkerFrame.slots_finish {c : Chain} {s t : State} (h : WalkerFrame c s t) (hs : Quiet s) :
    (finish s t).slots = t.slots := by
  obtain ⟨hsettled, hready⟩ := h.still ⟨hs.settled, hs.ready⟩
  exact slots_finish_of_still h.states hsettled hready

/-- A job that does not run keeps its phase at the end of the event, and what it was taken with and has done. -/
theorem EventFrame.job {s t : State} (h : EventFrame s t) {i : SlotNum} {j : Job} (hj : s.job i = some j)
    (hrun : j.phase.isRunning = false) : ∃ j', t.job i = some j' ∧ j'.still = j.still := h.still i j hj hrun

theorem Job.phase_of_still {j k : Job} (h : k.still = j.still) : k.phase = j.phase := (congrArg Job.phase h :)

/-- The halt of a walker skips the QUEUED jobs of its chain, and no other (R64). -/
theorem queuedSkipped_of_skip {c : Chain} {before s u : State} (hports : u.ports = s.ports)
    (hstates : ∀ x, (before.tile x).state = (u.tile x).state)
    (hskip : ∀ k, u.slot k = (s.slot k).skip c s.now) : QueuedSkipped s (finish before u) c := by
  have hjob {i : SlotNum} {j : Job} (hj : s.job i = some j) : u.slot i = (Slot.job j).skip c s.now := by
    rw [hskip, State.slot_of_job hj]
  refine ⟨fun i j hj hq => ⟨fun hc => ?_, fun hc => ?_⟩, fun hquiet i hi => ?_⟩
  · have hu : u.job i = some (j.retire .skipped s.now) := by
      rw [State.job, hjob hj, Slot.skip, if_pos ⟨hc, by rw [hq]; rfl⟩]
      rfl
    obtain ⟨j', hj', hstill⟩ := (finish_frame before u).job hu rfl
    exact ⟨j', _, hj', Job.phase_of_still hstill, rfl, rfl, rfl, rfl, rfl⟩
  · have hu : u.job i = some j := by
      rw [State.job, hjob hj, Slot.skip, if_neg fun e => hc e.1]
      rfl
    obtain ⟨j', hj', hstill⟩ := (finish_frame before u).job hu (by rw [hq]; rfl)
    exact ⟨j', hj', (Job.phase_of_still hstill).trans hq⟩
  · obtain ⟨hsettled, hready⟩ := still_of_skip hports hskip ⟨hquiet.settled, hquiet.ready⟩
    rw [State.slot_of_slots (slots_finish_of_still hstates hsettled hready), hskip]
    rcases Slot.skip_cases c s.now (s.slot i) with e | ⟨j, hj, hc, hq, -⟩
    · exact e
    · exact absurd ⟨hc, hq⟩ (hi j (by rw [State.job, hj]; rfl))

end Sys2Proof.Machine
end

section
/-! The engine's transitions and the walkers' commands: O19, O20, O22, O23, O25, O27 (R42, R51 to R55, R57 to R67, R171, R173). -/

namespace Sys2Proof.Machine

/-! ## Accesses under way -/

section
variable {s : State} {v : Access}

theorem State.mem_accesses_of_own (h : v ∈ s.ownAccesses) : v ∈ s.accesses := List.mem_append_right _ h

theorem State.mem_ownAccesses : v ∈ s.ownAccesses ↔ ((((((v ∈ (if s.cbRead then
      [(⟨.controlBlock, .read s.cbaddr 128⟩ : Access)] else []) ∨
    v ∈ s.walkerN.work.accesses .normal) ∨ v ∈ s.walkerP.work.accesses .priority) ∨
    v ∈ (allSlots.map fun i => (s.slot i).accesses i).flatten) ∨ v ∈ (allTiles.map s.recordAccesses).flatten) ∨
    v ∈ (s.stoppedReads ++ (allSlots.map s.stagingReads).flatten).map StoppedRead.access) ∨
    v ∈ s.portAccesses .A) ∨ v ∈ s.portAccesses .B := by
  unfold State.ownAccesses
  simp only [List.mem_append]

theorem State.mem_accesses_of_walker {c : Chain} (h : v ∈ (s.walker c).work.accesses c) : v ∈ s.accesses := by
  refine State.mem_accesses_of_own (State.mem_ownAccesses.2 (.inl (.inl (.inl (.inl (.inl ?_))))))
  cases c
  · exact .inl (.inr h)
  · exact .inr h

theorem State.mem_accesses_of_slot {i : SlotNum} (h : v ∈ (s.slot i).accesses i) : v ∈ s.accesses :=
  State.mem_accesses_of_own (State.mem_ownAccesses.2 (.inl (.inl (.inl (.inl (.inr
    (List.mem_flatten.2 ⟨_, List.mem_map.2 ⟨i, mem_allSlots i, rfl⟩, h⟩)))))))

theorem State.mem_accesses_of_record {x : TileNum} (h : v ∈ s.recordAccesses x) : v ∈ s.accesses :=
  State.mem_accesses_of_own (State.mem_ownAccesses.2 (.inl (.inl (.inl (.inr
    (List.mem_flatten.2 ⟨_, List.mem_map.2 ⟨x, mem_allTiles x, rfl⟩, h⟩))))))

theorem WalkerWork.access_ne {c : Chain} {w : WalkerWork} (h : v ∈ w.accesses c) : v.id ≠ .controlBlock := by
  unfold WalkerWork.accesses at h
  split at h
  all_goals first
    | (rw [List.mem_singleton.1 h]; exact AccessId.noConfusion)
    | cases h

theorem Slot.access_ne {i : SlotNum} {w : Slot} (h : v ∈ w.accesses i) : v.id ≠ .controlBlock := by
  unfold Slot.accesses at h
  split at h
  · split at h
    · next r _ =>
      rw [List.mem_singleton.1 h]
      dsimp only
      split <;> exact AccessId.noConfusion
    · cases h
  · cases h

theorem State.recordAccess_ne {x : TileNum} (h : v ∈ s.recordAccesses x) : v.id ≠ .controlBlock := by
  unfold State.recordAccesses at h
  split at h
  · cases h
  · dsimp only at h
    split at h
    all_goals
      rw [List.mem_singleton.1 h]
      exact AccessId.noConfusion

theorem State.portAccess_ne {p : PortId} (h : v ∈ s.portAccesses p) : v.id ≠ .controlBlock := by
  unfold State.portAccesses at h
  rcases List.mem_append.1 h with h | h
  · obtain ⟨w, -, rfl⟩ := List.mem_map.1 h
    exact AccessId.noConfusion
  · obtain ⟨l, hl, hvl⟩ := List.mem_flatten.1 h
    obtain ⟨e, -, rfl⟩ := List.mem_map.1 hl
    unfold Entry.accesses at hvl
    split at hvl
    · rw [List.mem_singleton.1 hvl]
      exact AccessId.noConfusion
    · cases hvl

/-- Only the control block's own read is made for the control block. -/
theorem State.cbRead_of_access (h : v ∈ s.ownAccesses) (hid : v.id = .controlBlock) : s.cbRead = true := by
  rcases State.mem_ownAccesses.1 h with ((((((hv | hv) | hv) | hv) | hv) | hv) | hv) | hv
  · split at hv
    · assumption
    · cases hv
  · exact absurd hid (WalkerWork.access_ne hv)
  · exact absurd hid (WalkerWork.access_ne hv)
  · obtain ⟨l, hl, hvl⟩ := List.mem_flatten.1 hv
    obtain ⟨i, -, rfl⟩ := List.mem_map.1 hl
    exact absurd hid (Slot.access_ne hvl)
  · obtain ⟨l, hl, hvl⟩ := List.mem_flatten.1 hv
    obtain ⟨x, -, rfl⟩ := List.mem_map.1 hl
    exact absurd hid (State.recordAccess_ne hvl)
  · obtain ⟨r, -, rfl⟩ := List.mem_map.1 hv
    cases hid
  · exact absurd hid (State.portAccess_ne hv)
  · exact absurd hid (State.portAccess_ne hv)

end

/-! ## A walker starts (R51) -/

/-- The walker set to its start, before it follows its head. -/
def State.restarted (s : State) (c : Chain) : State :=
  (s.cutWalkerAccess c).modWalker c fun w => { w with
    cause := .none, park := 0, link := 0, work := .none, rescanPending := false, resumePending := false }

theorem State.startWalker_eq (s : State) (c : Chain) (a : Word) : s.startWalker c a = (s.restarted c).followLink c a := rfl

theorem State.restarted_fields (s : State) (c : Chain) : (s.restarted c).fixed = s.fixed ∧
    (s.restarted c).notice = s.notice ∧ (s.restarted c).nextOrder = s.nextOrder ∧ (s.restarted c).tiles = s.tiles ∧
    (s.restarted c).cutAccesses = s.cutAccesses ++ (s.walker c).work.accesses c ∧
    (s.restarted c).walker (otherChain c) = s.walker (otherChain c) ∧
    (s.restarted c).walker c = { s.walker c with
      cause := .none, park := 0, link := 0, work := .none, rescanPending := false, resumePending := false } := by
  cases c <;> exact ⟨rfl, rfl, rfl, rfl, rfl, rfl, rfl⟩

theorem State.park_followLink (s : State) (c : Chain) (a : Word) :
    ((s.followLink c a).walker c).park = (s.walker c).park := by
  by_cases hz : a = 0
  · subst hz
    rw [State.walker_followLink_zero]
  · cases hc : s.check1 a with
    | true => rw [State.walker_followLink hz hc]
    | false =>
      rw [State.followLink_bad hz hc]
      by_cases hhalt : s.engine ≠ .running ∨ (s.walker c).state = .halted
      · rw [State.haltWalker_eq_self, State.walker_endWork]
        rw [State.walker_endWork, State.engine_endWork]
        exact hhalt
      · rw [not_or, not_not] at hhalt
        rw [State.walker_endWork_halt _ hhalt.1 hhalt.2]

/-- Where a walker stands that has started with the head `a` (R51). -/
structure Started (s t : State) (c : Chain) (a : Word) : Prop where
  park : (t.walker c).park = 0
  cut : ∀ v ∈ (s.walker c).work.accesses c, v ∈ t.cutAccesses
  parked : a = 0 → (t.walker c).state = .parked ∧ (t.walker c).work = .none ∧ (t.walker c).cause = .none
  fetching : a ≠ 0 ∧ a.toNat % 16 = 0 ∧ s.settings.permits a.toNat 32 true true = true →
    (t.walker c).state = .fetching ∧ (t.walker c).work = .readHeader a ∧ (t.walker c).cause = .none
  halted : (a.toNat % 16 ≠ 0 ∨ (a ≠ 0 ∧ s.settings.permits a.toNat 32 true true = false)) →
    (s.walker c).state ≠ .halted →
    (t.walker c).state = .halted ∧ (t.walker c).cause = .access ∧ t.notice.chain = true

theorem State.check1_bad {s : State} {a : Word}
    (h : a.toNat % 16 ≠ 0 ∨ (a ≠ 0 ∧ s.settings.permits a.toNat 32 true true = false)) : a ≠ 0 ∧ s.check1 a = false := by
  refine ⟨?_, Bool.eq_false_iff.2 fun hc => ?_⟩
  · rcases h with h | ⟨h, -⟩
    · rintro rfl
      exact h rfl
    · exact h
  · obtain ⟨h16, hperm⟩ := State.check1_iff.1 hc
    rcases h with h | ⟨-, h⟩
    · exact h h16
    · rw [h] at hperm
      cases hperm

theorem started_startWalker {s : State} (hrun : s.engine = .running) (c : Chain) (a : Word) :
    Started s (s.startWalker c a) c a := by
  rw [State.startWalker_eq]
  obtain ⟨hfixed, -, -, -, hcut, -, hwalker⟩ := s.restarted_fields c
  have hframe := frame_followLink (s.restarted c) c a
  generalize s.restarted c = u at hfixed hcut hwalker hframe ⊢
  have hset : u.settings = s.settings := State.settings_of_fixed hfixed
  have hurun : u.engine = .running := (State.engine_of_fixed hfixed).trans hrun
  refine ⟨?_, fun v hv => ?_, ?_, fun h => ?_, fun h hhalt => ?_⟩
  · rw [State.park_followLink, hwalker]
  · rw [hframe.cutAccesses, hcut]
    exact List.mem_append_right _ hv
  · rintro rfl
    rw [State.walker_followLink_zero, hwalker]
    exact ⟨rfl, rfl, rfl⟩
  · rw [State.walker_followLink h.1 (by rw [State.check1_of_settings hset]; exact State.check1_iff.2 h.2), hwalker]
    exact ⟨rfl, rfl, rfl⟩
  · obtain ⟨hne, hbad⟩ := State.check1_bad h
    have hwhalt : (u.walker c).state ≠ .halted := by rw [hwalker]; exact hhalt
    rw [State.followLink_bad hne (by rw [State.check1_of_settings hset]; exact hbad)]
    rw [State.walker_endWork_halt _ hurun hwhalt, State.notice_endWork_halt _ hurun hwhalt]
    exact ⟨rfl, rfl, rfl⟩

/-- What the start of a walker leaves (R51). -/
theorem startWalker_fields (s : State) (c : Chain) (a : Word) : (s.startWalker c a).fixed = s.fixed ∧
    (s.startWalker c a).walker (otherChain c) = s.walker (otherChain c) ∧ (s.startWalker c a).nextOrder = s.nextOrder ∧
    (s.startWalker c a).notice = { s.notice with chain := (s.startWalker c a).notice.chain } ∧
    (s.notice.chain = true → (s.startWalker c a).notice.chain = true) ∧
    (s.startWalker c a).cutAccesses = s.cutAccesses ++ (s.walker c).work.accesses c := by
  rw [State.startWalker_eq]
  obtain ⟨hfixed, hnotice, hnext, -, hcut, hother, -⟩ := s.restarted_fields c
  have hframe := frame_followLink (s.restarted c) c a
  generalize s.restarted c = u at hfixed hnotice hnext hcut hother hframe ⊢
  refine ⟨hframe.fixed.trans hfixed, hframe.other.trans hother, hframe.nextOrder.trans hnext, ?_, ?_,
    hframe.cutAccesses.trans hcut⟩
  · rw [hframe.notice, hnotice]
  · rw [← hnotice]
    exact hframe.chain

theorem EventFrame.cutAccesses {s t : State} (h : EventFrame s t) : t.cutAccesses = s.cutAccesses :=
  (congrArg State.cutAccesses h.rest :)

theorem EventFrame.chain {s t : State} (h : EventFrame s t) : t.notice.chain = s.notice.chain := by rw [h.notice]
theorem EventFrame.jobNotice {s t : State} (h : EventFrame s t) : t.notice.job = s.notice.job := by rw [h.notice]
theorem EventFrame.engineNotice {s t : State} (h : EventFrame s t) : t.notice.engine = s.notice.engine := by rw [h.notice]
theorem EventFrame.portNotice {s t : State} (h : EventFrame s t) : t.notice.port = s.notice.port := by rw [h.notice]

theorem State.portBringingUp_eq_false {s : State} {p : PortId}
    (h : (s.port p).state ≠ .training ∧ (s.port p).state ≠ .enumerating) : s.portBringingUp p = false := by
  unfold State.portBringingUp
  cases hs : (s.port p).state <;> simp_all

theorem State.stopped_of {s : State} (hslots : ∀ i, s.slot i = .free)
    (hports : ∀ p, (s.port p).state ≠ .training ∧ (s.port p).state ≠ .enumerating)
    (hwork : ∀ c d, (s.walker c).work ≠ .retire d) (hread : s.cbRead = false) (hcut : s.accessCut .controlBlock = false)
    (hrecords : ∀ x, (s.record x).rewrite = none ∧ (s.record x).markChange = false ∧ (s.record x).markStart = false) :
    s.stopped = true := by
  have hfree : s.allSlotsFree = true := List.all_eq_true.2 fun i _ => decide_eq_true (hslots i)
  have hretiring (c : Chain) : (s.walker c).work.isRetiring = false := by
    cases hw : (s.walker c).work
    case retire d => exact absurd hw (hwork c d)
    all_goals rfl
  have hN : s.walkerN.work.isRetiring = false := hretiring .normal
  have hP : s.walkerP.work.isRetiring = false := hretiring .priority
  have hrewrites : s.noRewrites = true := List.all_eq_true.2 fun x _ => by
    obtain ⟨h1, h2, h3⟩ := hrecords x
    simp [RecordCtl.marked, h1, h2, h3]
  unfold State.stopped
  rw [hfree, State.portBringingUp_eq_false (hports .A), State.portBringingUp_eq_false (hports .B), hN, hP, hread, hcut,
    hrewrites]
  rfl

/-- Settles O19. -/
theorem engineTransitions : Obligations.EngineTransitions := by
  unfold Obligations.EngineTransitions
  intro s hlow
  refine ⟨fun ⟨hengine, hports⟩ => ?_, fun ⟨hengine, hslots, hports, hwork, hread, hcut, hrecords⟩ => ?_, fun ⟨v, hv, hid⟩ => ?_⟩
  · rw [exec_of_high hlow rfl]
    have heffect : effectOf .engineEntersRunning s = finish s
        (((({ s with engine := .running, nextOrder := 1 } : State).raise .engine).startWalker .normal
          s.settings.normalHead).startWalker .priority s.settings.priorityHead) :=
      if_pos ⟨hengine, State.portBringingUp_eq_false (hports .A), State.portBringingUp_eq_false (hports .B)⟩
    rw [heffect]
    obtain ⟨r, hr⟩ : ∃ r, r = (({ s with engine := .running, nextOrder := 1 } : State).raise .engine) := ⟨_, rfl⟩
    have hrrun : r.engine = .running := by rw [hr]; rfl
    have hrset : r.settings = s.settings := by rw [hr]; rfl
    rw [← hr]
    obtain ⟨hfix1, hother1, hnext1, hnotice1, hchain1, hcut1⟩ := startWalker_fields r .normal s.settings.normalHead
    have hstart1 := started_startWalker hrrun .normal s.settings.normalHead
    generalize r.startWalker .normal s.settings.normalHead = u at hfix1 hother1 hnext1 hnotice1 hchain1 hcut1 hstart1 ⊢
    have hurun : u.engine = .running := (State.engine_of_fixed hfix1).trans hrrun
    obtain ⟨hfix2, hother2, hnext2, hnotice2, hchain2, hcut2⟩ := startWalker_fields u .priority s.settings.priorityHead
    have hstart2 := started_startWalker hurun .priority s.settings.priorityHead
    generalize u.startWalker .priority s.settings.priorityHead = w at hfix2 hother2 hnext2 hnotice2 hchain2 hcut2 hstart2 ⊢
    have hfix := hfix2.trans hfix1
    have hframe := finish_frame s w
    generalize finish s w = t at hframe ⊢
    have huP : u.walker .priority = s.walker .priority := hother1.trans (by rw [hr]; rfl)
    have hrN : r.walker .normal = s.walker .normal := by rw [hr]; rfl
    have huset : u.settings = s.settings := (State.settings_of_fixed hfix1).trans hrset
    refine ⟨t, rfl, hframe.engine.trans ((State.engine_of_fixed hfix).trans hrrun), ?_, ?_, ?_, ?_, ?_, ?_, fun c => ?_⟩
    · rw [hframe.engineNotice, hnotice2, hnotice1, hr]
      rfl
    · rw [hframe.nextOrder, hnext2, hnext1, hr]
      rfl
    · exact hframe.fault.trans ((State.fault_of_fixed hfix).trans (by rw [hr]; rfl))
    · exact hframe.settings.trans ((State.settings_of_fixed hfix).trans hrset)
    · exact hframe.portA.trans ((State.portA_of_fixed hfix).trans (by rw [hr]; rfl))
    · exact hframe.portB.trans ((State.portB_of_fixed hfix).trans (by rw [hr]; rfl))
    · rw [hframe.walker, hframe.cutAccesses, hframe.chain]
      cases c
      · have hw : w.walker .normal = u.walker .normal := hother2
        dsimp only
        rw [hw]
        refine ⟨hstart1.park, fun v hv => ?_, hstart1.parked, fun h => hstart1.fetching (by rw [hrset]; exact h),
          fun h hne => ?_⟩
        · rw [hcut2]
          exact List.mem_append_left _ (hstart1.cut v (by rw [hrN]; exact hv))
        · obtain ⟨hstate, hcause, hchain⟩ := hstart1.halted (by rw [hrset]; exact h) (by rw [hrN]; exact hne)
          exact ⟨hstate, hcause, hchain2 hchain⟩
      · refine ⟨hstart2.park, fun v hv => hstart2.cut v (by rw [huP]; exact hv), hstart2.parked,
          fun h => hstart2.fetching (by rw [huset]; exact h), fun h hne => ?_⟩
        exact hstart2.halted (by rw [huset]; exact h) (by rw [huP]; exact hne)
  · rw [exec_of_high hlow rfl]
    have heffect : engineStoppedEffect s = _ :=
      if_pos ⟨hengine, State.stopped_of hslots hports hwork hread hcut hrecords⟩
    rw [show effectOf .engineStopped s = engineStoppedEffect s from rfl, heffect]
    rfl
  · have hgoes : s.stopped = false := by
      refine Bool.eq_false_iff.2 fun hstopped => ?_
      unfold State.stopped at hstopped
      simp only [Bool.and_eq_true, Bool.not_eq_true'] at hstopped
      obtain ⟨⟨⟨-, hread⟩, hcut⟩, -⟩ := hstopped
      rcases List.mem_append.1 hv with hv | hv
      · rw [State.accessCut_iff.2 ⟨v, hv, hid⟩] at hcut
        cases hcut
      · rw [State.cbRead_of_access hv hid] at hread
        cases hread
    have heffect : engineStoppedEffect s = s := if_neg (by rw [hgoes]; simp)
    rw [exec_of_high hlow rfl, show effectOf .engineStopped s = engineStoppedEffect s from rfl, heffect]

end Sys2Proof.Machine
end

section
/-! The walkers' commands and the rows of a fetch: O20, O22, O23, O25, O27 (R42, R52 to R55, R57 to R66). -/

namespace Sys2Proof.Machine

/-! ## Rescans and resumes (R59, R60, R66) -/

theorem State.modWalker_eq (s : State) (c : Chain) (f : Walker → Walker) : s.modWalker c f = s.setWalker c (f (s.walker c)) := rfl

theorem State.setWalker_setWalker (s : State) (c : Chain) (v w : Walker) :
    (s.setWalker c v).setWalker c w = s.setWalker c w := by cases c <;> rfl

theorem State.modWalker_modWalker (s : State) (c : Chain) (f g : Walker → Walker) :
    (s.modWalker c f).modWalker c g = s.modWalker c fun w => g (f w) := by cases c <;> rfl

theorem WalkerWork.isNone_iff (w : WalkerWork) : w.isNone = true ↔ w = .none := by cases w <;> simp [WalkerWork.isNone]

theorem State.rescan_of_running {s : State} (h : s.engine = .running) (c : Chain) : s.rescan c = s.rescanCause c :=
  if_pos (by rw [State.inRunning, h]; rfl)

/-- A rescan cause by the walker's state (R59). -/
theorem State.rescanCause_spec (s : State) (c : Chain) :
    ((s.walker c).state = .parked → (s.walker c).work = .none →
      s.rescanCause c = s.setWalker c { s.walker c with work := .rescanLink (s.rescanAddr c) }) ∧
    (((s.walker c).state = .parked ∧ (s.walker c).work ≠ .none) ∨ (s.walker c).state = .fetching ∨
        (s.walker c).state = .blocked →
      s.rescanCause c = s.setWalker c { s.walker c with rescanPending := true }) ∧
    ((s.walker c).state = .idle ∨ (s.walker c).state = .halted → s.rescanCause c = s) := by
  have hparked (hs : (s.walker c).state = .parked) : s.rescanCause c =
      if (s.walker c).work.isNone then s.beginRescan c else s.modWalker c fun w => { w with rescanPending := true } := by
    unfold State.rescanCause
    dsimp only
    rw [hs]
  have hworks (hs : (s.walker c).state = .fetching ∨ (s.walker c).state = .blocked) : s.rescanCause c =
      s.modWalker c fun w => { w with rescanPending := true } := by
    unfold State.rescanCause
    dsimp only
    rcases hs with hs | hs <;> rw [hs]
  refine ⟨fun hs hw => ?_, ?_, ?_⟩
  · rw [hparked hs, if_pos ((WalkerWork.isNone_iff _).2 hw)]
    rfl
  · rintro (⟨hs, hw⟩ | hs)
    · rw [hparked hs, if_neg fun h => hw ((WalkerWork.isNone_iff _).1 h)]
      rfl
    · rw [hworks hs]
      rfl
  · rintro (hs | hs)
    all_goals
      unfold State.rescanCause
      dsimp only
      rw [hs]

theorem State.resumeWalker_eq (s : State) (c : Chain) : s.resumeWalker c = s.setWalker c { s.walker c with
    state := .parked, cause := .none, work := .rescanLink (s.rescanAddr c), resumePending := false,
    pollDue := pollStart s } := by cases c <;> rfl

/-- Settles O20. -/
theorem rescansAndResumes : Obligations.RescansAndResumes := by
  unfold Obligations.RescansAndResumes
  refine ⟨fun s c hlow => ?_, fun s c hlow => ?_⟩
  · intro cmd w link
    have hcmd : exec cmd s = .next (s.rescan c) := by cases c <;> exact exec_of_high hlow rfl
    have hlink : link = s.rescanAddr c := by cases c <;> rfl
    clear_value cmd link
    subst hlink
    obtain ⟨hfree, hbusy, hout⟩ := s.rescanCause_spec c
    refine ⟨fun hrun => ?_, fun due hstate hdue hreached => ?_, fun hstate hwork hpending => ?_⟩
    · rw [hcmd, State.rescan_of_running hrun]
      exact ⟨fun h => congrArg _ (hfree h.1 h.2), fun h => congrArg _ (hbusy h), fun h => congrArg _ (hout h)⟩
    · have hpoll : pollTimerExpiryEffect c s = (s.modWalker c fun w => { w with pollDue := pollStart s }).rescanCause c :=
        if_pos ⟨hstate, by rw [hdue]; exact hreached⟩
      have hexec : exec (.pollTimerExpiry c) s = .next (pollTimerExpiryEffect c s) := exec_of_high hlow rfl
      obtain ⟨hfree', hbusy', -⟩ := (s.modWalker c fun w => { w with pollDue := pollStart s }).rescanCause_spec c
      rw [State.walker_modWalker] at hfree' hbusy'
      rw [hexec, hpoll]
      refine ⟨fun hw => ?_, fun hw => ?_⟩
      · rw [hfree' hstate hw]
        cases c <;> rfl
      · rw [hbusy' (.inl ⟨hstate, hw⟩)]
        cases c <;> rfl
    · have heffect : rescanPendingEffect c s = (s.modWalker c fun w => { w with rescanPending := false }).beginRescan c :=
        if_pos ⟨hstate, (WalkerWork.isNone_iff _).2 hwork, hpending⟩
      have hexec : exec (.rescanPending c) s = .next (rescanPendingEffect c s) := exec_of_high hlow rfl
      rw [hexec, heffect]
      cases c <;> rfl
  · intro cmd w link resumed
    have hcmd : exec cmd s = .next (s.resume c) := by cases c <;> exact exec_of_high hlow rfl
    have hresumed : resumed = s.resumeWalker c := by
      rw [State.resumeWalker_eq]
      cases c <;> rfl
    clear_value cmd resumed
    subst hresumed
    refine ⟨fun hrun => ?_, fun h => ?_⟩
    · have hresume : s.resume c = if (s.walker c).state = .halted then
          if (s.walker c).work.isNone then s.resumeWalker c
          else s.modWalker c fun w => { w with resumePending := true }
        else s := if_pos (by rw [State.inRunning, hrun]; rfl)
      rw [hcmd, hresume]
      refine ⟨fun h => ?_, fun h => ?_, fun h => ?_⟩
      · rw [if_pos h.1, if_pos ((WalkerWork.isNone_iff _).2 h.2)]
      · rw [if_pos h.1, if_neg fun hn => h.2 ((WalkerWork.isNone_iff _).1 hn)]
        rfl
      · rw [if_neg h]
    · have heffect : resumeDeferredEffect c s = s.resumeWalker c :=
        if_pos ⟨h.1, (WalkerWork.isNone_iff _).2 h.2.1, h.2.2⟩
      have hexec : exec (.resumeDeferred c) s = .next (resumeDeferredEffect c s) := exec_of_high hlow rfl
      rw [hexec, heffect]

/-! ## Headers (R52, R53, R55, R59) -/

/-- The walker's work is the direct retirement of the descriptor at `a`, FAILED with code `k` and failing step `n`. -/
def FailedAtFetch (a : Word) (k : ErrorCode) (n : Nat) (now : Word) (w : WalkerWork) : Prop :=
  ∃ d, w = .retire d ∧ d.addr = a ∧ d.results.terminal = .failed ∧ d.results.code = some k ∧ d.results.failingStep = n ∧
    d.results.failingTile = none ∧ d.results.endedAt = now ∧ d.results.stage = .results

theorem State.walker_failAtFetch (s : State) (c : Chain) (a : Word) (h : List Byte) (k : ErrorCode) (n : Nat) :
    ∃ w, (s.failAtFetch c a h k n).walker c = { s.walker c with work := w } ∧ FailedAtFetch a k n s.now w := by
  unfold State.failAtFetch
  dsimp only
  rw [State.walker_modWalker]
  exact ⟨_, rfl, _, rfl, rfl, rfl, rfl, rfl, rfl, rfl, rfl⟩

/-- Check 4 of a header (R53). -/
def HeaderFits (s : State) (a : Word) (h : List Byte) : Prop :=
  1 ≤ (byteAt h 8).toNat ∧ (byteAt h 8).toNat ≤ 32 ∧ s.settings.permits a.toNat (32 + 16 * (byteAt h 8).toNat) true true = true

theorem State.walker_check4 (s : State) (c : Chain) (a : Word) (h : List Byte) :
    ∃ w, (s.check4 c a h).walker c = { s.walker c with work := w } ∧ (HeaderFits s a h → w = .readSteps a h) ∧
      (¬ HeaderFits s a h → FailedAtFetch a .badStep 255 s.now w) := by
  unfold State.check4
  split
  · next hfits =>
    rw [State.walker_modWalker]
    exact ⟨_, rfl, fun _ => rfl, fun hn => absurd hfits hn⟩
  · next hfits =>
    obtain ⟨w, hw, hfailed⟩ := s.walker_failAtFetch c a h .badStep 255
    exact ⟨w, hw, fun hf => absurd hf hfits, fun _ => hfailed⟩

/-- Settles O22. -/
theorem headerChecked : Obligations.HeaderChecked := by
  unfold Obligations.HeaderChecked
  intro s c a r hlow hrun hcut hstate hwork
  have heffect : headerReadDoneEffect c r s = finish s (s.fetchHeader c a r) := by
    unfold headerReadDoneEffect
    rw [hwork]
  have hexec : exec (.headerReadDone c r) s = .next (headerReadDoneEffect c r s) := endOfAccess_of_live hlow hcut _
  have hhalted : (s.walker c).state ≠ .halted := by rw [hstate]; exact WalkerState.noConfusion
  rw [heffect] at hexec
  have hframe := frame_fetchHeader s c a r
  have hbus : r = .busError → s.fetchHeader c a r = (s.endWork c).haltWalker c .busError := by
    rintro rfl
    unfold State.fetchHeader
    rw [hstate]
  have hbytes (h : List Byte) : r = .bytes h → s.fetchHeader c a r =
      if wordAt h 4 = 1 then s.check4 c a h else s.parkWalker c := by
    rintro rfl
    unfold State.fetchHeader
    rw [hstate]
    rfl
  have hend := finish_frame s (s.fetchHeader c a r)
  have hwalker := hend.walker
  refine ⟨_, hexec, hend.engine.trans (hframe.engine.trans hrun), (hwalker _).trans hframe.other, ?_, fun hr => ?_,
    fun h hr hready => ?_, fun h hr hready => ?_⟩
  · rw [hwalker]
    cases r with
    | busError => rw [hbus rfl, State.walker_endWork_halt _ hrun hhalted]
    | bytes h =>
      rw [hbytes h rfl]
      split
      · obtain ⟨w, hw, -⟩ := s.walker_check4 c a h
        rw [hw]
      · rw [State.parkWalker, State.walker_modWalker]
  · rw [hend.chain, hwalker, hbus hr, State.walker_endWork_halt _ hrun hhalted]
    refine ⟨rfl, rfl, rfl, State.notice_endWork_halt _ hrun hhalted, ?_⟩
    have hskip := State.slot_endWork_halt (k := .busError) HaltCause.noConfusion hrun hhalted
    rw [hbus hr] at hframe
    exact queuedSkipped_of_skip hframe.ports hframe.states hskip
  · rw [hwalker, hbytes h hr, if_neg hready, State.parkWalker, State.walker_modWalker]
    exact ⟨rfl, rfl⟩
  · obtain ⟨w, hw, hfits, hfails⟩ := s.walker_check4 c a h
    rw [hwalker, hbytes h hr, if_pos hready, hw]
    exact ⟨hstate, hfits, hfails⟩

/-- Settles O23. -/
theorem rescanReads : Obligations.RescanReads := by
  unfold Obligations.RescanReads
  intro s c r hlow hrun hstate hcutRescan hcutHeader
  have hhalted : (s.walker c).state ≠ .halted := by rw [hstate]; exact WalkerState.noConfusion
  refine ⟨fun a hwork => ?_, fun a hwork => ?_⟩
  · have heffect : rescanReadDoneEffect c r s = finish s (s.rescanValue c r) := by
      unfold rescanReadDoneEffect
      rw [hwork]
    have hexec : exec (.rescanReadDone c r) s = .next (rescanReadDoneEffect c r s) := endOfAccess_of_live hlow hcutRescan _
    rw [heffect] at hexec
    have hbus : r = .busError → s.rescanValue c r = (s.endWork c).haltWalker c .busError := by
      rintro rfl
      unfold State.rescanValue
      rw [hstate]
    have hbytes (bs : List Byte) : r = .bytes bs → s.rescanValue c r =
        if wordAt bs 0 = 0 then s.endWork c
        else if s.check1 (wordAt bs 0) then s.modWalker c fun w => { w with work := .rescanHeader (wordAt bs 0) }
        else (s.endWork c).haltWalker c .access := by
      rintro rfl
      unfold State.rescanValue
      rw [hstate]
    have hend := finish_frame s (s.rescanValue c r)
    have hwalker := hend.walker
    refine ⟨_, hexec, ?_, fun hr => ?_, fun bs hr hz => ?_, fun bs hr hne h16 hperm => ?_, fun bs hr hbad => ?_⟩
    · rw [hwalker]
      cases r with
      | busError => rw [hbus rfl, State.walker_endWork_halt _ hrun hhalted]
      | bytes bs =>
        rw [hbytes bs rfl]
        repeat' split
        · rw [State.walker_endWork]
        · rw [State.walker_modWalker]
        · rw [State.walker_endWork_halt _ hrun hhalted]
    · rw [hend.chain, hwalker, hbus hr, State.walker_endWork_halt _ hrun hhalted, State.notice_endWork_halt _ hrun hhalted]
      exact ⟨rfl, rfl, rfl⟩
    · rw [hwalker, hbytes bs hr, if_pos hz, State.walker_endWork]
      exact ⟨hstate, rfl⟩
    · rw [hwalker, hbytes bs hr, if_neg hne, if_pos (State.check1_iff.2 ⟨h16, hperm⟩), State.walker_modWalker]
      exact ⟨hstate, rfl⟩
    · obtain ⟨hne, hfails⟩ := State.check1_bad hbad
      rw [hend.chain, hwalker, hbytes bs hr, if_neg hne, hfails, if_neg Bool.false_ne_true,
        State.walker_endWork_halt _ hrun hhalted, State.notice_endWork_halt _ hrun hhalted]
      exact ⟨rfl, rfl, rfl⟩
  · have heffect : headerReadDoneEffect c r s = finish s (s.rescanHeader c a r) := by
      unfold headerReadDoneEffect
      rw [hwork]
    have hexec : exec (.headerReadDone c r) s = .next (headerReadDoneEffect c r s) := endOfAccess_of_live hlow hcutHeader _
    rw [heffect] at hexec
    have hbus : r = .busError → s.rescanHeader c a r = (s.endWork c).haltWalker c .busError := by
      rintro rfl
      unfold State.rescanHeader
      rw [hstate]
    obtain ⟨u, hu⟩ : ∃ u, u = s.modWalker c fun w => { w with state := .fetching, pollDue := none } := ⟨_, rfl⟩
    have hbytes (h : List Byte) : r = .bytes h → s.rescanHeader c a r =
        if wordAt h 4 = 1 then u.check4 c a h else s.endWork c := by
      rintro rfl
      unfold State.rescanHeader
      rw [hstate, hu]
      dsimp only
      by_cases hready : wordAt h 4 = 1
      · rw [if_pos hready, if_pos ⟨hready, WalkerState.noConfusion⟩]
      · rw [if_neg hready, if_neg fun e => hready e.1]
    have huw : u.walker c = { s.walker c with state := .fetching, pollDue := none } := by rw [hu, State.walker_modWalker]
    have hfit (h : List Byte) : HeaderFits u a h ↔ HeaderFits s a h := by
      unfold HeaderFits
      rw [show u.settings = s.settings by rw [hu]; simp]
    have hunow : u.now = s.now := by rw [hu]; simp
    have hend := finish_frame s (s.rescanHeader c a r)
    have hwalker := hend.walker
    refine ⟨_, hexec, ?_, fun hr => ?_, fun h hr hready => ?_, fun h hr hready => ?_⟩
    · rw [hwalker]
      cases r with
      | busError => rw [hbus rfl, State.walker_endWork_halt _ hrun hhalted]
      | bytes h =>
        rw [hbytes h rfl]
        split
        · obtain ⟨w, hw, -⟩ := u.walker_check4 c a h
          rw [hw, huw]
        · rw [State.walker_endWork]
    · rw [hend.chain, hwalker, hbus hr, State.walker_endWork_halt _ hrun hhalted, State.notice_endWork_halt _ hrun hhalted]
      exact ⟨rfl, rfl, rfl⟩
    · rw [hwalker, hbytes h hr, if_neg hready, State.walker_endWork]
      exact ⟨hstate, rfl⟩
    · obtain ⟨w, hw, hfits, hfails⟩ := u.walker_check4 c a h
      rw [hwalker, hbytes h hr, if_pos hready, hw, huw]
      rw [hfit, hunow] at *
      exact ⟨rfl, rfl, hfits, hfails⟩

/-! ## Slots on offer (R61) -/

theorem State.offeredTo_held {s : State} {c : Chain} {d : Fetched} {o : List SlotNum} {i : SlotNum}
    (hw : (s.walker c).work = .held d o) (hfree : s.slot i = .free) :
    s.offeredTo i c = if i ∈ o ∧ s.mayUse c = true then some d else none := by
  unfold State.offeredTo
  rw [hw]
  simp [hfree]

theorem State.offeredTo_eq_none {s : State} {c : Chain} {i : SlotNum}
    (h : ∀ d o, (s.walker c).work = .held d o → i ∉ o ∨ s.mayUse c = false) : s.offeredTo i c = none := by
  unfold State.offeredTo
  split
  · next d o hw =>
    refine if_neg fun hin => ?_
    rcases h d o hw with h | h
    · exact h hin.2.1
    · rw [h] at hin
      exact Bool.false_ne_true hin.2.2
  · rfl

theorem filter_ne_of_not_mem {o : List SlotNum} {i : SlotNum} (h : i ∉ o) : o.filter (fun k => decide (k ≠ i)) = o :=
  List.filter_eq_self.2 fun _ hk => decide_eq_true fun e => h (e ▸ hk)

theorem Walker.modOffers_eq (f : List SlotNum → List SlotNum) (w : Walker) : w.modOffers f = { w with
    work := match w.work with
      | .held d o => .held d (f o)
      | x => x } := by
  obtain ⟨_, _, _, _, work, _, _, _, _⟩ := w
  cases work <;> rfl

/-- A walker to which slot `i` is not on offer keeps its offers when `i` is taken. -/
theorem Walker.modOffers_filter_eq_self {w : Walker} {i : SlotNum} (h : ∀ d o, w.work = .held d o → i ∉ o) :
    w.modOffers (fun o => o.filter fun k => decide (k ≠ i)) = w := by
  unfold Walker.modOffers
  split
  · next d o hw =>
    dsimp only
    rw [filter_ne_of_not_mem (h d o hw), ← hw]
  · rfl

/-- Settles O25. -/
theorem slotsOffered : Obligations.SlotsOffered := by
  unfold Obligations.SlotsOffered
  intro s i hlow hfree
  have hexec : exec (.slotOffer i) s = .next (slotOfferEffect i s) := exec_of_high hlow rfl
  rw [hexec]
  refine ⟨fun d o hw hin => ?_, fun hnotP => ⟨fun d o hw hin hfew => ?_, fun hnot => ?_⟩⟩
  · have htaker : s.offerTaker i = some (.priority, d) := by
      unfold State.offerTaker
      rw [State.offeredTo_held (c := .priority) hw hfree, if_pos ⟨hin, rfl⟩]
    unfold slotOfferEffect
    rw [htaker]
    dsimp only
    refine congrArg Host.Outcome.next ?_
    have hmod : s.walkerN.modOffers (fun o => o.filter fun k => decide (k ≠ i)) = { s.walkerN with
        work := match s.walkerN.work with
          | .held e l => .held e (l.filter fun k => decide (k ≠ i))
          | w => w } := Walker.modOffers_eq _ _
    exact congrArg (((s.setSlot i (.claimed .priority)).setWalker .priority
      { s.walkerP with state := .fetching, work := .takenWrite d i }).setWalker .normal) hmod
  · have hnone : s.offeredTo i .priority = none := State.offeredTo_eq_none fun d o h => .inl (hnotP d o h)
    have htaker : s.offerTaker i = some (.normal, d) := by
      unfold State.offerTaker
      rw [hnone, State.offeredTo_held (c := .normal) hw hfree, if_pos ⟨hin, decide_eq_true hfew⟩]
      rfl
    unfold slotOfferEffect
    rw [htaker]
    dsimp only
    refine congrArg Host.Outcome.next ?_
    have hmod := Walker.modOffers_filter_eq_self (w := s.walkerP) hnotP
    show ((s.setSlot i (.claimed .normal)).setWalker .normal _).setWalker .priority
      (s.walkerP.modOffers fun o => o.filter fun k => decide (k ≠ i)) = _
    rw [hmod]
    rfl
  · have hnone : s.offeredTo i .priority = none := State.offeredTo_eq_none fun d o h => .inl (hnotP d o h)
    have hnoneN : s.offeredTo i .normal = none := State.offeredTo_eq_none fun d o h => by
      rcases hnot with hnot | hmany
      · exact .inl (hnot d o h)
      · exact .inr (decide_eq_false (by omega))
    have htaker : s.offerTaker i = none := by
      unfold State.offerTaker
      rw [hnone, hnoneN]
      rfl
    rw [slotOfferEffect_idle htaker]

end Sys2Proof.Machine
end

section
/-! Checks 5 and 6 of a fetch (R23 to R26, R53, R54), over the bytes of the descriptor, and what follows a pass (R56, R61): O24. -/

namespace Sys2Proof.Machine

/-! ## The check sum (R23) -/

theorem foldr_add_half (l : List Half) (a : Half) : l.foldr (· + ·) a = a + l.foldr (· + ·) 0 := by
  induction l with
  | nil => simp
  | cons x l ih => rw [List.foldr_cons, List.foldr_cons, ih, ← BitVec.add_assoc, ← BitVec.add_assoc, BitVec.add_comm x a]

theorem sumHalves_eq (bs : List Byte) (n i : Nat) :
    sumHalves bs (2 * i) n = ((List.range' i n).map fun k => halfAt bs (2 * k)).foldr (· + ·) 0 := by
  induction n generalizing i with
  | zero => rfl
  | succ n ih =>
    rw [sumHalves, List.range'_succ, List.map_cons, List.foldr_cons, ← ih (i + 1)]
    rfl

theorem checkSum_eq_descriptorSum (h bs : List Byte) : checkSum h bs = descriptorSum h bs := by
  unfold checkSum descriptorSum
  rw [foldr_add_half, List.range_eq_range', ← sumHalves_eq]
  rfl

/-! ## Step records (R25, R26) -/

theorem StepKind.ofCode_spec {n : Nat} {k : StepKind} (h : StepKind.ofCode n = some k) :
    1 ≤ n ∧ n ≤ 16 ∧
    [StepKind.wake, .sleep, .show, .blank, .invert, .window, .band, .rollArea, .rollTo, .put, .get, .readId, .readState,
      .wait, .pause, .mark][n - 1]? = some k ∧
    (k.isDisplay || k.isConfig) = decide (3 ≤ n ∧ n ≤ 9) ∧
    (k.isPower || k.isQuery || k.isEngine) = !decide (3 ≤ n ∧ n ≤ 11) ∧
    k.isEngine = decide (14 ≤ n) ∧ (k == .wait) = decide (n = 14) ∧ k.isQuery = decide (n = 12 ∨ n = 13) := by
  unfold StepKind.ofCode at h
  split at h <;> cases h <;> decide

theorem StepKind.exists_ofCode {n : Nat} (h1 : 1 ≤ n) (h16 : n ≤ 16) : ∃ k, StepKind.ofCode n = some k := by
  interval_cases n <;> exact ⟨_, rfl⟩

theorem flagsAllowed_iff {n : Nat} {k : StepKind} (h : StepKind.ofCode n = some k) (f : Byte) : flagsAllowed k f = true ↔
    (f.getLsbD 0 = true → 3 ≤ n ∧ n ≤ 9) ∧ (f.getLsbD 1 = true → 3 ≤ n ∧ n ≤ 11) ∧ (f.getLsbD 2 = true → n ≤ 13) ∧
      (f.getLsbD 3 = true → n = 14) := by
  obtain ⟨-, -, -, hshow, hpower, hengine, hwait, -⟩ := StepKind.ofCode_spec h
  unfold flagsAllowed
  rw [Bool.or_assoc, hshow, hpower, hengine, hwait]
  cases f.getLsbD 0 <;> cases f.getLsbD 1 <;> cases f.getLsbD 2 <;> cases f.getLsbD 3 <;> simp <;> omega

theorem countTiles_eq_one_iff (ts : TileSet) : countTiles ts = 1 ↔ ∃ n : TileNum, ts.toNat = 2 ^ n.val := by
  unfold countTiles
  rw [List.length_eq_one_iff]
  constructor
  · rintro ⟨a, ha⟩
    refine ⟨a, ?_⟩
    have hmem (t : TileNum) : ts.getLsbD t.val = true ↔ t = a := by
      have : t ∈ (List.finRange 24).filter (fun t => ts.getLsbD t.val) ↔ t = a := by rw [ha, List.mem_singleton]
      rw [← this, List.mem_filter]
      simp
    have heq : ts = BitVec.twoPow 24 a.val := by
      refine BitVec.eq_of_getLsbD_eq fun i hi => ?_
      rw [BitVec.getLsbD_twoPow]
      have := hmem ⟨i, hi⟩
      by_cases hia : i = a.val
      · subst hia
        rw [this.2 rfl]
        simp
      · rw [Bool.eq_false_iff.2 fun h => hia (congrArg Fin.val (this.1 h))]
        simp [Ne.symm hia]
    rw [heq, BitVec.toNat_twoPow]
    exact Nat.mod_eq_of_lt (Nat.pow_lt_pow_right (by omega) a.isLt)
  · rintro ⟨a, ha⟩
    have heq : ts = BitVec.twoPow 24 a.val := BitVec.eq_of_toNat_eq (by
      rw [BitVec.toNat_twoPow, ha, Nat.mod_eq_of_lt (Nat.pow_lt_pow_right (by omega) a.isLt)])
    refine ⟨a, ?_⟩
    have hfilter : (fun t : TileNum => ts.getLsbD t.val) = fun t => decide (t = a) := by
      funext t
      rw [heq, BitVec.getLsbD_twoPow]
      simp [Fin.ext_iff, eq_comm]
    rw [hfilter]
    clear hfilter heq ha
    revert a
    decide

theorem tileSetOk_iff {n : Nat} {k : StepKind} (h : StepKind.ofCode n = some k) (raw : Word) : tileSetOk k raw = true ↔
    raw.toNat < 2 ^ 24 ∧ (raw.toNat = 0 ↔ 14 ≤ n) ∧ (n = 12 ∨ n = 13 → ∃ x : TileNum, raw.toNat = 2 ^ x.val) := by
  obtain ⟨-, -, -, -, -, hengine, -, hquery⟩ := StepKind.ofCode_spec h
  have hsmall : (raw.toNat / 2 ^ 24 == 0) = true ↔ raw.toNat < 2 ^ 24 := by
    rw [beq_iff_eq, Nat.div_eq_zero_iff_lt (by norm_num)]
  unfold tileSetOk
  dsimp only
  rw [Bool.and_eq_true, Bool.and_eq_true, hsmall, and_assoc]
  refine and_congr_right fun hlt => ?_
  have hwidth : (raw.setWidth 24 : TileSet).toNat = raw.toNat := by
    rw [BitVec.toNat_setWidth, Nat.mod_eq_of_lt hlt]
  have hzero : ((raw.setWidth 24 : TileSet) == 0) = decide (raw.toNat = 0) := by
    rw [← hwidth, Bool.eq_iff_iff, beq_iff_eq, decide_eq_true_eq]
    exact ⟨fun e => by rw [e]; rfl, fun e => BitVec.eq_of_toNat_eq e⟩
  rw [hzero, hengine, hquery]
  refine and_congr ?_ ?_
  · rw [beq_iff_eq, decide_eq_decide]
  · rw [Bool.or_eq_true, Bool.not_eq_true', decide_eq_false_iff_not, beq_iff_eq, countTiles_eq_one_iff, hwidth]
    tauto

theorem isSome_ofCode_iff (n : Nat) : (EventSource.ofCode n).isSome = true ↔ ValidSource n := by
  unfold EventSource.ofCode ValidSource
  split
  · simp [*]
  · by_cases hle : n ≤ 0x33
    · interval_cases n <;> simp
    · split
      all_goals first
        | omega
        | (simp only [Option.isSome_none, Bool.false_eq_true, false_iff]; omega)

theorem operandsOk_iff {n : Nat} {k : StepKind} (h : StepKind.ofCode n = some k) (x y : Word) : operandsOk k x y = true ↔
    (n = 5 ∨ n = 7 → x.toNat ≤ 1) ∧ (n = 10 ∨ n = 11 → y.toNat % 2 ^ 24 ≠ 0 ∧ y.toNat / 2 ^ 24 ≤ 1) ∧
    (10 ≤ n ∧ n ≤ 13 → x.toNat % 4 = 0) ∧ (n = 14 → ValidSource x.toNat ∧ y.toNat % 2 ^ 16 ≠ 0) ∧
    (n = 15 → x.toNat % 2 ^ 16 ≠ 0) ∧ (n = 16 → x.toNat ≤ 3) := by
  have hbit : (x == 0 || x == 1) = true ↔ x.toNat ≤ 1 := by
    rw [Bool.or_eq_true, beq_iff_eq, beq_iff_eq]
    constructor
    · rintro (rfl | rfl) <;> decide
    · intro hle
      rcases Nat.le_one_iff_eq_zero_or_eq_one.1 hle with e | e
      · exact .inl (BitVec.eq_of_toNat_eq e)
      · exact .inr (BitVec.eq_of_toNat_eq e)
  have hhalf (w : Word) : (lowHalf w != 0) = true ↔ w.toNat % 2 ^ 16 ≠ 0 := by
    rw [bne_iff_ne, ne_eq, ← BitVec.toNat_inj, lowHalf, BitVec.toNat_setWidth]
    rfl
  unfold StepKind.ofCode at h
  split at h <;> cases h <;> unfold operandsOk <;> dsimp only
  all_goals try simp only [hbit, hhalf, isSome_ofCode_iff, Bool.and_eq_true, decide_eq_true_eq, beq_iff_eq, bne_iff_ne, ne_eq]
  all_goals norm_num only [or_self, or_false, or_true, true_or, false_or, false_and, and_self, true_and, and_true, and_assoc,
    IsEmpty.forall_iff, forall_const]

/-- A step record parses exactly when it is well formed. -/
theorem parseStep_isSome_iff (bs : List Byte) (k : Nat) : (parseStep bs (16 * k)).isSome = true ↔ StepWellFormed bs k := by
  unfold parseStep StepWellFormed
  dsimp only
  cases hk : StepKind.ofCode (byteAt bs (16 * k)).toNat with
  | none =>
    simp only [Option.isSome_none, Bool.false_eq_true, false_iff]
    rintro ⟨h1, h16, -⟩
    obtain ⟨kind, hkind⟩ := StepKind.exists_ofCode h1 h16
    rw [hk] at hkind
    cases hkind
  | some kind =>
    obtain ⟨h1, h16, -⟩ := StepKind.ofCode_spec hk
    have hsome {c : Bool} {p : Step} : (if c then some p else none : Option Step).isSome = true ↔ c = true := by
      cases c <;> simp
    dsimp only
    rw [hsome, Bool.and_eq_true, Bool.and_eq_true, flagsAllowed_iff hk, tileSetOk_iff hk, operandsOk_iff hk]
    simp only [h1, h16, true_and, and_assoc]

/-- What parses is the record's step, field by field. -/
theorem stepRead_of_parse {bs : List Byte} {k : Nat} {p : Step} (h : parseStep bs (16 * k) = some p) : StepRead bs k p := by
  unfold parseStep at h
  cases hk : StepKind.ofCode (byteAt bs (16 * k)).toNat with
  | none => rw [hk] at h; cases h
  | some kind =>
    rw [hk] at h
    dsimp only at h
    obtain ⟨-, hp⟩ := Option.ite_none_right_eq_some.1 h
    cases hp
    exact ⟨(StepKind.ofCode_spec hk).2.2.1, rfl, rfl, rfl, rfl, rfl, rfl, rfl⟩

/-- A well-formed record passes its aperture test as its step does. -/
theorem permitsStep_iff {bs : List Byte} {k : Nat} {p : Step} (h : parseStep bs (16 * k) = some p) (st : Settings) :
    st.permitsStep p = true ↔ StepPermitted st bs k := by
  have hwf := (parseStep_isSome_iff bs k).1 (by rw [h]; rfl)
  obtain ⟨hkind, -, -, -, -, -, hx, hy⟩ := stepRead_of_parse h
  have hpixels : (byteAt bs (16 * k)).toNat = 0x0A ∨ (byteAt bs (16 * k)).toNat = 0x0B →
      (wordAt bs (16 * k + 12)).toNat / 2 ^ 24 ≤ 1 := fun hn => by
    obtain ⟨-, -, -, -, -, -, -, -, -, -, hpix, -⟩ := hwf
    exact (hpix hn).2
  have hextent (hle : (wordAt bs (16 * k + 12)).toNat / 2 ^ 24 ≤ 1) : 4 * wordsOf p.format p.pixelCount =
      if (wordAt bs (16 * k + 12)).toNat / 2 ^ 24 = 1 then 4 * ((wordAt bs (16 * k + 12)).toNat % 2 ^ 24)
      else 4 * (((wordAt bs (16 * k + 12)).toNat % 2 ^ 24 + 1) / 2) := by
    unfold Step.format Step.pixelCount
    rw [hy]
    rcases Nat.le_one_iff_eq_zero_or_eq_one.1 hle with e | e <;> rw [e] <;> rfl
  unfold StepPermitted
  dsimp only
  obtain ⟨hlow, hhigh, -⟩ := hwf
  unfold Settings.permitsStep Step.buffer
  generalize (byteAt bs (16 * k)).toNat = n at hkind hpixels hlow hhigh ⊢
  have hrange : n = 10 ∨ n = 11 ∨ n ≤ 9 ∨ 12 ≤ n := by omega
  rcases hrange with rfl | rfl | h9 | h12
  · rw [← Option.some.inj hkind, hx]
    simp [hextent (hpixels (.inl rfl))]
  · rw [← Option.some.inj hkind, hx]
    simp [hextent (hpixels (.inr rfl))]
  · interval_cases n
    all_goals
      rw [← Option.some.inj hkind, hx]
      simp
  · interval_cases n
    all_goals
      rw [← Option.some.inj hkind, hx]
      simp

end Sys2Proof.Machine
end

section
/-! The fetch of step records: O24 (R23 to R26, R53 to R56, R61). -/

namespace Sys2Proof.Machine

/-! ## Check 6 (R54) -/

/-- Step record `k` passes check 6. -/
def RecordPasses (st : Settings) (bs : List Byte) (k : Nat) : Prop := StepWellFormed bs k ∧ StepPermitted st bs k

section
variable {st : Settings} {bs : List Byte} {k : Nat}

theorem checkSteps_malformed (n : Nat) (h : ¬ StepWellFormed bs k) : checkSteps st bs k (n + 1) = .error (.badStep, k) := by
  have hnone : parseStep bs (16 * k) = none := by
    rw [← parseStep_isSome_iff] at h
    simpa using h
  unfold checkSteps
  rw [hnone]

theorem checkSteps_denied (n : Nat) (hwf : StepWellFormed bs k) (h : ¬ StepPermitted st bs k) :
    checkSteps st bs k (n + 1) = .error (.access, k) := by
  obtain ⟨p, hp⟩ := Option.isSome_iff_exists.1 ((parseStep_isSome_iff bs k).2 hwf)
  unfold checkSteps
  rw [hp]
  exact if_neg fun hperm => h ((permitsStep_iff hp st).1 hperm)

theorem checkSteps_passes (n : Nat) (h : RecordPasses st bs k) : ∃ p, StepRead bs k p ∧
    checkSteps st bs k (n + 1) = match checkSteps st bs (k + 1) n with
      | .ok ps => .ok (p :: ps)
      | .error e => .error e := by
  obtain ⟨p, hp⟩ := Option.isSome_iff_exists.1 ((parseStep_isSome_iff bs k).2 h.1)
  refine ⟨p, stepRead_of_parse hp, ?_⟩
  rw [checkSteps, hp]
  exact if_pos ((permitsStep_iff hp st).2 h.2)

/-- Where every record passes, check 6 gives the steps, each with the fields of its record. -/
theorem checkSteps_ok {n : Nat} (h : ∀ m, k ≤ m → m < k + n → RecordPasses st bs m) :
    ∃ ps, checkSteps st bs k n = .ok ps ∧ ps.length = n ∧ ∀ m, m < n → ∃ p, ps[m]? = some p ∧ StepRead bs (k + m) p := by
  induction n generalizing k with
  | zero => exact ⟨[], rfl, rfl, fun m hm => absurd hm (Nat.not_lt_zero m)⟩
  | succ n ih =>
    obtain ⟨ps, hps, hlen, hread⟩ := ih (k := k + 1) fun m hle hlt => h m (by omega) (by omega)
    obtain ⟨p, hp, hcheck⟩ := checkSteps_passes (st := st) n (h k (Nat.le_refl k) (by omega))
    refine ⟨p :: ps, by rw [hcheck, hps], by rw [List.length_cons, hlen], fun m hm => ?_⟩
    cases m with
    | zero => exact ⟨p, rfl, hp⟩
    | succ m =>
      obtain ⟨q, hq, hqread⟩ := hread m (by omega)
      refine ⟨q, hq, ?_⟩
      rw [show k + (m + 1) = k + 1 + m by omega]
      exact hqread

/-- The first record that does not pass fails the descriptor, with its own code (R54). -/
theorem checkSteps_error {n b : Nat} (hle : k ≤ b) (hlt : b < k + n) (h : ∀ m, k ≤ m → m < b → RecordPasses st bs m)
    (hb : ¬ RecordPasses st bs b) : ∃ code, checkSteps st bs k n = .error (code, b) ∧
      (¬ StepWellFormed bs b → code = .badStep) ∧ (StepWellFormed bs b → code = .access) := by
  induction n generalizing k with
  | zero => omega
  | succ n ih =>
    rcases Nat.eq_or_lt_of_le hle with rfl | hkb
    · by_cases hwf : StepWellFormed bs k
      · exact ⟨_, checkSteps_denied n hwf fun hp => hb ⟨hwf, hp⟩, fun hn => absurd hwf hn, fun _ => rfl⟩
      · exact ⟨_, checkSteps_malformed n hwf, fun _ => rfl, fun hn => absurd hn hwf⟩
    · obtain ⟨code, hcode, hcases⟩ := ih (k := k + 1) hkb (by omega) fun m hle hlt => h m (by omega) hlt
      obtain ⟨p, -, hcheck⟩ := checkSteps_passes (st := st) n (h k (Nat.le_refl k) hkb)
      exact ⟨code, by rw [hcheck, hcode], hcases⟩

end

/-! ## A fetch that passes (R56, R61) -/

section
variable (s : State) (c : Chain)

theorem State.walker_claim (d : Fetched) (i : SlotNum) :
    (s.claim c d i).walker c = { s.walker c with state := .fetching, work := .takenWrite d i } := by
  unfold State.claim
  rw [State.walker_modWalker]
  simp

theorem State.walker_claim_ne (d : Fetched) (i : SlotNum) :
    (s.claim c d i).walker (otherChain c) = s.walker (otherChain c) := by
  unfold State.claim
  rw [State.walker_modWalker_ne _ _ (otherChain_ne c)]
  simp

theorem State.slot_claim (d : Fetched) (i : SlotNum) : (s.claim c d i).slot i = .claimed c := by
  unfold State.claim
  simp

/-- A walker that fetches and has passed its fetch is BLOCKED with its descriptor, or claims a slot. -/
theorem State.fetchPassed_eq (d : Fetched) (h : (s.walker c).state = .fetching) : s.fetchPassed c d =
    if s.mayUse c then
      if s.slotOffers (otherChain c) = [] then
        match s.freeSlot with
        | some i => s.claim c d i
        | none => s.modWalker c fun w => { w with state := .blocked, work := .held d [] }
      else s.modWalker c fun w => { w with state := .blocked, work := .held d (s.slotOffers (otherChain c)) }
    else s.modWalker c fun w => { w with state := .blocked, work := .held d [] } := by
  unfold State.fetchPassed
  dsimp only
  exact if_neg (by rw [h]; exact WalkerState.noConfusion)

theorem State.other_fetchPassed (d : Fetched) :
    (s.fetchPassed c d).walker (otherChain c) = s.walker (otherChain c) ∧
      ((s.fetchPassed c d).walker c).park = (s.walker c).park := by
  have hmod (f : Walker → Walker) (hf : ∀ w, (f w).park = w.park) :
      (s.modWalker c f).walker (otherChain c) = s.walker (otherChain c) ∧ ((s.modWalker c f).walker c).park = (s.walker c).park :=
    ⟨State.walker_modWalker_ne _ _ (otherChain_ne c), by rw [State.walker_modWalker, hf]⟩
  unfold State.fetchPassed
  dsimp only
  repeat' split
  · exact hmod _ fun _ => rfl
  · exact ⟨s.walker_claim_ne c d _, by rw [State.walker_claim]⟩
  · exact hmod _ fun _ => rfl
  · exact hmod _ fun _ => rfl
  · exact hmod _ fun _ => rfl

theorem State.other_failAtFetch (a : Word) (h : List Byte) (k : ErrorCode) (n : Nat) :
    (s.failAtFetch c a h k n).walker (otherChain c) = s.walker (otherChain c) ∧
      ((s.failAtFetch c a h k n).walker c).park = (s.walker c).park := by
  obtain ⟨w, hw, -⟩ := s.walker_failAtFetch c a h k n
  exact ⟨(frame_failAtFetch s c a h k n).other, by rw [hw]⟩

end

/-- The descriptor that a header and its steps make. -/
def fetchedOf (a : Word) (h : List Byte) (ps : List Step) : Fetched :=
  { addr := a, link := headerLink h, notify := headerNotify h, haltOnFail := headerHaltOnFail h, steps := ps }

theorem State.fetchSteps_eq {s : State} {c : Chain} (a : Word) (h bs : List Byte) (hstate : (s.walker c).state ≠ .idle) :
    s.fetchSteps c a h (.bytes bs) =
      if checkSum h bs ≠ headerCheck h then s.failAtFetch c a h .check 255
      else match checkSteps s.settings bs 0 (headerCount h) with
        | .error (code, k) => s.failAtFetch c a h code k
        | .ok ps => s.fetchPassed c (fetchedOf a h ps) := by
  unfold State.fetchSteps
  cases hw : (s.walker c).state
  case idle => exact absurd hw hstate
  all_goals rfl

theorem State.fetchSteps_busError {s : State} {c : Chain} (a : Word) (h : List Byte) (hstate : (s.walker c).state ≠ .idle) :
    s.fetchSteps c a h .busError = (s.endWork c).haltWalker c .busError := by
  unfold State.fetchSteps
  cases hw : (s.walker c).state
  case idle => exact absurd hw hstate
  all_goals rfl

/-- Settles O24. -/
theorem stepsChecked : Obligations.StepsChecked := by
  unfold Obligations.StepsChecked
  intro s c a h r hlow hrun hcut hstate hwork count passes
  have heffect : stepReadDoneEffect c r s = finish s (s.fetchSteps c a h r) := by
    unfold stepReadDoneEffect
    rw [hwork]
  have hexec : exec (.stepReadDone c r) s = .next (stepReadDoneEffect c r s) := endOfAccess_of_live hlow hcut _
  rw [heffect] at hexec
  have hidle : (s.walker c).state ≠ .idle := by rw [hstate]; exact WalkerState.noConfusion
  have hhalted : (s.walker c).state ≠ .halted := by rw [hstate]; exact WalkerState.noConfusion
  have hbus : r = .busError → s.fetchSteps c a h r = (s.endWork c).haltWalker c .busError := by
    rintro rfl
    exact State.fetchSteps_busError a h hidle
  have hbadsum (bs : List Byte) (hr : r = .bytes bs) (hsum : descriptorSum h bs ≠ halfAt h 10) :
      s.fetchSteps c a h r = s.failAtFetch c a h .check 255 := by
    rw [hr, State.fetchSteps_eq a h bs hidle, checkSum_eq_descriptorSum]
    exact if_pos hsum
  have hgoodsum (bs : List Byte) (hr : r = .bytes bs) (hsum : descriptorSum h bs = halfAt h 10) :
      s.fetchSteps c a h r = match checkSteps s.settings bs 0 (headerCount h) with
        | .error (code, k) => s.failAtFetch c a h code k
        | .ok ps => s.fetchPassed c (fetchedOf a h ps) := by
    rw [hr, State.fetchSteps_eq a h bs hidle, checkSum_eq_descriptorSum]
    exact if_neg (not_not.2 hsum)
  have hend := finish_frame s (s.fetchSteps c a h r)
  have hkeeps : (s.fetchSteps c a h r).walker (otherChain c) = s.walker (otherChain c) ∧
      ((s.fetchSteps c a h r).walker c).park = (s.walker c).park := by
    cases r with
    | busError =>
      rw [hbus rfl]
      exact ⟨((frame_endWork s c).trans (frame_haltWalker _ c _)).other, by
        rw [State.walker_endWork_halt _ hrun hhalted]⟩
    | bytes bs =>
      rw [State.fetchSteps_eq a h bs hidle]
      repeat' split
      · exact s.other_failAtFetch c a h _ _
      · exact s.other_failAtFetch c a h _ _
      · exact s.other_fetchPassed c _
  refine ⟨_, hexec, ?_, (hend.walker _).trans hkeeps.1, fun hr => ?_, fun bs hr hsum => ?_,
    fun bs k hr hsum hk hbefore hfails => ?_, fun bs hr hsum hall => ?_⟩
  · rw [hend.walker]
    exact hkeeps.2
  · rw [hend.walker, hbus hr, State.walker_endWork_halt _ hrun hhalted]
    exact ⟨rfl, rfl, rfl⟩
  · obtain ⟨w, hw, d, hd, haddr, hterm, hcode, hstep, -⟩ := s.walker_failAtFetch c a h .check 255
    rw [hend.walker, hbadsum bs hr hsum, hw]
    exact ⟨hstate, d, hd, haddr, hterm, hcode, hstep⟩
  · obtain ⟨code, herror, hbad, hdenied⟩ := checkSteps_error (st := s.settings) (bs := bs) (k := 0) (n := count) (b := k)
      (Nat.zero_le k) (by omega) (fun m _ hm => hbefore m hm) hfails
    obtain ⟨w, hw, d, hd, haddr, hterm, hcode, hstep, -⟩ := s.walker_failAtFetch c a h code k
    have hfetch : s.fetchSteps c a h r = s.failAtFetch c a h code k := by
      rw [hgoodsum bs hr hsum, show checkSteps s.settings bs 0 (headerCount h) = .error (code, k) from herror]
    rw [hend.walker, hfetch, hw]
    exact ⟨hstate, d, hd, haddr, hterm, hstep, fun hwf => by rw [hcode, hbad hwf], fun hwf => by rw [hcode, hdenied hwf]⟩
  · obtain ⟨ps, hok, hlen, hread⟩ := checkSteps_ok (st := s.settings) (bs := bs) (k := 0) (n := count) fun m _ hm =>
      hall m (by omega)
    have hfetch : s.fetchSteps c a h r = s.fetchPassed c (fetchedOf a h ps) := by
      rw [hgoodsum bs hr hsum, show checkSteps s.settings bs 0 (headerCount h) = .ok ps from hok]
    have hpassed := s.fetchPassed_eq c (fetchedOf a h ps) hstate
    refine ⟨fetchedOf a h ps, rfl, rfl, rfl, rfl, hlen, fun m hm => ?_, fun i hmay hno hfree => ?_, fun hmay hoffers => ?_,
      fun hmay hno hfree => ?_, fun hmay => ?_⟩
    · obtain ⟨p, hp, hpread⟩ := hread m hm
      rw [Nat.zero_add] at hpread
      exact ⟨p, hp, hpread⟩
    · have hclaim : s.fetchSteps c a h r = s.claim c (fetchedOf a h ps) i := by
        rw [hfetch, hpassed, if_pos hmay, if_pos hno, hfree]
      rw [hclaim] at hend
      rw [hclaim, hend.walker, State.walker_claim]
      refine ⟨rfl, rfl, ?_⟩
      rw [hend.empty i (by rw [State.slot_claim]; rfl), State.slot_claim]
    · rw [hend.walker, hfetch, hpassed, if_pos hmay, if_neg hoffers, State.walker_modWalker]
      exact ⟨rfl, rfl⟩
    · rw [hend.walker, hfetch, hpassed, if_pos hmay, if_pos hno, hfree]
      dsimp only
      rw [State.walker_modWalker]
      exact ⟨rfl, rfl⟩
    · rw [hend.walker, hfetch, hpassed, if_neg (by rw [hmay]; exact Bool.false_ne_true), State.walker_modWalker]
      exact ⟨rfl, rfl⟩

end Sys2Proof.Machine
end

section
/-! What a retirement writes (R42, R43, R55, 12.3), and direct retirements: O27 (R55, R63, R174). -/

namespace Sys2Proof.Machine

/-! ## The bytes of a retirement -/

theorem errorByteIs_errorByte (c : Option ErrorCode) : ErrorByteIs (errorByte c) c := by
  cases c with
  | none => rfl
  | some c => cases c <;> rfl

theorem stateWordIs_wordBytes (e : Terminal) : StateWordIs (wordBytes (BitVec.ofNat 32 e.code)) e := by
  cases e <;> rfl

theorem resultFields_bytes (r : Retirement) : ResultFields r r.bytes := by
  have hstarted : wordAt r.bytes 8 = r.startedAt := wordAt_wordBytes
    [errorByte r.code, BitVec.ofNat 8 r.failingStep, (match r.failingTile with | some t => BitVec.ofNat 8 t.val | none => 255#8),
      BitVec.ofNat 8 r.tolerated, BitVec.ofNat 8 r.stepsDone, 0, 0, 0] (wordBytes r.endedAt) r.startedAt
  have hended : wordAt r.bytes 12 = r.endedAt := wordAt_wordBytes
    ([errorByte r.code, BitVec.ofNat 8 r.failingStep, (match r.failingTile with | some t => BitVec.ofNat 8 t.val | none => 255#8),
      BitVec.ofNat 8 r.tolerated, BitVec.ofNat 8 r.stepsDone, 0, 0, 0] ++ wordBytes r.startedAt) [] r.endedAt
  have htile : (byteAt r.bytes 2).toNat = (r.failingTile.map fun x => x.val).getD 255 := by
    show (match r.failingTile with | some t => BitVec.ofNat 8 t.val | none => 255#8 : Byte).toNat = _
    cases r.failingTile with
    | none => rfl
    | some t =>
      have := t.isLt
      simp only [BitVec.toNat_ofNat, Option.map_some, Option.getD_some]
      omega
  exact ⟨rfl, errorByteIs_errorByte r.code, rfl, htile, rfl, rfl, rfl, rfl, rfl, hstarted, hended⟩

theorem retirementWrite_write (a : Word) (r : Retirement) : RetirementWrite a r (r.write a) := by
  unfold Retirement.write
  refine ⟨fun h => ?_, fun h => ?_⟩
  · rw [h]
    exact ⟨_, rfl, resultFields_bytes r⟩
  · rw [h]
    exact ⟨_, rfl, stateWordIs_wordBytes r.terminal⟩

/-! ## Fatal faults on the walkers and slots -/

section
variable {s : State}

theorem State.fatalFault_eq {f : EngineFault} (hf : s.fault = .none) (he : s.engine = .running ∨ s.engine = .stopping) :
    s.fatalFault f = allTiles.foldl State.faultRecord (if s.engine = .running then
      (({ s with fault := f } : State).raise .engine).enterStopping else ({ s with fault := f } : State).raise .engine) :=
  if_pos ⟨hf, he⟩

theorem State.body_faultRecords (s : State) : (allTiles.foldl State.faultRecord s).body = s.body :=
  foldl_keeps State.body State.body_faultRecord allTiles s

theorem State.engineNotice_faultRecords (s : State) :
    (allTiles.foldl State.faultRecord s).notice.engine = s.notice.engine := by
  refine foldl_keeps (fun u => u.notice.engine) (fun u x => ?_) allTiles s
  unfold State.faultRecord
  dsimp only
  split <;> rfl

theorem State.jobNotice_faultRecords (s : State) :
    (allTiles.foldl State.faultRecord s).notice.job = s.notice.job := by
  refine foldl_keeps (fun u => u.notice.job) (fun u x => ?_) allTiles s
  unfold State.faultRecord
  dsimp only
  split <;> rfl

/-- A fatal fault while the engine is RUNNING makes the walkers IDLE (R173, R174). -/
theorem State.walker_fatalFault {f : EngineFault} (hf : s.fault = .none) (he : s.engine = .running) (c : Chain) :
    (s.fatalFault f).walker c = (s.walker c).toIdle := by
  rw [State.fatalFault_eq hf (.inl he), if_pos he, State.walker_of_body (State.body_faultRecords _),
    State.walker_enterStopping]
  cases c <;> rfl

end

/-! ## What a fatal fault raises and ends -/

section
variable (s : State)

@[simp] theorem State.notice_abortJob (i : SlotNum) : (s.abortJob i).notice = s.notice := by
  unfold State.abortJob
  repeat' split
  all_goals simp [State.notice_enterRetiring, State.enterDraining, State.dropWait]

@[simp] theorem State.notice_enterStopping : s.enterStopping.notice = s.notice := by
  have habort (u : State) : u.abortAll.notice = u.notice := foldl_keeps State.notice State.notice_abortJob allSlots u
  have hdisarm (u : State) : u.disarmAll.notice = u.notice := by
    refine foldl_keeps State.notice (fun v x => ?_) allTiles u
    rfl
  unfold State.enterStopping
  rw [hdisarm, habort]
  rfl

theorem State.slots_faultRecords : (allTiles.foldl State.faultRecord s).slots = s.slots := by
  refine foldl_keeps State.slots (fun u x => ?_) allTiles s
  unfold State.faultRecord
  dsimp only
  split <;> rfl

theorem State.tiles_faultRecords : (allTiles.foldl State.faultRecord s).tiles = s.tiles := by
  refine foldl_keeps State.tiles (fun u x => ?_) allTiles s
  unfold State.faultRecord
  dsimp only
  split <;> rfl

end

section
variable {s : State} {f : EngineFault} (hf : s.fault = .none) (he : s.engine = .running ∨ s.engine = .stopping)
include hf he

/-- A fatal fault raises ENGINE, and JOB is as it was (R174). -/
theorem State.notice_fatalFault : (s.fatalFault f).notice.engine = true ∧ (s.fatalFault f).notice.job = s.notice.job := by
  rw [State.fatalFault_eq hf he, State.engineNotice_faultRecords, State.jobNotice_faultRecords]
  split
  · rw [State.notice_enterStopping]
    exact ⟨rfl, rfl⟩
  · exact ⟨rfl, rfl⟩

theorem State.mode_fatalFault : (s.fatalFault f).engine = .stopping ∧ (s.fatalFault f).fault = f := by
  rcases s.fatalFault_mode f with ⟨-, -, h⟩ | ⟨h, -⟩
  · exact h
  · exact absurd ⟨hf, he⟩ h

/-- A free slot stays free at a fatal fault. -/
theorem State.free_fatalFault {i : SlotNum} (h : s.slot i = .free) : (s.fatalFault f).slot i = .free := by
  rw [State.fatalFault_eq hf he, State.slot_of_slots (State.slots_faultRecords _)]
  split
  · rw [State.slot_enterStopping]
    have hslot : (({ s with fault := f } : State).raise .engine).slot i = .free := h
    rw [hslot]
    rfl
  · exact h

theorem State.tile_fatalFault (x : TileNum) :
    (s.fatalFault f).tile x = s.tile x ∨ (s.fatalFault f).tile x = { s.tile x with armed := false } := by
  rw [State.fatalFault_eq hf he, State.tile_of_tiles (State.tiles_faultRecords _)]
  split
  · rw [State.tile_enterStopping]
    exact .inr rfl
  · exact .inl rfl

end

/-! ## Direct retirements (R55) -/

section
variable (s : State) (c : Chain) (d : DirectRetire)

/-- The state with the directly retired descriptor taken: PARKx and link are its own, and JOB is raised with NOTIFY. -/
def State.directlyTaken (s : State) (c : Chain) (d : DirectRetire) : State :=
  let u := s.modWalker c fun w => { w with park := d.addr, link := d.link, work := .none }
  if d.notify then u.raise .job else u

theorem State.directlyRetired_eq : s.directlyRetired c d =
    if (s.walker c).state = .halted ∨ (s.walker c).state = .idle then s.directlyTaken c d
    else if d.results.code = some .check then (s.directlyTaken c d).haltWalker c .check
    else if d.haltOnFail then (s.directlyTaken c d).haltWalker c .jobFailed
    else (s.directlyTaken c d).followLink c d.link := rfl

theorem State.walker_directlyTaken :
    (s.directlyTaken c d).walker c = { s.walker c with park := d.addr, link := d.link, work := .none } := by
  have h := s.walker_modWalker c fun w => { w with park := d.addr, link := d.link, work := .none }
  unfold State.directlyTaken
  dsimp only
  split
  · exact h
  · exact h

theorem State.directlyTaken_fields : (s.directlyTaken c d).engine = s.engine ∧ (s.directlyTaken c d).settings = s.settings ∧
    (s.directlyTaken c d).notice.job = (s.notice.job || d.notify) ∧
    (s.directlyTaken c d).notice.chain = s.notice.chain := by
  unfold State.directlyTaken
  dsimp only
  split
  · next h => simp [h, State.raise, NoticeSet.raise]
  · next h => simp [h]

theorem State.directlyRetired_notice : (s.directlyRetired c d).notice.job = (s.notice.job || d.notify) := by
  obtain ⟨-, -, hjob, -⟩ := s.directlyTaken_fields c d
  rw [State.directlyRetired_eq]
  repeat' split
  · exact hjob
  · rw [(frame_haltWalker _ c _).notice]
    exact hjob
  · rw [(frame_haltWalker _ c _).notice]
    exact hjob
  · rw [(frame_followLink _ c _).notice]
    exact hjob

end

theorem State.park_haltWalker (s : State) (c : Chain) (k : HaltCause) :
    ((s.haltWalker c k).walker c).park = (s.walker c).park ∧ ((s.haltWalker c k).walker c).link = (s.walker c).link := by
  by_cases h : s.engine ≠ .running ∨ (s.walker c).state = .halted
  · rw [State.haltWalker_eq_self s c h]
    exact ⟨rfl, rfl⟩
  · rw [not_or, not_not] at h
    rw [State.walker_haltWalker h.1 h.2]
    exact ⟨rfl, rfl⟩

theorem State.link_followLink (s : State) (c : Chain) (a : Word) :
    ((s.followLink c a).walker c).link = (s.walker c).link := by
  by_cases hzero : a = 0
  · rw [hzero, State.walker_followLink_zero]
  · cases hcheck : s.check1 a with
    | true => rw [State.walker_followLink hzero hcheck]
    | false =>
      rw [State.followLink_bad hzero hcheck, (State.park_haltWalker _ c _).2, State.walker_endWork]

theorem State.directlyRetired_link (s : State) (c : Chain) (d : DirectRetire) :
    ((s.directlyRetired c d).walker c).park = d.addr ∧ ((s.directlyRetired c d).walker c).link = d.link := by
  have htaken := s.walker_directlyTaken c d
  have hhalt (k : HaltCause) : (((s.directlyTaken c d).haltWalker c k).walker c).park = d.addr ∧
      (((s.directlyTaken c d).haltWalker c k).walker c).link = d.link := by
    obtain ⟨hpark, hlink⟩ := (s.directlyTaken c d).park_haltWalker c k
    rw [hpark, hlink, htaken]
    exact ⟨rfl, rfl⟩
  rw [State.directlyRetired_eq]
  repeat' split
  · rw [htaken]
    exact ⟨rfl, rfl⟩
  · exact hhalt _
  · exact hhalt _
  · rw [State.park_followLink, State.link_followLink, htaken]
    exact ⟨rfl, rfl⟩

/-- Settles O27. -/
theorem directRetirement : Obligations.DirectRetirement := by
  unfold Obligations.DirectRetirement
  intro s c d last hlow hrun hfault hcut hstate hwork
  have hexec (l ok : Bool) : exec (.fetchFailWriteDone c l ok) s = .next (fetchFailWriteDoneEffect c l ok s) :=
    endOfAccess_of_live hlow hcut _
  have hfatal : s.fatal = false := by
    unfold State.fatal
    rw [hrun]
    rfl
  have hout : ¬ ((s.walker c).state = .halted ∨ (s.walker c).state = .idle) := by
    rw [hstate]
    rintro (h | h) <;> cases h
  have htaken := s.walker_directlyTaken c d
  obtain ⟨hengine, hsettings, -, -⟩ := s.directlyTaken_fields c d
  have hrun' := hengine.trans hrun
  have hhalted' : ((s.directlyTaken c d).walker c).state ≠ .halted := by
    rw [htaken]
    exact fun h => hout (.inl h)
  refine ⟨⟨_, State.mem_accesses_of_walker (c := c) ?_, retirementWrite_write d.addr d.results⟩, fun hstage => ⟨?_, ?_⟩,
    fun hstage => ?_, ?_⟩
  · rw [hwork]
    exact List.mem_singleton.2 rfl
  · rw [hexec]
    unfold fetchFailWriteDoneEffect
    rw [hwork]
    dsimp only
    rw [hstage, hfatal]
    rfl
  · rw [hexec]
    unfold fetchFailWriteDoneEffect
    rw [hwork]
    dsimp only
    rw [hstage, hfatal]
    rfl
  · have heffect : fetchFailWriteDoneEffect c last true s = finish s (s.directlyRetired c d) := by
      unfold fetchFailWriteDoneEffect
      rw [hwork]
      dsimp only
      rw [hstage]
      rfl
    have hend := finish_frame s (s.directlyRetired c d)
    obtain ⟨hpark, hlink⟩ := s.directlyRetired_link c d
    refine ⟨_, (hexec last true).trans (congrArg _ heffect), by rw [hend.walker, hpark], by rw [hend.walker, hlink],
      by rw [hend.jobNotice, State.directlyRetired_notice], fun hcheck => ?_, fun hcheck hhalt => ?_,
      fun hcheck hhalt hzero => ?_, fun hcheck hhalt hzero halign hpermits => ?_⟩
    · rw [hend.walker, State.directlyRetired_eq, if_neg hout, if_pos hcheck, State.walker_haltWalker hrun' hhalted']
      exact ⟨rfl, rfl⟩
    · rw [hend.walker, State.directlyRetired_eq, if_neg hout, if_neg hcheck, if_pos hhalt,
        State.walker_haltWalker hrun' hhalted']
      exact ⟨rfl, rfl⟩
    · rw [hend.walker, State.directlyRetired_eq, if_neg hout, if_neg hcheck, hhalt, if_neg Bool.false_ne_true, hzero,
        State.walker_followLink_zero]
    · have hone : (s.directlyTaken c d).check1 d.link = true := by
        rw [State.check1_of_settings hsettings]
        exact State.check1_iff.2 ⟨halign, hpermits⟩
      rw [hend.walker, State.directlyRetired_eq, if_neg hout, if_neg hcheck, hhalt, if_neg Bool.false_ne_true,
        State.walker_followLink hzero hone]
      exact ⟨rfl, rfl⟩
  · have heffect : fetchFailWriteDoneEffect c last false s = finish s ((s.endWork c).fatalFault .resultWriteError) := by
      unfold fetchFailWriteDoneEffect
      rw [hwork]
      rfl
    have hend := finish_frame s ((s.endWork c).fatalFault .resultWriteError)
    have hf : (s.endWork c).fault = .none := (frame_endWork s c).fault.trans hfault
    have he : (s.endWork c).engine = .running := (State.engine_endWork s c).trans hrun
    obtain ⟨hstop, hcode⟩ := State.mode_fatalFault (f := .resultWriteError) hf (.inl he)
    refine ⟨_, (hexec last false).trans (congrArg _ heffect), hend.engine.trans hstop, hend.fault.trans hcode,
      hend.engineNotice.trans (State.notice_fatalFault hf (.inl he)).1, ?_, fun e => ?_⟩
    · rw [hend.walker, State.walker_fatalFault hf he, State.walker_endWork]
      rfl
    · rw [hend.walker, State.walker_fatalFault hf he]
      rfl

end Sys2Proof.Machine
end

section
/-! A slot freed by a state word (R43, R61, R63), and walkers out of FETCHING: O28 (R55, R63 to R65, R67). -/

namespace Sys2Proof.Machine

/-! ## A slot freed -/

section
variable (s : State) (i : SlotNum)

theorem State.walker_offerSlot (c : Chain) : (s.offerSlot i).walker c =
    if s.mayUse c = true then (s.walker c).modOffers (· ++ [i]) else s.walker c := by
  have hoffer : s.offerSlot i = if s.mayUse .normal = true then
      (s.modWalker .priority (Walker.modOffers (· ++ [i]))).modWalker .normal (Walker.modOffers (· ++ [i]))
      else s.modWalker .priority (Walker.modOffers (· ++ [i])) := rfl
  rw [hoffer]
  cases c with
  | normal => split <;> rfl
  | priority =>
    rw [if_pos (show s.mayUse .priority = true from rfl)]
    split <;> rfl

/-- The slot freed and offered, with JOB raised when the descriptor has NOTIFY. -/
def State.freed (s : State) (i : SlotNum) (notify : Bool) : State :=
  let u := (s.setSlot i .free).offerSlot i
  if notify then u.raise .job else u

theorem State.retired_eq (j : Job) (r : Retirement) : s.retired i j r =
    if r.terminal = .failed ∧ j.haltOnFail = true then (s.freed i j.notify).haltWalker j.chain .jobFailed
    else s.freed i j.notify := rfl

theorem State.freed_cases (b : Bool) : (s.freed i b).fixed = s.fixed ∧ (s.freed i b).tiles = s.tiles ∧
    (s.freed i b).slots = (s.setSlot i .free).slots ∧ (s.freed i b).notice = { s.notice with job := s.notice.job || b } ∧
    ∀ c, (s.freed i b).walker c = ((s.setSlot i .free).offerSlot i).walker c := by
  have hoffered : ((s.setSlot i .free).offerSlot i).tiles = s.tiles ∧
      ((s.setSlot i .free).offerSlot i).notice = s.notice := by
    unfold State.offerSlot
    dsimp only
    repeat' split
    all_goals exact ⟨rfl, rfl⟩
  have hfixed : ((s.setSlot i .free).offerSlot i).fixed = s.fixed := by simp
  have hslots := (s.setSlot i .free).slots_offerSlot i
  unfold State.freed
  dsimp only
  generalize (s.setSlot i .free).offerSlot i = u at hoffered hfixed hslots ⊢
  cases b with
  | true => exact ⟨hfixed, hoffered.1, hslots, by
      rw [Bool.or_true]
      show u.notice.raise .job = _
      rw [hoffered.2]
      rfl, fun c => by cases c <;> rfl⟩
  | false => exact ⟨hfixed, hoffered.1, hslots, by
      rw [Bool.or_false]
      exact hoffered.2, fun c => rfl⟩

variable {s i}

theorem State.walker_freed_held {c : Chain} {d : Fetched} {o : List SlotNum} (h : (s.walker c).work = .held d o) (b : Bool) :
    (s.freed i b).walker c = { s.walker c with
      work := .held d (if (s.setSlot i .free).mayUse c = true then o ++ [i] else o) } := by
  have hw : (s.setSlot i .free).walker c = s.walker c := by cases c <;> rfl
  rw [(s.freed_cases i b).2.2.2.2, State.walker_offerSlot, hw, Walker.modOffers_eq]
  split
  · rw [h]
  · rw [← h]

theorem State.walker_freed_not_held {c : Chain} (h : ∀ d o, (s.walker c).work ≠ .held d o) (b : Bool) :
    (s.freed i b).walker c = s.walker c := by
  have hw : (s.setSlot i .free).walker c = s.walker c := by cases c <;> rfl
  rw [(s.freed_cases i b).2.2.2.2, State.walker_offerSlot, hw]
  split
  · unfold Walker.modOffers
    split
    · next d o hd => exact absurd hd (h d o)
    · rfl
  · rfl

end

/-! ## Halts -/

/-- A halt retires a held descriptor (R64, R65). -/
theorem Walker.halt_held {w : Walker} {d : Fetched} {o : List SlotNum} (h : w.work = .held d o) (now : Word) (k : HaltCause) :
    HeldRetired d (decide (k = .aborted)) now (w.halt now k).work := by
  refine ⟨d.retire (haltedResults k now), ?_, rfl, rfl, rfl, rfl, ?_, ?_, rfl, rfl, rfl, rfl, rfl, rfl, rfl⟩
  · unfold Walker.halt
    dsimp only
    rw [h]
  · show (if k = .aborted then Terminal.aborted else .skipped) = _
    split <;> simp_all
  · show (if k = .aborted then some ErrorCode.aborted else none) = _
    split <;> simp_all

theorem State.walker_abortCommand {s : State} {c : Chain} (hrun : s.engine = .running) (d : Chain) :
    (s.abortCommand c).walker d = (s.haltWalker c .aborted).walker d := by
  have h : s.abortCommand c = finish s ((s.haltWalker c .aborted).abortChain c) :=
    if_pos (by rw [State.inRunning, hrun]; rfl)
  rw [h, (finish_frame _ _).walker, State.walker_of_body (State.body_abortChain _ _)]

theorem State.endWork_haltWalker_halted {s : State} {c : Chain} (h : (s.walker c).state = .halted) (k : HaltCause) :
    (s.endWork c).haltWalker c k = s.endWork c :=
  State.haltWalker_eq_self _ c (.inr (by rw [State.walker_endWork]; exact h))

/-- The end of a read, or of the work, of a walker at the end of an event. -/
theorem walker_finish_endWork (before s : State) (c : Chain) :
    (finish before (s.endWork c)).walker c = { s.walker c with work := .none } ∧
      (finish before (s.endWork c)).notice.chain = s.notice.chain := by
  have hend := finish_frame before (s.endWork c)
  refine ⟨by rw [hend.walker, State.walker_endWork], ?_⟩
  rw [hend.chain]
  cases c <;> rfl

/-- Settles O28. -/
theorem walkersOutOfFetching : Obligations.WalkersOutOfFetching := by
  unfold Obligations.WalkersOutOfFetching
  intro s c a h r hlow hcuts
  have hcut {b : AccessId} (hb : b = .header c ∨ b = .stepRecords c ∨ b = .rescan c ∨ b = .directRetirement c) :
      s.accessCut b = false := State.accessCut_eq_false.2 fun v hv hid => by
    obtain ⟨h1, h2, h3, h4⟩ := hcuts v hv
    rcases hb with rfl | rfl | rfl | rfl
    exacts [h1 hid, h2 hid, h3 hid, h4 hid]
  have hheader : exec (.headerReadDone c r) s = .next (headerReadDoneEffect c r s) :=
    endOfAccess_of_live hlow (hcut (.inl rfl)) _
  have hsteps : exec (.stepReadDone c r) s = .next (stepReadDoneEffect c r s) :=
    endOfAccess_of_live hlow (hcut (.inr (.inl rfl))) _
  have hrescan : exec (.rescanReadDone c r) s = .next (rescanReadDoneEffect c r s) :=
    endOfAccess_of_live hlow (hcut (.inr (.inr (.inl rfl)))) _
  have hended := walker_finish_endWork s s c
  refine ⟨fun hblocked hrun d o hheld => ⟨?_, fun i j rt hword hj hchain hhalt hphase hstage hfailed => ?_⟩,
    fun hidle => ⟨fun hw => ?_, fun hw => ?_, fun hw => ?_⟩, fun hhalted => ⟨fun hw hr => ?_, fun hw => ⟨fun hr => ?_,
      fun bs ps hr hsum hsteps' => ?_⟩⟩, fun hout d last hw hstage => ?_⟩
  · have hne : (s.walker c).state ≠ .halted := by rw [hblocked]; exact WalkerState.noConfusion
    have hhalts : ((s.abortCommand c).walker c).state = .halted ∧ ((s.abortCommand c).walker c).cause = .aborted ∧
        HeldRetired d true s.now ((s.abortCommand c).walker c).work := by
      rw [State.walker_abortCommand hrun, State.walker_haltWalker hrun hne]
      exact ⟨rfl, rfl, Walker.halt_held hheld s.now .aborted⟩
    cases c
    · exact ⟨s.abortCommand .normal, exec_of_high hlow rfl, hhalts⟩
    · exact ⟨s.abortCommand .priority, exec_of_high hlow rfl, hhalts⟩
  · subst hchain
    have heffect : stateWordWriteDoneEffect i true s = finish s (s.retired i j rt) := by
      unfold stateWordWriteDoneEffect
      rw [hj]
      dsimp only
      rw [hphase]
      dsimp only
      rw [hstage]
      rfl
    have hexec : exec (.stateWordWriteDone i true) s = .next (stateWordWriteDoneEffect i true s) :=
      endOfAccess_of_live hlow hword _
    rw [heffect] at hexec
    obtain ⟨hfixed, -⟩ := s.freed_cases i j.notify
    have hwalker := State.walker_freed_held hheld (i := i) j.notify
    have hne : ((s.freed i j.notify).walker j.chain).state ≠ .halted := by
      rw [hwalker, hblocked]
      exact WalkerState.noConfusion
    have hhalts := State.walker_haltWalker (k := .jobFailed) ((State.engine_of_fixed hfixed).trans hrun) hne
    have hretire := Walker.halt_held (congrArg Walker.work hwalker) s.now .jobFailed
    refine ⟨_, hexec, ?_⟩
    rw [(finish_frame _ _).walker, State.retired_eq, if_pos ⟨hfailed, hhalt⟩, hhalts, State.now_of_fixed hfixed]
    exact ⟨rfl, rfl, hretire⟩
  · refine ⟨_, hheader, ?_⟩
    unfold headerReadDoneEffect
    rcases hw with hw | hw
    · rw [hw]
      have hfetch : s.fetchHeader c a r = s.endWork c := by
        unfold State.fetchHeader
        rw [hidle]
      dsimp only
      rw [hfetch]
      exact hended.1
    · rw [hw]
      have hfetch : s.rescanHeader c a r = s.endWork c := by
        unfold State.rescanHeader
        rw [hidle]
      dsimp only
      rw [hfetch]
      exact hended.1
  · have hfetch : s.fetchSteps c a h r = s.endWork c := by
      unfold State.fetchSteps
      rw [hidle]
    refine ⟨_, hsteps, ?_⟩
    unfold stepReadDoneEffect
    rw [hw]
    dsimp only
    rw [hfetch]
    exact hended.1
  · have hfetch : s.rescanValue c r = s.endWork c := by
      unfold State.rescanValue
      rw [hidle]
    refine ⟨_, hrescan, ?_⟩
    unfold rescanReadDoneEffect
    rw [hw]
    dsimp only
    rw [hfetch]
    exact hended.1
  · have hfetch : s.fetchHeader c a r = s.endWork c := by
      unfold State.fetchHeader
      rw [hhalted]
      rcases hr with rfl | ⟨bs, rfl, hready⟩
      · exact State.endWork_haltWalker_halted hhalted _
      · dsimp only
        rw [if_neg (show ¬ headerState bs = readyWord from hready)]
        rfl
    refine ⟨_, hheader, ?_⟩
    unfold headerReadDoneEffect
    rw [hw]
    dsimp only
    rw [hfetch]
    exact hended
  · have hfetch : s.fetchSteps c a h r = s.endWork c := by
      rw [hr, State.fetchSteps_busError a h (by rw [hhalted]; exact WalkerState.noConfusion)]
      exact State.endWork_haltWalker_halted hhalted _
    refine ⟨_, hsteps, ?_⟩
    unfold stepReadDoneEffect
    rw [hw]
    dsimp only
    rw [hfetch]
    exact hended
  · have hfetch : s.fetchSteps c a h r = s.modWalker c fun w => { w with
        work := .retire ((fetchedOf a h ps).retire (haltedResults w.cause w.haltTime)) } := by
      rw [hr, State.fetchSteps_eq a h bs (by rw [hhalted]; exact WalkerState.noConfusion), hsteps', if_neg (not_not.2 (show checkSum h bs = headerCheck h from hsum))]
      exact if_pos hhalted
    have heffect : stepReadDoneEffect c r s = finish s (s.fetchSteps c a h r) := by
      unfold stepReadDoneEffect
      rw [hw]
    rw [heffect, hfetch] at hsteps
    have hend := finish_frame s (s.modWalker c fun w => { w with
        work := .retire ((fetchedOf a h ps).retire (haltedResults w.cause w.haltTime)) })
    refine ⟨_, (fetchedOf a h ps).retire (haltedResults (s.walker c).cause (s.walker c).haltTime), hsteps, ?_, rfl, rfl, rfl,
      fun i => ?_⟩
    · rw [hend.walker, State.walker_modWalker]
    · have hslot : (s.modWalker c fun w => { w with
          work := .retire ((fetchedOf a h ps).retire (haltedResults w.cause w.haltTime)) }).slot i = s.slot i := by simp
      cases hj : s.job i with
      | some j => exact .inr ⟨j, rfl⟩
      | none => exact .inl ((hend.empty i (by rw [hslot]; exact hj)).trans hslot)
  · have heffect : fetchFailWriteDoneEffect c last true s = finish s (s.directlyTaken c d) := by
      have hretired : s.directlyRetired c d = s.directlyTaken c d := if_pos hout
      unfold fetchFailWriteDoneEffect
      rw [hw]
      dsimp only
      rw [hstage, hretired]
      rfl
    have hexec : exec (.fetchFailWriteDone c last true) s = .next (fetchFailWriteDoneEffect c last true s) :=
      endOfAccess_of_live hlow (hcut (.inr (.inr (.inr rfl)))) _
    rw [heffect] at hexec
    have hend := finish_frame s (s.directlyTaken c d)
    obtain ⟨-, -, hjob, hchain⟩ := s.directlyTaken_fields c d
    exact ⟨_, hexec, by rw [hend.walker, State.walker_directlyTaken], by rw [hend.jobNotice, hjob],
      by rw [hend.chain, hchain]⟩

end Sys2Proof.Machine
end

section
/-! The TAKEN write: O26 (R22, R27, R44, R56, R57, R62, R64, R65, R67, R174). -/

namespace Sys2Proof.Machine

/-! ## Jobs that keep what they were taken with -/

/-- A slot with its job's lasting part as before has its job still. -/
theorem Slot.job_of_erase {v w : Slot} {j : Job} (h : w.erase = v.erase) (hj : v.job? = some j) :
    ∃ j', w.job? = some j' ∧ j'.idn = j.idn := by
  cases v with
  | job k =>
    obtain rfl : k = j := Option.some.inj hj
    cases w with
    | job l => exact ⟨l, rfl, Slot.job.inj h⟩
    | free => cases h
    | claimed c => cases h
  | free => cases hj
  | claimed c => cases hj

section
variable {s t : State} {i : SlotNum} {j : Job}

theorem JobFrame.taken (h : JobFrame s t) (hfatal : s.fatal = false) (hj : s.job i = some j) :
    ∃ j', t.job i = some j' ∧ j'.idn = j.idn := Slot.job_of_erase (h.slot hfatal i) hj

theorem EventFrame.taken (h : EventFrame s t) (hfatal : s.fatal = false) (hj : s.job i = some j) :
    ∃ j', t.job i = some j' ∧ j'.idn = j.idn := Slot.job_of_erase (h.slot hfatal i) hj

end

theorem Job.idn_of_still {j k : Job} (h : k.still = j.still) : k.idn = j.idn := (congrArg Job.idn h :)

theorem JobMove.not_queued {j k : Job} (hj : j.phase ≠ .queued) (h : JobMove j k) : k.phase ≠ .queued := by
  cases h
  case drain => exact Phase.noConfusion
  case retire => exact Phase.noConfusion
  case nextWrite => exact Phase.noConfusion
  all_goals exact hj

theorem State.fatal_of_running {s : State} (h : s.engine = .running) : s.fatal = false := by
  unfold State.fatal
  rw [h]
  rfl

/-! ## The job enters its slot (R22, R27) -/

section
variable (s : State) (c : Chain) (d : Fetched) (i : SlotNum)

/-- PARKx and the link are the descriptor's, and the walker's work is over. -/
def State.takenOver (s : State) (c : Chain) (d : Fetched) : State :=
  s.modWalker c fun w => { w with park := d.addr, link := d.link, work := .none }

/-- The state with the descriptor's job in slot `i`. -/
def State.entered (s : State) (c : Chain) (d : Fetched) (i : SlotNum) : State := (s.takenOver c d).enterSlot c d i

theorem State.taken_eq : s.taken c d i =
    if s.fatal then (s.takenOver c d).setSlot i .free
    else match (s.walker c).state with
      | .halted => if (s.walker c).cause = .aborted then (s.entered c d i).abortJob i
          else (s.entered c d i).enterRetiring i .skipped
      | .idle => (s.entered c d i).abortJob i
      | _ => (if (s.entered c d i).admissible i then (s.entered c d i).admitJob i else s.entered c d i).followLink c d.link :=
  rfl

theorem State.fixed_entered : (s.entered c d i).fixed = s.fixed := by
  unfold State.entered State.takenOver
  rw [State.fixed_enterSlot, State.fixed_modWalker]

theorem State.walker_takenOver :
    (s.takenOver c d).walker c = { s.walker c with park := d.addr, link := d.link, work := .none } := s.walker_modWalker c _

theorem State.walker_entered :
    (s.entered c d i).walker c = { s.walker c with park := d.addr, link := d.link, work := .none } := by
  refine Eq.trans ?_ (s.walker_takenOver c d)
  cases c <;> rfl

theorem State.nextOrder_entered : (s.entered c d i).nextOrder = s.nextOrder + 1 := by
  have h : (s.takenOver c d).nextOrder = s.nextOrder := by simp [State.takenOver]
  exact congrArg (· + 1) h

theorem State.slot_entered (k : SlotNum) :
    (s.entered c d i).slot k = if i = k then .job (d.job c s.nextOrder) else s.slot k := by
  have h : (s.takenOver c d).nextOrder = s.nextOrder := by simp [State.takenOver]
  have hslot : (s.takenOver c d).slot k = s.slot k := by simp [State.takenOver]
  rw [← h, ← hslot]
  exact (s.takenOver c d).slot_setSlot i k (.job (d.job c (s.takenOver c d).nextOrder))

theorem State.job_entered : (s.entered c d i).job i = some (d.job c s.nextOrder) := by
  rw [State.job, State.slot_entered, if_pos rfl]
  rfl

theorem State.job_entered_ne {k : SlotNum} (h : k ≠ i) : (s.entered c d i).job k = s.job k := by
  rw [State.job, State.slot_entered, if_neg h.symm]
  rfl

/-- An older job of the chain bars the job from admission (R62). -/
def State.Blocked (s : State) (c : Chain) (d : Fetched) (i : SlotNum) : Prop :=
  ∃ k m, k ≠ i ∧ s.job k = some m ∧ m.chain = c ∧ m.order < s.nextOrder ∧ m.phase.isRetiring = false ∧
    m.tiles &&& unionTiles d.steps ≠ 0

theorem State.admissible_entered (hrun : s.engine = .running) :
    (s.entered c d i).admissible i = true ↔ ¬ s.Blocked c d i := by
  have hengine := State.inRunning_of_fixed (s.fixed_entered c d i)
  have hin : s.inRunning = true := by rw [State.inRunning, hrun]; rfl
  have hblocks (m : Job) : (d.job c s.nextOrder).blockedBy m = true ↔ m.chain = c ∧ m.order < s.nextOrder ∧
      m.phase.isRetiring = false ∧ m.tiles &&& unionTiles d.steps ≠ 0 := by
    unfold Job.blockedBy
    simp only [Bool.and_eq_true, decide_eq_true_eq, Bool.not_eq_true', and_assoc]
    rfl
  unfold State.admissible
  rw [State.job_entered]
  dsimp only
  rw [hengine, hin, show (d.job c s.nextOrder).phase.isQueued = true from rfl]
  simp only [Bool.true_and, List.all_eq_true]
  constructor
  · rintro hall ⟨k, m, hk, hm, hbar⟩
    have hfree := hall k (mem_allSlots k)
    rw [s.job_entered_ne c d i hk, hm] at hfree
    dsimp only at hfree
    rw [(hblocks m).2 hbar] at hfree
    cases hfree
  · intro hnot k _
    by_cases hk : k = i
    · subst hk
      rw [State.job_entered]
      dsimp only
      cases hb : (d.job c s.nextOrder).blockedBy (d.job c s.nextOrder)
      · rfl
      · exact absurd ((hblocks _).1 hb).2.1 (Nat.lt_irrefl _)
    · rw [s.job_entered_ne c d i hk]
      cases hm : s.job k with
      | none => rfl
      | some m =>
        dsimp only
        cases hb : (d.job c s.nextOrder).blockedBy m
        · rfl
        · exact absurd ⟨k, m, hk, hm, (hblocks m).1 hb⟩ hnot

end

/-! ## Admission (R62) -/

section
variable {s : State} {i : SlotNum}

/-- The state with the job in slot `i` RUNNING, before its step becomes current. -/
def State.started (s : State) (i : SlotNum) : State := s.modJob i fun j => { j with phase := .running, startedAt := s.now }

theorem admitJob_frame (s : State) (i : SlotNum) : JobFrame (s.started i) (s.admitJob i) := State.stepCurrent_frame _ i

theorem State.job_started {j : Job} (hj : s.job i = some j) :
    (s.started i).job i = some { j with phase := .running, startedAt := s.now } := by
  rw [State.started, State.job_modJob, if_pos rfl, hj]
  rfl

theorem State.walker_admitJob (s : State) (i : SlotNum) (c : Chain) : (s.admitJob i).walker c = s.walker c := by
  rw [(admitJob_frame s i).walker]
  cases c <;> simp [State.started, State.walker]

theorem State.nextOrder_admitJob (s : State) (i : SlotNum) : (s.admitJob i).nextOrder = s.nextOrder := by
  rw [(admitJob_frame s i).nextOrder]
  simp [State.started]

/-- An admitted job is no longer QUEUED, started now, and otherwise as it was taken. -/
theorem State.job_admitJob (hfatal : s.fatal = false) {j : Job} (hj : s.job i = some j) :
    ∃ j', (s.admitJob i).job i = some j' ∧ j'.phase ≠ .queued ∧ j'.idn = { j with startedAt := s.now }.idn := by
  have hfatal' : (s.started i).fatal = false := (s.fatal_modJob i _).trans hfatal
  obtain ⟨j', hj', hidn⟩ := (admitJob_frame s i).taken hfatal' (State.job_started hj)
  obtain ⟨k, hk, hmoves⟩ := moves_stepCurrent (s.started i) i i j' hj'
  rw [State.job_started hj] at hk
  obtain rfl := Option.some.inj hk
  exact ⟨j', hj', hmoves.keeps (P := fun j => j.phase ≠ .queued) (fun _ _ => JobMove.not_queued) Phase.noConfusion, hidn⟩

end

/-! ## A walker that halted meanwhile (R64, R65, R67) -/

section
variable {s : State} {c : Chain} (d : Fetched) (i : SlotNum)

theorem State.job_abort_entered (hfatal : s.fatal = false) :
    ∃ j r, ((s.entered c d i).abortJob i).job i = some j ∧ j.addr = d.addr ∧ j.order = s.nextOrder ∧
      j.phase = .retiring r ∧ r.stepsDone = 0 ∧ r.terminal = .aborted := by
  have hfatal' := (State.fatal_of_fixed (s.fixed_entered c d i)).trans hfatal
  have hslot : (s.entered c d i).slot i = .job (d.job c s.nextOrder) := by rw [State.slot_entered, if_pos rfl]
  refine ⟨{ d.job c s.nextOrder with
      abortRequested := true, phase := .retiring ((d.job c s.nextOrder).results .abortedQueued (s.entered c d i).now),
      parts := [], pauseDue := none, engineDone := false },
    (d.job c s.nextOrder).results .abortedQueued (s.entered c d i).now, ?_, rfl, rfl, rfl, rfl, rfl⟩
  rw [State.job, State.slot_abortJob, if_pos rfl, hslot, Slot.abort_queued rfl, hfatal', if_neg Bool.false_ne_true]
  rfl

theorem State.job_skip_entered (hfatal : s.fatal = false) :
    ∃ j r, ((s.entered c d i).enterRetiring i .skipped).job i = some j ∧ j.addr = d.addr ∧ j.order = s.nextOrder ∧
      j.phase = .retiring r ∧ r.stepsDone = 0 ∧ r.terminal = .skipped := by
  have hfatal' := (State.fatal_of_fixed (s.fixed_entered c d i)).trans hfatal
  refine ⟨(d.job c s.nextOrder).retire .skipped (s.entered c d i).now,
    (d.job c s.nextOrder).results .skipped (s.entered c d i).now, ?_, rfl, rfl, rfl, rfl, rfl⟩
  rw [State.enterRetiring_of_not_fatal (s.job_entered c d i) hfatal', State.job_setSlot, if_pos rfl]
  rfl

/-- What is left of a descriptor whose walker stands HALTED or IDLE at the end of its TAKEN write. -/
theorem State.taken_out (hfatal : s.fatal = false) (hout : (s.walker c).state = .halted ∨ (s.walker c).state = .idle) :
    (∃ j r, (s.taken c d i).job i = some j ∧ j.addr = d.addr ∧ j.order = s.nextOrder ∧ j.phase = .retiring r ∧
      r.stepsDone = 0 ∧ r.terminal = (if (s.walker c).state = .idle ∨ (s.walker c).cause = .aborted then .aborted
        else .skipped)) ∧
    (s.taken c d i).walker c = { s.walker c with park := d.addr, link := d.link, work := .none } := by
  have hwalker := s.walker_entered c d i
  have hskip := State.job_skip_entered (c := c) d i hfatal
  have habort := State.job_abort_entered (c := c) d i hfatal
  have hskipped : ((s.entered c d i).enterRetiring i .skipped).walker c = (s.entered c d i).walker c :=
    State.walker_of_body (State.body_enterRetiring _ i _) c
  have haborted : ((s.entered c d i).abortJob i).walker c = (s.entered c d i).walker c :=
    State.walker_of_body (State.body_abortJob _ i) c
  have htaken := s.taken_eq c d i
  rw [hfatal, if_neg Bool.false_ne_true] at htaken
  rcases hout with hstate | hstate
  · by_cases hcause : (s.walker c).cause = .aborted
    · have habortJob : s.taken c d i = (s.entered c d i).abortJob i := by
        rw [htaken, hstate]
        exact if_pos hcause
      rw [if_pos (.inr hcause), habortJob]
      exact ⟨habort, haborted.trans hwalker⟩
    · have hskipJob : s.taken c d i = (s.entered c d i).enterRetiring i .skipped := by
        rw [htaken, hstate]
        exact if_neg hcause
      rw [if_neg (by rintro (h | h); exacts [WalkerState.noConfusion (hstate.symm.trans h), hcause h]), hskipJob]
      exact ⟨hskip, hskipped.trans hwalker⟩
  · have habortJob : s.taken c d i = (s.entered c d i).abortJob i := by rw [htaken, hstate]
    rw [if_pos (.inl hstate), habortJob]
    exact ⟨habort, haborted.trans hwalker⟩

end

/-! ## A walker that goes on (R57, R62) -/

section
variable {s : State} {c : Chain} (d : Fetched) (i : SlotNum)

/-- The state with the descriptor's job in its slot and admitted where nothing bars it. -/
def State.enteredAndAdmitted (s : State) (c : Chain) (d : Fetched) (i : SlotNum) : State :=
  if (s.entered c d i).admissible i then (s.entered c d i).admitJob i else s.entered c d i

theorem State.taken_of_fetching (hfatal : s.fatal = false) (hstate : (s.walker c).state = .fetching) :
    s.taken c d i = (s.enteredAndAdmitted c d i).followLink c d.link := by
  rw [State.taken_eq, hfatal, hstate]
  rfl

/-- What the entry and the admission leave: engine, settings, time, the walker, and the job as it was taken. -/
theorem State.enteredAndAdmitted_spec (hrun : s.engine = .running) :
    (s.enteredAndAdmitted c d i).fixed = s.fixed ∧
    (s.enteredAndAdmitted c d i).walker c = { s.walker c with park := d.addr, link := d.link, work := .none } ∧
    (s.enteredAndAdmitted c d i).nextOrder = s.nextOrder + 1 ∧
    (s.Blocked c d i → (s.enteredAndAdmitted c d i).job i = some (d.job c s.nextOrder)) ∧
    (¬ s.Blocked c d i → ∃ j, (s.enteredAndAdmitted c d i).job i = some j ∧ j.phase ≠ .queued ∧
      j.idn = { d.job c s.nextOrder with startedAt := s.now }.idn) := by
  have hfixed := s.fixed_entered c d i
  have hfatal := (State.fatal_of_fixed hfixed).trans (State.fatal_of_running hrun)
  have hadmissible := s.admissible_entered c d i hrun
  have hjob := s.job_entered c d i
  have hwalker := s.walker_entered c d i
  have hnext := s.nextOrder_entered c d i
  unfold State.enteredAndAdmitted
  generalize s.entered c d i = u at hfixed hfatal hadmissible hjob hwalker hnext ⊢
  by_cases hb : s.Blocked c d i
  · rw [if_neg (fun h => hadmissible.1 h hb)]
    exact ⟨hfixed, hwalker, hnext, fun _ => hjob, fun h => absurd hb h⟩
  · rw [if_pos (hadmissible.2 hb)]
    refine ⟨(u.fixed_admitJob i).trans hfixed, (u.walker_admitJob i c).trans hwalker, (u.nextOrder_admitJob i).trans hnext,
      fun h => absurd h hb, fun _ => ?_⟩
    obtain ⟨j, hj, hphase, hidn⟩ := State.job_admitJob hfatal hjob
    rw [State.now_of_fixed hfixed] at hidn
    exact ⟨j, hj, hphase, hidn⟩

end

/-! ## Following the link with the job in its slot -/

/-- What a job keeps from its taking to its end, its start apart. -/
def Job.core (j : Job) : Job := { j.idn with startedAt := 0 }

theorem Job.core_of_idn {j k : Job} (h : k.idn = j.idn) : k.core = j.core := congrArg (fun j => { j with startedAt := 0 }) h

/-- The fields that a taken job keeps are those its descriptor gave it (R22, R27). -/
theorem Fetched.job_fields {d : Fetched} {c : Chain} {n : Nat} {j : Job} (h : j.core = (d.job c n).core) :
    j.chain = c ∧ j.addr = d.addr ∧ j.order = n ∧ j.notify = d.notify ∧ j.haltOnFail = d.haltOnFail ∧ j.steps = d.steps ∧
    j.tiles = unionTiles d.steps ∧ j.outstanding = 0 ∧ j.abortRequested = false :=
  ⟨(congrArg Job.chain h :), (congrArg Job.addr h :), (congrArg Job.order h :), (congrArg Job.notify h :),
    (congrArg Job.haltOnFail h :), (congrArg Job.steps h :), (congrArg Job.tiles h :), (congrArg Job.outstanding h :),
    (congrArg Job.abortRequested h :)⟩

theorem WalkerFrame.taken {c : Chain} {s t : State} (h : WalkerFrame c s t) {i : SlotNum} {j : Job} (hj : s.job i = some j) :
    ∃ j', t.job i = some j' ∧ j'.idn = j.idn := by
  have hslot := State.slot_of_job hj
  rcases h.slots with h | h
  · exact ⟨j, by rw [State.job_of_slot (h i), hj], rfl⟩
  · have ht := h i
    rw [hslot, Slot.skip_job] at ht
    split at ht
    · exact ⟨j.retire .skipped s.now, by rw [State.job, ht]; rfl, rfl⟩
    · exact ⟨j, by rw [State.job, ht]; rfl, rfl⟩

theorem State.slot_followLink {s : State} {c : Chain} {a : Word} (h : a = 0 ∨ s.check1 a = true) (i : SlotNum) :
    (s.followLink c a).slot i = s.slot i := by
  unfold State.followLink State.beginFetch State.parkWalker
  split
  · simp
  · next hne =>
    rw [if_pos (h.resolve_left hne)]
    simp

theorem State.slot_followLink_bad {s : State} {c : Chain} {a : Word} (hrun : s.engine = .running)
    (hstate : (s.walker c).state ≠ .halted) (hne : a ≠ 0) (h : s.check1 a = false) (i : SlotNum) :
    (s.followLink c a).slot i = (s.slot i).skip c s.now := by
  rw [State.followLink_bad hne h, State.slot_endWork_halt HaltCause.noConfusion hrun hstate]

section
variable {s : State} {c : Chain} {d : Fetched} {i : SlotNum}

/-- The job of a descriptor that its FETCHING walker has taken, at the end of the event (R22, R27, R62, R64). -/
theorem job_finish_taken (hrun : s.engine = .running) (hstate : (s.walker c).state = .fetching) :
    ∃ j, (finish s (s.taken c d i)).job i = some j ∧ j.core = (d.job c s.nextOrder).core ∧
      (d.link = 0 ∨ s.check1 d.link = true → s.Blocked c d i → j.phase = .queued) ∧
      (d.link = 0 ∨ s.check1 d.link = true → ¬ s.Blocked c d i → j.phase ≠ .queued ∧ j.startedAt = s.now) ∧
      (d.link ≠ 0 → s.check1 d.link = false → s.Blocked c d i → ∃ r, j.phase = .retiring r ∧ r.terminal = .skipped) := by
  obtain ⟨hfixed, hwalker, -, hbar, hgo⟩ := State.enteredAndAdmitted_spec (c := c) d i hrun
  rw [State.taken_of_fetching d i (State.fatal_of_running hrun) hstate]
  generalize s.enteredAndAdmitted c d i = v at hfixed hwalker hbar hgo ⊢
  have hengine := (State.engine_of_fixed hfixed).trans hrun
  have hhalted : (v.walker c).state ≠ .halted := by
    rw [hwalker]
    exact fun h => WalkerState.noConfusion (hstate.symm.trans h)
  have hcheck : v.check1 d.link = s.check1 d.link := State.check1_of_settings (State.settings_of_fixed hfixed) _
  obtain ⟨jv, hjv, hcore⟩ : ∃ j, v.job i = some j ∧ j.core = (d.job c s.nextOrder).core := by
    by_cases hb : s.Blocked c d i
    · exact ⟨_, hbar hb, rfl⟩
    · obtain ⟨j, hj, -, hidn⟩ := hgo hb
      exact ⟨j, hj, (Job.core_of_idn hidn).trans rfl⟩
  have hframe := frame_followLink v c d.link
  have hfatal := State.fatal_of_running (hframe.engine.trans hengine)
  have hend := finish_frame s (v.followLink c d.link)
  obtain ⟨ju, hju, hidnu⟩ := hframe.taken hjv
  obtain ⟨j, hj, hidn⟩ := hend.taken hfatal hju
  have hstays (h : d.link = 0 ∨ s.check1 d.link = true) : (v.followLink c d.link).job i = v.job i :=
    State.job_of_slot (State.slot_followLink (h.imp id fun h => hcheck.trans h) i)
  have hstill {k : Job} (hk : (v.followLink c d.link).job i = some k) (hrest : k.phase.isRunning = false) :
      j.phase = k.phase := by
    obtain ⟨l, hl, hsame⟩ := hend.job hk hrest
    rw [hj] at hl
    rw [Option.some.inj hl, Job.phase_of_still hsame]
  refine ⟨j, hj, (Job.core_of_idn (hidn.trans hidnu)).trans hcore, fun hfollows hb => ?_, fun hfollows hb => ?_,
    fun hne hbad hb => ?_⟩
  · exact hstill ((hstays hfollows).trans (hbar hb)) rfl
  · obtain ⟨k, hk, hphase, hkidn⟩ := hgo hb
    have hku := (hstays hfollows).trans hk
    obtain ⟨l, hl, hmoves⟩ := moves_finish s (v.followLink c d.link) i j hj
    rw [hku] at hl
    obtain rfl := Option.some.inj hl
    refine ⟨hmoves.keeps (P := fun j => j.phase ≠ .queued) (fun _ _ => JobMove.not_queued) hphase, ?_⟩
    obtain rfl : ju = k := Option.some.inj (hju.symm.trans hku)
    exact (congrArg Job.startedAt (hidn.trans hkidn) :)
  · have hslot : (v.followLink c d.link).slot i = .job ((d.job c s.nextOrder).retire .skipped v.now) := by
      rw [State.slot_followLink_bad hengine hhalted hne (hcheck.trans hbad), State.slot_of_job (hbar hb), Slot.skip_job]
      exact if_pos ⟨rfl, rfl⟩
    have hk : (v.followLink c d.link).job i = some ((d.job c s.nextOrder).retire .skipped v.now) := by
      rw [State.job, hslot]
      rfl
    exact ⟨_, hstill hk rfl, rfl⟩

/-- The walker that has taken a descriptor while FETCHING (R57). -/
theorem walker_taken (hrun : s.engine = .running) (hstate : (s.walker c).state = .fetching) :
    (s.taken c d i).engine = .running ∧ ((s.taken c d i).walker c).park = d.addr ∧
    ((s.taken c d i).walker c).link = d.link ∧ (s.taken c d i).nextOrder = s.nextOrder + 1 ∧
    (d.link = 0 → ((s.taken c d i).walker c).state = .parked ∧ ((s.taken c d i).walker c).work = .none) ∧
    (d.link ≠ 0 → s.check1 d.link = true →
      ((s.taken c d i).walker c).state = .fetching ∧ ((s.taken c d i).walker c).work = .readHeader d.link) ∧
    (d.link ≠ 0 → s.check1 d.link = false →
      ((s.taken c d i).walker c).state = .halted ∧ ((s.taken c d i).walker c).cause = .access) := by
  obtain ⟨hfixed, hwalker, hnext, -, -⟩ := State.enteredAndAdmitted_spec (c := c) d i hrun
  rw [State.taken_of_fetching d i (State.fatal_of_running hrun) hstate]
  generalize s.enteredAndAdmitted c d i = v at hfixed hwalker hnext ⊢
  have hengine := (State.engine_of_fixed hfixed).trans hrun
  have hhalted : (v.walker c).state ≠ .halted := by
    rw [hwalker]
    exact fun h => WalkerState.noConfusion (hstate.symm.trans h)
  have hcheck : v.check1 d.link = s.check1 d.link := State.check1_of_settings (State.settings_of_fixed hfixed) _
  have hframe := frame_followLink v c d.link
  refine ⟨hframe.engine.trans hengine, by rw [State.park_followLink, hwalker], by rw [State.link_followLink, hwalker],
    hframe.nextOrder.trans hnext, fun hzero => ?_, fun hne hgood => ?_, fun hne hbad => ?_⟩
  · rw [hzero, State.walker_followLink_zero]
    exact ⟨rfl, rfl⟩
  · rw [State.walker_followLink hne (hcheck.trans hgood)]
    exact ⟨rfl, rfl⟩
  · rw [State.followLink_bad hne (hcheck.trans hbad), State.walker_endWork_halt _ hengine hhalted]
    exact ⟨rfl, rfl⟩

end

/-- Settles O26. -/
theorem takenWritten : Obligations.TakenWritten := by
  unfold Obligations.TakenWritten
  intro s c d i hlow hcut hwork
  have hexec (ok : Bool) : exec (.takenWriteDone c ok) s = .next (takenWriteDoneEffect c ok s) :=
    endOfAccess_of_live hlow hcut _
  have hgood : takenWriteDoneEffect c true s = finish s (s.taken c d i) := by
    unfold takenWriteDoneEffect
    rw [hwork]
    rfl
  have hbad : takenWriteDoneEffect c false s = finish s (((s.endWork c).setSlot i .free).fatalFault .resultWriteError) := by
    unfold takenWriteDoneEffect
    rw [hwork]
    rfl
  have hdone := (hexec true).trans (congrArg _ hgood)
  have hend := finish_frame s (s.taken c d i)
  refine ⟨State.mem_accesses_of_walker (c := c) ?_, fun hfatal hout => ?_, fun hfatal => ?_, fun hrun hfault hstate => ⟨?_, ?_⟩⟩
  · rw [hwork]
    exact List.mem_singleton.2 rfl
  · obtain ⟨⟨j, r, hj, haddr, horder, hphase, hsteps, hterm⟩, hwalker⟩ := State.taken_out d i hfatal hout
    obtain ⟨j', hj', hstill⟩ := hend.job hj (by rw [hphase]; rfl)
    have hidn := Job.idn_of_still hstill
    refine ⟨_, j', r, hdone, hj', (congrArg Job.addr hidn :).trans haddr, (congrArg Job.order hidn :).trans horder,
      (Job.phase_of_still hstill).trans hphase, hsteps, ?_, ?_, ?_, ?_, hterm⟩
    all_goals rw [hend.walker, hwalker]
  · have htaken : s.taken c d i = (s.takenOver c d).setSlot i .free := by
      rw [State.taken_eq, hfatal]
      rfl
    have hfixed : (s.taken c d i).fixed = s.fixed := by simp
    have hslot : (s.taken c d i).slot i = .free := by rw [htaken, State.slot_setSlot, if_pos rfl]
    exact ⟨_, hdone, (hend.empty i (by rw [hslot]; rfl)).trans hslot, hend.engine.trans (State.engine_of_fixed hfixed),
      hend.fault.trans (State.fault_of_fixed hfixed)⟩
  · obtain ⟨j, hj, hcore, hqueued, hgone, hskipped⟩ := job_finish_taken (d := d) (i := i) hrun hstate
    obtain ⟨hengine, hpark, hlink, hnext, hzero, hfetch, hhalt⟩ := walker_taken (d := d) (i := i) hrun hstate
    obtain ⟨hchain, haddr, horder, hnotify, hhof, hsteps, htiles, hout, habort⟩ := Fetched.job_fields hcore
    have hfollows : (d.link = 0 ∨ (d.link.toNat % 16 = 0 ∧ s.settings.permits d.link.toNat 32 true true = true)) →
        d.link = 0 ∨ s.check1 d.link = true := Or.imp id State.check1_iff.2
    refine ⟨_, hdone, hend.engine.trans hengine, by rw [hend.walker, hpark], by rw [hend.walker, hlink],
      hend.nextOrder.trans hnext, ⟨j, hj, hchain, haddr, horder, hnotify, hhof, hsteps, htiles, hout, habort,
        fun hf hb => hqueued (hfollows hf) hb, fun hf hb => hgone (hfollows hf) hb, fun hf hb => ?_⟩, fun h => ?_,
      fun hne halign hpermits => ?_, fun h => ?_⟩
    · rw [not_or] at hf
      exact hskipped hf.1 (Bool.eq_false_iff.2 fun h => hf.2 (State.check1_iff.1 h)) hb
    · rw [hend.walker]
      exact hzero h
    · rw [hend.walker]
      exact hfetch hne (State.check1_iff.2 ⟨halign, hpermits⟩)
    · obtain ⟨hne, hfalse⟩ := State.check1_bad h
      rw [hend.walker]
      exact hhalt hne hfalse
  · have hdone' := (hexec false).trans (congrArg _ hbad)
    have hf : ((s.endWork c).setSlot i .free).fault = .none := (frame_endWork s c).fault.trans hfault
    have he : ((s.endWork c).setSlot i .free).engine = .running := (State.engine_endWork s c).trans hrun
    have hslot : ((s.endWork c).setSlot i .free).slot i = .free := by rw [State.slot_setSlot, if_pos rfl]
    have hw : ((s.endWork c).setSlot i .free).walker c = (s.endWork c).walker c := by cases c <;> rfl
    generalize (s.endWork c).setSlot i .free = u at hdone' hf he hslot hw
    obtain ⟨hstop, hcode⟩ := State.mode_fatalFault (f := .resultWriteError) hf (.inl he)
    have hfree := State.free_fatalFault (f := .resultWriteError) hf (.inl he) hslot
    have hend := finish_frame s (u.fatalFault .resultWriteError)
    refine ⟨_, hdone', hend.engine.trans hstop, hend.fault.trans hcode,
      hend.engineNotice.trans (State.notice_fatalFault hf (.inl he)).1, (hend.empty i (by rw [hfree]; rfl)).trans hfree,
      ?_, fun e => ?_⟩
    · rw [hend.walker, State.walker_fatalFault hf he, hw, State.walker_endWork]
      rfl
    · rw [hend.walker, State.walker_fatalFault hf he]
      rfl

end Sys2Proof.Machine
end

section
/-! Retirement from a slot: O33 (R42 to R44, R61, R63, R64, R174, R180), and drained jobs: O30 (R39, R41, R42, R44). -/

namespace Sys2Proof.Machine

section
variable {s : State} {i : SlotNum} {j : Job} {r : Retirement}

theorem resultWriteDoneEffect_eq (hj : s.job i = some j) (hphase : j.phase = .retiring r) (hstage : r.stage = .results)
    (last ok : Bool) : resultWriteDoneEffect i last ok s =
      if ok then
        if s.fatal then s.setSlot i .free
        else if last then s.setSlot i (.job { j with phase := .retiring { r with stage := .stateWord } })
        else s
      else finish s (s.retireFailed i) := by
  unfold resultWriteDoneEffect
  rw [hj]
  dsimp only
  rw [hphase]
  dsimp only
  rw [hstage]

theorem stateWordWriteDoneEffect_eq (hj : s.job i = some j) (hphase : j.phase = .retiring r) (hstage : r.stage = .stateWord)
    (ok : Bool) : stateWordWriteDoneEffect i ok s =
      if ok then finish s (s.retired i j r) else finish s (s.retireFailed i) := by
  unfold stateWordWriteDoneEffect
  rw [hj]
  dsimp only
  rw [hphase]
  dsimp only
  rw [hstage]

/-- A bus error on a write of a retirement frees the slot and is the fatal fault (R44, R174). -/
theorem retireFailed_spec (hf : s.fault = .none) (he : s.engine = .running ∨ s.engine = .stopping) :
    (finish s (s.retireFailed i)).slot i = .free ∧ (finish s (s.retireFailed i)).engine = .stopping ∧
    (finish s (s.retireFailed i)).fault = .resultWriteError ∧ (finish s (s.retireFailed i)).notice.engine = true ∧
    (finish s (s.retireFailed i)).notice.job = s.notice.job := by
  have hf' : (s.setSlot i .free).fault = .none := hf
  have he' : (s.setSlot i .free).engine = .running ∨ (s.setSlot i .free).engine = .stopping := he
  have hslot : (s.setSlot i .free).slot i = .free := by rw [State.slot_setSlot, if_pos rfl]
  have hnotice : (s.setSlot i .free).notice.job = s.notice.job := rfl
  unfold State.retireFailed
  generalize s.setSlot i .free = u at hf' he' hslot hnotice ⊢
  obtain ⟨hstop, hcode⟩ := State.mode_fatalFault (f := .resultWriteError) hf' he'
  obtain ⟨hengine, hjob⟩ := State.notice_fatalFault (f := .resultWriteError) hf' he'
  have hfree := State.free_fatalFault (f := .resultWriteError) hf' he' hslot
  have hend := finish_frame s (u.fatalFault .resultWriteError)
  exact ⟨(hend.empty i (by rw [hfree]; rfl)).trans hfree, hend.engine.trans hstop, hend.fault.trans hcode,
    hend.engineNotice.trans hengine, (hend.jobNotice.trans hjob).trans hnotice⟩

/-- What the state word leaves of engine, notices and ports, and the slot it frees. -/
theorem retired_spec (s : State) (i : SlotNum) (j : Job) (r : Retirement) : (s.retired i j r).fixed = s.fixed ∧
    (s.retired i j r).tiles = s.tiles ∧ (s.retired i j r).slot i = .free ∧
    (s.retired i j r).notice.job = (s.notice.job || j.notify) := by
  obtain ⟨hfixed, htiles, hslots, hnotice, -⟩ := s.freed_cases i j.notify
  have hframe := frame_haltWalker (s.freed i j.notify) j.chain .jobFailed
  have hfree : (s.freed i j.notify).slot i = .free := by
    rw [State.slot_of_slots hslots, State.slot_setSlot, if_pos rfl]
  have hjob : (s.freed i j.notify).notice.job = (s.notice.job || j.notify) := by rw [hnotice]
  rw [State.retired_eq]
  split
  · refine ⟨hframe.fixed.trans hfixed, hframe.tiles.trans htiles, ?_, by rw [hframe.notice]; exact hjob⟩
    rcases hframe.slots with h | h
    · rw [h, hfree]
    · rw [h, hfree]
      rfl
  · exact ⟨hfixed, htiles, hfree, hjob⟩

/-- The FAILED state word of a HALT_ON_FAIL job halts its walker and skips the QUEUED jobs of its chain (R63, R64). -/
theorem retired_halts (hrun : s.engine = .running) (hstate : (s.walker j.chain).state ≠ .halted)
    (hfail : r.terminal = .failed ∧ j.haltOnFail = true) :
    ((s.retired i j r).walker j.chain).state = .halted ∧ ((s.retired i j r).walker j.chain).cause = .jobFailed ∧
    (s.retired i j r).notice.chain = true ∧
    QueuedSkipped (s.setSlot i .free) (finish s (s.retired i j r)) j.chain := by
  obtain ⟨hfixed, htiles, hslots, hnotice, hwalkers⟩ := s.freed_cases i j.notify
  have htiles' := (retired_spec s i j r).2.1
  have hports := State.ports_of_fixed (retired_spec s i j r).1
  have hrun' := (State.engine_of_fixed hfixed).trans hrun
  have hnow := State.now_of_fixed hfixed
  have hstate' : ((s.freed i j.notify).walker j.chain).state ≠ .halted := by
    by_cases h : ∃ d o, (s.walker j.chain).work = .held d o
    · obtain ⟨d, o, h⟩ := h
      rw [State.walker_freed_held h]
      exact hstate
    · rw [State.walker_freed_not_held fun d o hd => h ⟨d, o, hd⟩]
      exact hstate
  have hretired : s.retired i j r = (s.freed i j.notify).haltWalker j.chain .jobFailed := by
    rw [State.retired_eq, if_pos hfail]
  have hskip (k : SlotNum) : (s.retired i j r).slot k = ((s.setSlot i .free).slot k).skip j.chain (s.setSlot i .free).now := by
    rw [hretired, State.slot_haltWalker hrun' hstate', if_neg HaltCause.noConfusion, State.slot_of_slots hslots, hnow]
    rfl
  refine ⟨?_, ?_, ?_, queuedSkipped_of_skip (hports.trans rfl) (fun x => ?_) hskip⟩
  · rw [hretired, State.walker_haltWalker hrun' hstate']
    rfl
  · rw [hretired, State.walker_haltWalker hrun' hstate']
    rfl
  · rw [hretired]
    exact State.notice_haltWalker hrun' hstate'
  · rw [State.tile_of_tiles htiles']

end

/-- Settles O33. -/
theorem resultsWritten : Obligations.ResultsWritten := by
  unfold Obligations.ResultsWritten
  intro s i j r last hlow hcutR hcutW hj hphase
  have hresult (l ok : Bool) : exec (.resultWriteDone i l ok) s = .next (resultWriteDoneEffect i l ok s) :=
    endOfAccess_of_live hlow hcutR _
  have hword (ok : Bool) : exec (.stateWordWriteDone i ok) s = .next (stateWordWriteDoneEffect i ok s) :=
    endOfAccess_of_live hlow hcutW _
  refine ⟨⟨_, State.mem_accesses_of_slot (i := i) ?_, retirementWrite_write j.addr r⟩, fun he hf =>
    ⟨fun hstage => ?_, fun hstage => ?_⟩, fun he hf hstage => ?_⟩
  · rw [State.slot_of_job hj]
    unfold Slot.accesses
    dsimp only
    rw [hphase]
    refine List.mem_singleton.2 ?_
    cases r.stage <;> rfl
  · have hfatal : s.fatal = false := by
      unfold State.fatal
      rw [hf]
      exact Bool.and_false _
    have heffect := resultWriteDoneEffect_eq hj hphase hstage
    rw [hfatal] at heffect
    refine ⟨(hresult true true).trans (congrArg _ (heffect true true)),
      (hresult false true).trans (congrArg _ (heffect false true)), _,
      (hresult last false).trans (congrArg _ (heffect last false)), retireFailed_spec hf he⟩
  · have heffect := stateWordWriteDoneEffect_eq hj hphase hstage
    have hdone : exec (.stateWordWriteDone i true) s = .next (finish s (s.retired i j r)) :=
      (hword true).trans (congrArg _ (heffect true))
    have hend := finish_frame s (s.retired i j r)
    obtain ⟨hfixed, -, hfree, hjob⟩ := retired_spec s i j r
    refine ⟨⟨_, hdone, (hend.empty i (by rw [hfree]; rfl)).trans hfree, hend.engine.trans (State.engine_of_fixed hfixed),
      hend.fault.trans (State.fault_of_fixed hfixed), hend.jobNotice.trans hjob,
      funext fun p => (hend.port p).trans (State.port_of_fixed hfixed p), fun hfailed hhalt hrun hstate => ?_, fun hkeep => ?_⟩,
      _, (hword false).trans (congrArg _ (heffect false)), retireFailed_spec hf he⟩
    · obtain ⟨hhalted, hcause, hchain, hskipped⟩ := retired_halts (i := i) hrun hstate ⟨hfailed, hhalt⟩
      exact ⟨by rw [hend.walker]; exact hhalted, by rw [hend.walker]; exact hcause, hend.chain.trans hchain, hskipped⟩
    · have hretired : s.retired i j r = s.freed i j.notify := by
        rw [State.retired_eq]
        split
        · next h =>
          rcases hkeep with hkeep | hstop
          · exact absurd h hkeep
          · refine State.haltWalker_eq_self _ _ (.inl ?_)
            rw [State.engine_of_fixed (s.freed_cases i j.notify).1, hstop]
            exact EngineState.noConfusion
        · rfl
      refine ⟨?_, fun c => ⟨fun hnot => ?_, fun d o hheld => ?_⟩⟩
      · rw [hend.chain, hretired, (s.freed_cases i j.notify).2.2.2.1]
      · rw [hend.walker, hretired, State.walker_freed_not_held hnot]
      · rw [hend.walker, hretired, State.walker_freed_held hheld]
  · have hfatal : s.fatal = true := by
      unfold State.fatal
      rw [he, decide_eq_true hf]
      rfl
    have heffect := resultWriteDoneEffect_eq hj hphase hstage last true
    rw [hfatal] at heffect
    exact ⟨_, (hresult last true).trans (congrArg _ heffect), by rw [if_pos rfl, if_pos rfl, State.slot_setSlot, if_pos rfl],
      rfl, rfl⟩

/-- The results of a job that has drained are its first failure's (R42). -/
theorem Job.results_drained {j : Job} {f : Failure} (h : j.firstFailure = some f) (now : Word) :
    (j.results .drained now).terminal = (if f.code = .aborted then .aborted else .failed) ∧
    (j.results .drained now).code = some f.code := by
  unfold Job.results
  rw [h]
  dsimp only
  by_cases hc : f.code = .aborted
  · rw [if_pos hc, if_pos hc, hc]
    exact ⟨rfl, rfl⟩
  · rw [if_neg hc, if_neg hc]
    exact ⟨rfl, rfl⟩

theorem Job.results_completed (j : Job) (now : Word) :
    (j.results .completed now).terminal = (if j.tolerated = 0 then .done else .partly) ∧
    (j.results .completed now).code = none := by
  unfold Job.results
  dsimp only
  by_cases hc : j.tolerated = 0
  · rw [if_pos hc, if_pos hc]
    exact ⟨rfl, rfl⟩
  · rw [if_neg hc, if_neg hc]
    exact ⟨rfl, rfl⟩

/-- Settles O30. -/
theorem jobsDrain : Obligations.JobsDrain := by
  unfold Obligations.JobsDrain
  refine ⟨fun j now => ⟨fun cause => ⟨rfl, rfl, rfl, rfl, ?_, ?_⟩, fun h => ?_, fun h => ?_, fun f hf hc => ?_, fun f hf hc => ?_,
    rfl, rfl, rfl, rfl⟩, fun s i j hlow hj hphase hout => ?_⟩
  · show (match j.firstFailure with | some f => f.step | none => 0) = _
    cases j.firstFailure <;> rfl
  · show (match j.firstFailure with | some f => f.tile | none => none) = _
    cases j.firstFailure <;> rfl
  · rw [(j.results_completed now).1, if_pos h]
    exact ⟨rfl, (j.results_completed now).2⟩
  · rw [(j.results_completed now).1, if_neg h]
    exact ⟨rfl, (j.results_completed now).2⟩
  · rw [(Job.results_drained hf now).1, if_neg hc]
    exact ⟨rfl, (Job.results_drained hf now).2⟩
  · rw [(Job.results_drained hf now).1, if_pos hc, (Job.results_drained hf now).2, hc]
    exact ⟨rfl, rfl⟩
  · have heffect : jobDrainedEffect i s = finish s (s.enterRetiring i .drained) := by
      unfold jobDrainedEffect
      rw [hj]
      dsimp only
      rw [hphase]
      exact if_pos ⟨rfl, hout⟩
    have hexec : exec (.jobDrained i) s = .next (jobDrainedEffect i s) := exec_of_high hlow rfl
    rw [heffect] at hexec
    have hend := finish_frame s (s.enterRetiring i .drained)
    have hfixed := s.fixed_enterRetiring i .drained
    have hbody := State.body_enterRetiring s i .drained
    refine ⟨_, hexec, fun hfatal => ?_, fun hfatal => ?_, hend.engine.trans (State.engine_of_fixed hfixed),
      funext fun p => (hend.port p).trans (State.port_of_fixed hfixed p),
      (hend.walker .normal).trans (State.walker_of_body hbody .normal),
      (hend.walker .priority).trans (State.walker_of_body hbody .priority), hend.now.trans (State.now_of_fixed hfixed)⟩
    · have hu : (s.enterRetiring i .drained).job i = some (j.retire .drained s.now) := by
        rw [State.enterRetiring_of_not_fatal hj hfatal, State.job_setSlot, if_pos rfl]
        rfl
      obtain ⟨j', hj', hstill⟩ := hend.job hu rfl
      exact ⟨j', hj', Job.phase_of_still hstill, (congrArg Job.addr hstill :)⟩
    · have hu : (s.enterRetiring i .drained).slot i = .free := by
        unfold State.enterRetiring
        rw [hj]
        dsimp only
        rw [hfatal, if_pos rfl, State.slot_setSlot, if_pos rfl]
      exact (hend.empty i (by rw [hu]; rfl)).trans hu

end Sys2Proof.Machine
end

section
/-! What the end of an event makes of one job and one tile (R34 to R37, R112), and occurrences: O41, O42 (R160 to R163, R168). -/

namespace Sys2Proof.Machine

/-! ## The end of an event, in two parts -/

/-- The state at the end of an event once tile parts are judged again and failures are settled. -/
def resolved (before s : State) : State := (State.rejudgeChanged before s).resolveAll

theorem resolved_frame (before s : State) : JobFrame s (resolved before s) :=
  (State.rejudgeChanged_frame before s).trans (State.resolveAll_frame _)

theorem settle_eq (before s : State) : settle before s =
    State.advance (resolved before s).closeStreams.stepsLeft (resolved before s).closeStreams := rfl

theorem settled_resolved (before s : State) : (resolved before s).Settled := State.settled_resolveAll _

theorem mem_waitList_of_resolved {before s : State} {w : WaitEntry} (h : w ∈ (resolved before s).waitList) :
    w ∈ s.waitList := by
  have := (State.rejudgeChanged before s).mem_waitList_of_resolveAll h
  rwa [State.waitList_rejudgeChanged] at this

/-- Where no tile changes its state and nothing has failed, nothing is judged or settled. -/
theorem resolved_eq_self {before s : State} (hstates : ∀ x, (before.tile x).state = (s.tile x).state) (h : s.Settled) :
    resolved before s = s := by
  unfold resolved
  rw [State.rejudgeChanged_eq_self hstates, State.resolveAll_eq_self h]

section
variable {before s : State} {k : SlotNum}

/-- A job whose step is not over, and which waits for nothing, stands as it was settled. -/
theorem slot_finish_of_not_over (h : ∀ j, (resolved before s).job k = some j → j.stepOver = false)
    (hw : (∀ w ∈ s.waitList, w.slot ≠ k) ∨ ∀ j, (resolved before s).job k = some j → j.atEngineStep = false) :
    (finish before s).slot k = (resolved before s).slot k := by
  have hslots := (resolved before s).slots_closeStreams
  have hjob : (resolved before s).closeStreams.job k = (resolved before s).job k := State.job_of_slots hslots k
  have hready : k ∉ (resolved before s).closeStreams.readySlots := fun hk => by
    obtain ⟨j, hj, hover⟩ := State.mem_readySlots.1 hk
    rw [h j (hjob ▸ hj)] at hover
    cases hover
  have hwait : (∀ w ∈ (resolved before s).closeStreams.waitList, w.slot ≠ k) ∨
      ∀ j, (resolved before s).closeStreams.job k = some j → j.atEngineStep = false := by
    refine hw.imp (fun h w hmem => h w (mem_waitList_of_resolved (before := before) ?_)) fun h j hj => h j (hjob ▸ hj)
    rwa [State.waitList_closeStreams] at hmem
  rw [finish, State.slot_commit, settle_eq, State.slot_advance_of_inert hready hwait, State.slot_of_slots hslots]

/-- A job whose step is over goes on (R37). -/
theorem job_finish_of_over (hfatal : s.fatal = false) {j : Job} (hj : (resolved before s).job k = some j)
    (hover : j.stepOver = true) :
    ∃ j', (finish before s).job k = some j' ∧ j.done.Ahead j' ∧ (j'.phase.isRunning = true → j.current < j'.current) := by
  have hslots := (resolved before s).slots_closeStreams
  have hj' : (resolved before s).closeStreams.job k = some j := (State.job_of_slots hslots k).trans hj
  have hfatal' : (resolved before s).closeStreams.fatal = false :=
    (State.closeStreams_frame _).fatal.trans ((resolved_frame before s).fatal.trans hfatal)
  obtain ⟨j', hj'', -⟩ := (State.advance_frame (resolved before s).closeStreams.stepsLeft _).taken hfatal' hj'
  have hsame : (finish before s).job k = (settle before s).job k := State.job_of_slot (State.slot_commit _ _ k)
  exact ⟨j', hsame.trans hj'', State.job_advance_of_ready (State.toGo_le_stepsLeft _) hj' hover hj''⟩

end

/-! ## A tile that no later step names -/

/-- No later step of the job, while it runs, names tile `x`. -/
def Job.NoLater (x : TileNum) (j : Job) : Prop :=
  j.phase.isRunning = true → ∀ st ∈ j.steps.drop (j.current + 1), st.tiles.getLsbD x.val = false

theorem Job.NoLater.ahead {x : TileNum} {j k : Job} (h : j.NoLater x) (hjk : j.Ahead k) : k.NoLater x := fun hrun st hst => by
  refine h (hjk.running hrun) st ?_
  rw [hjk.steps] at hst
  have hle := hjk.current
  rw [show k.current + 1 = j.current + 1 + (k.current - j.current) by omega, ← List.drop_drop] at hst
  exact List.mem_of_mem_drop hst

theorem Phase.isRunning_iff {p : Phase} : p.isRunning = true ↔ p = .running := by
  cases p <;> simp [Phase.isRunning]

theorem State.noLaterStep_iff {s : State} {x : TileNum} : s.NoLaterStep x ↔ ∀ i, ∀ j ∈ s.job i, j.NoLater x := by
  unfold State.NoLaterStep Job.NoLater
  simp only [Phase.isRunning_iff]

theorem State.NoLaterStep.moves {s t : State} {x : TileNum} (h : s.NoLaterStep x) (hm : Moves s t) : t.NoLaterStep x :=
  State.noLaterStep_iff.2 (hm.keeps (fun _ _ hj hm => hj.ahead hm.ahead) (State.noLaterStep_iff.1 h))

theorem State.tile_completeStep_of_noLater {s : State} {x : TileNum} {i : SlotNum} (h : s.NoLaterStep x)
    (hi : i ∈ s.readySlots) : (s.completeStep i).tile x = s.tile x := by
  obtain ⟨j, hj, hover⟩ := State.mem_readySlots.1 hi
  have hrun := (Job.current_lt_of_stepOver hover).1
  rw [State.completeStep_eq hj]
  split
  · refine (State.tile_stepCurrent_of_notNamed _ i fun k st hk hst => ?_).trans (State.tile_of_tiles (by simp) x)
    rw [State.job_modJob, if_pos rfl, hj] at hk
    obtain rfl := Option.some.inj hk
    have hmem : st ∈ j.steps.drop (j.current + 1) := by
      have hget : j.steps[j.current + 1]? = some st := hst
      rw [List.mem_iff_getElem?]
      exact ⟨0, by rw [List.getElem?_drop]; exact hget⟩
    exact h i j hj (Phase.isRunning_iff.1 hrun) st hmem
  · exact State.tile_of_tiles (by simp) x

theorem State.tile_advance_of_noLater {s : State} {x : TileNum} (h : s.NoLaterStep x) (n : Nat) :
    (State.advance n s).tile x = s.tile x :=
  (State.advance_induct (P := fun u => u.tile x = s.tile x ∧ u.NoLaterStep x) (fun _ _ h => h)
    (fun u _ hu hi => ⟨(State.tile_completeStep_of_noLater hu.2 (State.ready_of_next hi)).trans hu.1,
      hu.2.moves (moves_completeStep u (State.ready_of_next hi))⟩) n ⟨rfl, h⟩).1

/-- A tile that no later step names is, at the end of an event, as it was judged, its stream closed where it is over. -/
theorem tile_finish_of_noLater {before s : State} {x : TileNum} (h : s.NoLaterStep x) : (finish before s).tile x =
    (resolved before s).closedEntry x ((State.rejudgeChanged before s).tile x) := by
  have hlater : (resolved before s).closeStreams.NoLaterStep x :=
    h.moves (((moves_rejudgeChanged s before).trans (moves_resolveAll _)).trans (.of_slots (State.slots_closeStreams _)))
  rw [finish, State.tile_commit, settle_eq, State.tile_advance_of_noLater hlater, State.tile_closeStreams]
  unfold resolved
  rw [State.tile_of_tiles (State.tiles_resolveAll _)]

/-! ## Occurrences (R161, R163, R168) -/

section
variable (s : State) (src : EventSource)

theorem State.sync_occur : (s.occur src).sync0 = (s.sync0 || ((decide (s.engine = .running) || decide (s.engine = .stopping)) &&
      decide (s.settings.sync0 = some src))) ∧
    (s.occur src).sync1 = (s.sync1 || ((decide (s.engine = .running) || decide (s.engine = .stopping)) &&
      decide (s.settings.sync1 = some src))) := by
  have hkeeps (l : List WaitEntry) (u : State) :
      (l.foldl (fun s w => s.modJob w.slot Job.engineStepDone) u).sync0 = u.sync0 ∧
      (l.foldl (fun s w => s.modJob w.slot Job.engineStepDone) u).sync1 = u.sync1 := by
    refine ⟨foldl_keeps State.sync0 (fun v w => ?_) l u, foldl_keeps State.sync1 (fun v w => ?_) l u⟩
    · simp
    · simp
  unfold State.occur
  exact hkeeps _ _

/-- The job of a WAIT that the occurrence completes is over with its step. -/
theorem State.job_occur {i : SlotNum} {j : Job} (hj : s.job i = some j) : (s.occur src).job i = some { j with
    engineDone := j.engineDone || (j.atEngineStep &&
      s.waitList.any fun w => decide (w.slot = i) && decide (w.source = src)) } := by
  rw [State.job, State.slot_occur, State.slot_of_job hj]
  by_cases h : ∃ w ∈ s.waitList, w.source = src ∧ w.slot = i
  · have hany : s.waitList.any (fun w => decide (w.slot = i) && decide (w.source = src)) = true := by
      obtain ⟨w, hw, hsrc, hslot⟩ := h
      exact List.any_eq_true.2 ⟨w, hw, by rw [decide_eq_true hslot, decide_eq_true hsrc]; rfl⟩
    rw [if_pos h, hany, Bool.and_true]
    rfl
  · have hany : s.waitList.any (fun w => decide (w.slot = i) && decide (w.source = src)) = false := by
      rw [List.any_eq_false]
      intro w hw hboth
      rw [Bool.and_eq_true, decide_eq_true_eq, decide_eq_true_eq] at hboth
      exact h ⟨w, hw, hboth.2, hboth.1⟩
    rw [if_neg h, hany, Bool.and_false, Bool.or_false]
    rfl

theorem State.port_occur : (s.occur src).port = s.port := funext fun p => (s.occur_frame src).port p

end

/-- An occurrence in a state between two events is delivered by the end of its event; `u` is that state but for what no job and
no tile knows of. -/
theorem delivered_occur {s u before : State} (src : EventSource) (hq : Quiet s) (hslots : u.slots = s.slots)
    (hports : u.ports = s.ports) (hwait : u.waitList = s.waitList) (hset : u.settings = s.settings)
    (hengine : u.engine = s.engine) (hstates : ∀ x, (before.tile x).state = (u.tile x).state) :
    Delivered s (finish before (u.occur src)) src := by
  have hsettled : (u.occur src).Settled :=
    State.settled_occur (hq.settled.of_slots hslots fun i x => State.hasInFlight_of_ports hports i x) src
  have hresolved : resolved before (u.occur src) = u.occur src :=
    resolved_eq_self (fun x => by rw [hstates, State.tile_of_tiles (u.tiles_occur src)]) hsettled
  have hjob (i : SlotNum) : u.job i = s.job i := State.job_of_slots hslots i
  have hend := finish_frame before (u.occur src)
  obtain ⟨hsync0, hsync1⟩ := u.sync_occur src
  refine ⟨fun w hw hsrc j hj st hst hrun hkind => ?_, fun he h => hend.sync0 ?_, fun he h => hend.sync1 ?_, fun i hi => ?_⟩
  · have hat : j.atEngineStep = true := by
      unfold Job.atEngineStep
      rw [hrun, hst]
      dsimp only
      rw [hkind]
      rfl
    have hany : s.waitList.any (fun v => decide (v.slot = w.slot) && decide (v.source = src)) = true :=
      List.any_eq_true.2 ⟨w, hw, by rw [decide_eq_true rfl, decide_eq_true hsrc]; rfl⟩
    have hu := u.job_occur src ((hjob w.slot).trans hj)
    rw [hwait, hany, hat, Bool.and_self, Bool.or_true] at hu
    have hover : ({ j with engineDone := true } : Job).stepOver = true := by
      have hst' : ({ j with engineDone := true } : Job).step? = some st := hst
      unfold Job.stepOver
      rw [hst', hrun]
      dsimp only
      rw [hkind]
      rfl
    have hrunning : s.engine = .running := by
      by_contra he
      have hidle := hq.2.2.2.2 he w.slot j hj
      rw [hrun] at hidle
      cases hidle
    have hfatal : (u.occur src).fatal = false :=
      (u.occur_frame src).fatal.trans (State.fatal_of_running (hengine.trans hrunning))
    obtain ⟨j', hj', hahead, hcurrent⟩ := job_finish_of_over (before := before) hfatal (hresolved.symm ▸ hu) hover
    exact ⟨j', hj', hahead.stepsDone, fun hp => hcurrent (Phase.isRunning_iff.2 hp)⟩
  · rw [hsync0, hengine, hset, decide_eq_true h, Bool.and_true]
    rcases he with he | he <;> simp [he]
  · rw [hsync1, hengine, hset, decide_eq_true h, Bool.and_true]
    rcases he with he | he <;> simp [he]
  · have hslot : (u.occur src).slot i = s.slot i := by
      rw [State.slot_occur, if_neg (fun ⟨w, hw, _, hwi⟩ => hi w (hwait ▸ hw) hwi), State.slot_of_slots hslots]
    refine (slot_finish_of_not_over (fun j hj => ?_) (.inl fun w hw => ?_)).trans (by rw [hresolved, hslot])
    · rw [hresolved, State.job_of_slot hslot] at hj
      cases hover : j.stepOver
      · rfl
      · have hmem : i ∈ s.readySlots := State.mem_readySlots.2 ⟨j, hj, hover⟩
        rw [hq.ready] at hmem
        cases hmem
    · rw [State.waitList_occur, hwait] at hw
      exact hi w (List.mem_of_mem_filter hw)

/-- Settles O41. -/
theorem occurrencesDelivered : Obligations.OccurrencesDelivered := by
  unfold Obligations.OccurrencesDelivered
  refine ⟨fun s src => ⟨State.waitList_occur s src, (s.sync_occur src).1, (s.sync_occur src).2, fun i j hj => s.job_occur src hj,
    State.tiles_occur s src, s.port_occur src⟩, fun s p d hlow => ⟨fun hup hpresent => ?_, fun h => ?_⟩⟩
  · have hexec : exec (.frameNotice p d) s = .next (frameNoticeEffect p d s) := exec_of_high hlow rfl
    have heffect : frameNoticeEffect p d s = finish s (s.occur (.frame (tileOf p d))) :=
      if_pos (by rw [hpresent, decide_eq_true hup]; rfl)
    rw [heffect] at hexec
    have hend := finish_frame s (s.occur (.frame (tileOf p d)))
    exact ⟨_, hexec, hend, fun hq => delivered_occur _ hq rfl rfl rfl rfl rfl fun _ => rfl,
      fun x => by rw [hend.tile, State.tile_of_tiles (State.tiles_occur s _)],
      (funext hend.port).trans (s.port_occur _)⟩
  · have hexec : exec (.frameNotice p d) s = .next (frameNoticeEffect p d s) := exec_of_high hlow rfl
    rw [hexec]
    refine congrArg _ (if_neg fun hboth => ?_)
    rw [Bool.and_eq_true, decide_eq_true_eq] at hboth
    rcases h with h | h
    · exact h hboth.2
    · rw [h] at hboth
      cases hboth.1

/-- Settles O42. -/
theorem pinsFollowed : Obligations.PinsFollowed := by
  unfold Obligations.PinsFollowed
  intro s i hlow
  have hexpiry : exec (.trigFilterExpiry i) s = .next (trigFilterExpiryEffect i s) := exec_of_high hlow rfl
  refine ⟨fun l hl => ?_, fun hrun => ⟨fun hlevel hpin => ?_, fun hnot => ?_⟩, ?_⟩
  · have hexec : exec (.trigPinChange i l) s = .next (trigPinChangeEffect i l s) := rfl
    have heffect : trigPinChangeEffect i l s = s.setTrig i { s.trig i with pin := l, running := !s.resetLow } := if_neg hl
    rw [hexec, heffect, hlow]
    rfl
  · have heffect : trigFilterExpiryEffect i s = finish s ((s.setTrig i ⟨true, some true, false⟩).occur (.trig i)) := by
      unfold trigFilterExpiryEffect
      dsimp only
      rw [if_pos hrun, if_pos ⟨hlevel, hpin⟩, hpin]
    rw [heffect] at hexpiry
    have hslots : (s.setTrig i ⟨true, some true, false⟩).slots = s.slots := by cases i <;> rfl
    have hports : (s.setTrig i ⟨true, some true, false⟩).ports = s.ports := by cases i <;> rfl
    have hwait : (s.setTrig i ⟨true, some true, false⟩).waitList = s.waitList := by cases i <;> rfl
    have hset : (s.setTrig i ⟨true, some true, false⟩).settings = s.settings := by cases i <;> rfl
    have hengine : (s.setTrig i ⟨true, some true, false⟩).engine = s.engine := by cases i <;> rfl
    have htiles : (s.setTrig i ⟨true, some true, false⟩).tiles = s.tiles := by cases i <;> rfl
    have htrig : (s.setTrig i ⟨true, some true, false⟩).trig i = ⟨true, some true, false⟩ := by cases i <;> rfl
    generalize s.setTrig i ⟨true, some true, false⟩ = u at hexpiry hslots hports hwait hset hengine htiles htrig ⊢
    have hend := finish_frame s (u.occur (.trig i))
    have hoccur := u.occur_frame (.trig i)
    refine ⟨_, hexpiry, ?_, hend, fun hq => delivered_occur _ hq hslots hports hwait hset hengine fun x => by
      rw [State.tile_of_tiles htiles], fun x => ?_, ?_⟩
    · rw [← htrig]
      cases i
      · exact hend.trig0.trans hoccur.trig0
      · exact hend.trig1.trans hoccur.trig1
    · rw [hend.tile, State.tile_of_tiles ((u.tiles_occur _).trans htiles)]
    · exact funext fun p => (hend.port p).trans ((hoccur.port p).trans (State.port_of_ports hports p))
  · rw [hexpiry]
    unfold trigFilterExpiryEffect
    dsimp only
    rw [if_pos hrun, if_neg hnot]
  · have hexec : exec (.syncPulseExpiry i) s = .next (syncPulseExpiryEffect i s) := exec_of_high hlow rfl
    rw [hexec]
    cases i <;> rfl

end Sys2Proof.Machine
end

section
/-! O43 fails: `Quiet` allows a WAIT in the wait list whose job has gone on to another step. An occurrence that such a WAIT
listens for ends the PAUSE the job has come to, and leaves the timer of that PAUSE with the job (R163, R166). -/

namespace Sys2Proof.Machine

/-! ## Steps that go on, one at a time -/

theorem State.advance_single {s : State} {i : SlotNum} (h : s.nextSlots = [i]) (n : Nat) :
    State.advance (n + 1) s = State.advance n (s.completeStep i) := by
  rw [State.advance, h]

theorem State.advance_pair {s : State} {i j k : SlotNum} (h : s.nextSlots = [i, j])
    (hk : [i, j].getD (Config.completionOrder s.choices % 2) i = k) (n : Nat) :
    State.advance (n + 1) s = State.advance n (({ s with choices := s.choices + 1 } : State).completeStep k) := by
  rw [State.advance, h, ← hk]
  rfl

/-- A run of six steps that go on, with a choice of two at the third and at the fifth. -/
theorem State.advance_six {r0 r1 r2 r3 r4 r5 r6 : State} {p q k l a b : SlotNum} (h0 : r0.nextSlots = [p])
    (e0 : r0.completeStep p = r1) (h1 : r1.nextSlots = [q]) (e1 : r1.completeStep q = r2) (h2 : r2.nextSlots = [a, b])
    (c2 : [a, b].getD (Config.completionOrder r2.choices % 2) a = p)
    (e2 : ({ r2 with choices := r2.choices + 1 } : State).completeStep p = r3) (h3 : r3.nextSlots = [q])
    (e3 : r3.completeStep q = r4) (h4 : r4.nextSlots = [a, b])
    (c4 : [a, b].getD (Config.completionOrder r4.choices % 2) a = k)
    (e4 : ({ r4 with choices := r4.choices + 1 } : State).completeStep k = r5) (h5 : r5.nextSlots = [l])
    (e5 : r5.completeStep l = r6) (h6 : r6.readySlots = []) (n : Nat) : State.advance (n + 6) r0 = r6 := by
  rw [State.advance_single h0, e0, State.advance_single h1, e1, State.advance_pair h2 c2, e2, State.advance_single h3, e3,
    State.advance_pair h4 c4, e4, State.advance_single h5, e5, State.advance_eq_self h6]

/-! ## The counterexample -/

/-- An engine step. -/
def engineStepOf (k : StepKind) (x : Word) : Step :=
  { kind := k, onFrame := false, sleepAfter := false, tolerant := false, pass := false, tiles := 0, x := x, y := 1 }

/-- A RUNNING job at its first step. -/
def runningJob (order : Nat) (steps : List Step) (due : Option Word) : Job :=
  { chain := .normal, addr := 0, order := order, notify := false, haltOnFail := false, steps := steps, tiles := 0,
    phase := .running, current := 0, parts := [], outstanding := 0, firstFailure := none, tolerated := 0, stepsDone := 0,
    startedAt := 0, abortRequested := false, pauseDue := due, engineDone := false }

/-- A job whose PAUSE is due, with a MARK, a second PAUSE and a WAIT after it. -/
def pausedJob : Job :=
  runningJob 1 [engineStepOf .pause 1, engineStepOf .mark 0, engineStepOf .pause 1, engineStepOf .wait 0] (some 0)

/-- A job that waits for the first job's MARK, with two MARKs after it. -/
def waitingJob : Job :=
  runningJob 2 [engineStepOf .wait 0x30, engineStepOf .mark 2, engineStepOf .mark 1] none

/-- The paused job in slot `p`, the waiting one in slot `q`, and a WAIT for MARK 1 that the paused job left in the list. -/
def pausedScene (p q : SlotNum) : State :=
  { (({ State.reset with engine := .running } : State).setSlot p (.job pausedJob)).setSlot q (.job waitingJob) with
    waitList := [⟨q, .mark 0, 100⟩, ⟨p, .mark 1, 100⟩] }

/-- The PAUSE has ended, and its step is over. -/
def pausedRun0 (p q : SlotNum) : State :=
  (resolved (pausedScene p q) ((pausedScene p q).modJob p fun j => { j with pauseDue := none }.engineStepDone)).closeStreams

/-- The paused job is at its MARK, and the waiting job's WAIT is over. -/
def pausedRun1 (p q : SlotNum) : State := (pausedRun0 p q).completeStep p

/-- The waiting job is at its first MARK. -/
def pausedRun2 (p q : SlotNum) : State := (pausedRun1 p q).completeStep q

/-- The paused job is at its second PAUSE. -/
def pausedRun3 (p q : SlotNum) : State := ({ pausedRun2 p q with choices := 1 } : State).completeStep p

/-- The second MARK of the other job has ended the second PAUSE, through the WAIT left in the list. -/
def pausedRun4 (p q : SlotNum) : State := (pausedRun3 p q).completeStep q

/-- Whichever of the two goes on first, the paused job comes to its WAIT. -/
def pausedRun6 (p q k l : SlotNum) : State := (({ pausedRun4 p q with choices := 2 } : State).completeStep k).completeStep l

/-- Where the job stands, and its PAUSE timer. -/
def State.stands (s : State) (p : SlotNum) : Option (Phase × Option StepKind × Option Word) :=
  (s.job p).map fun j => (j.phase, j.step?.map (fun st => st.kind), j.pauseDue)

/-- The two arrangements of the jobs. -/
def Arranged (p q : SlotNum) : Prop := (p = 0 ∧ q = 1) ∨ (p = 1 ∧ q = 0)

section
variable {p q : SlotNum} (h : Arranged p q)
include h

theorem pausedRun_slots : (pausedRun0 p q).stepsLeft = 7 ∧ (pausedRun0 p q).nextSlots = [p] ∧
    (pausedRun1 p q).nextSlots = [q] ∧ (pausedRun2 p q).nextSlots = [0, 1] ∧ (pausedRun2 p q).choices = 0 ∧
    (pausedRun3 p q).nextSlots = [q] ∧ (pausedRun4 p q).nextSlots = [0, 1] ∧ (pausedRun4 p q).choices = 1 := by
  rcases h with ⟨rfl, rfl⟩ | ⟨rfl, rfl⟩ <;> decide +kernel

theorem pausedRun6_slots (k l : SlotNum) (hkl : Arranged k l) :
    ({ pausedRun4 p q with choices := 2 }.completeStep k).nextSlots = [l] ∧ (pausedRun6 p q k l).readySlots = [] ∧
    (pausedRun6 p q k l).stands p = some (.running, some .wait, some 1) := by
  rcases h with ⟨rfl, rfl⟩ | ⟨rfl, rfl⟩ <;> rcases hkl with ⟨rfl, rfl⟩ | ⟨rfl, rfl⟩ <;> decide +kernel

/-- The run, where the paused job goes on first of the two at the first choice. -/
theorem settle_pausedScene (hfirst : [0, 1].getD (Config.completionOrder 0 % 2) 0 = p) :
    ∃ k l, Arranged k l ∧ settle (pausedScene p q)
      ((pausedScene p q).modJob p fun j => { j with pauseDue := none }.engineStepDone) = pausedRun6 p q k l := by
  obtain ⟨hleft, h0, h1, h2, hc2, h3, h4, hc4⟩ := pausedRun_slots h
  obtain ⟨k, l, hkl, hsecond⟩ : ∃ k l, Arranged k l ∧ [(0 : SlotNum), 1].getD (Config.completionOrder 1 % 2) 0 = k := by
    rcases Nat.mod_two_eq_zero_or_one (Config.completionOrder 1) with hm | hm
    · exact ⟨0, 1, .inl ⟨rfl, rfl⟩, by rw [hm]; rfl⟩
    · exact ⟨1, 0, .inr ⟨rfl, rfl⟩, by rw [hm]; rfl⟩
  obtain ⟨h5, h6, -⟩ := pausedRun6_slots h k l hkl
  refine ⟨k, l, hkl, ?_⟩
  have hthird : ({ pausedRun2 p q with choices := (pausedRun2 p q).choices + 1 } : State).completeStep p =
      pausedRun3 p q := by rw [hc2, pausedRun3]
  have hfifth : ({ pausedRun4 p q with choices := (pausedRun4 p q).choices + 1 } : State).completeStep k =
      ({ pausedRun4 p q with choices := 2 } : State).completeStep k := by rw [hc4]
  have hrun := State.advance_six h0 (pausedRun1.eq_1 p q).symm h1 (pausedRun2.eq_1 p q).symm h2 (by rw [hc2]; exact hfirst)
    hthird h3 (pausedRun4.eq_1 p q).symm h4 (by rw [hc4]; exact hsecond) hfifth h5 (pausedRun6.eq_1 p q k l).symm h6 1
  rw [settle_eq, ← pausedRun0, hleft]
  exact hrun

theorem pausedScene_facts : (pausedScene p q).job p = some pausedJob ∧ (pausedScene p q).readySlots = [] ∧
    ∀ i, (pausedScene p q).job i = none ∨ (pausedScene p q).job i = some pausedJob ∨
      (pausedScene p q).job i = some waitingJob := by
  rcases h with ⟨rfl, rfl⟩ | ⟨rfl, rfl⟩ <;> decide +kernel

theorem quiet_pausedScene : Quiet (pausedScene p q) := by
  obtain ⟨-, hready, hjobs⟩ := pausedScene_facts h
  have hboth {i : SlotNum} {j : Job} (hj : j ∈ (pausedScene p q).job i) : j.engineDone = false ∧ j.parts = [] := by
    rcases hjobs i with hi | hi | hi
    · rw [hi] at hj
      cases hj
    · rw [hi] at hj
      obtain rfl := Option.some.inj hj
      exact ⟨rfl, rfl⟩
    · rw [hi] at hj
      obtain rfl := Option.some.inj hj
      exact ⟨rfl, rfl⟩
  have hnone {i : SlotNum} {j : Job} {x : TilePart} (hj : j ∈ (pausedScene p q).job i) (hx : x ∈ j.parts) : False := by
    rw [(hboth hj).2] at hx
    cases hx
  exact ⟨hready, fun i j hj => (hboth hj).1, fun i j hj x hx => (hnone hj hx).elim, fun i j hj x hx => (hnone hj hx).elim,
    fun he => absurd rfl he⟩

/-- The paused job's timer of a PAUSE that is over stays with it while it stands at a WAIT. -/
theorem pauseExpiry_keeps_timer (hfirst : [0, 1].getD (Config.completionOrder 0 % 2) 0 = p) :
    ∃ t, exec (.pauseExpiry p) (pausedScene p q) = .next t ∧ t.stands p = some (.running, some .wait, some 1) := by
  obtain ⟨k, l, hkl, hsettle⟩ := settle_pausedScene h hfirst
  obtain ⟨hjob, -, -⟩ := pausedScene_facts h
  have heffect : pauseExpiryEffect p (pausedScene p q) = finish (pausedScene p q)
      ((pausedScene p q).modJob p fun j => { j with pauseDue := none }.engineStepDone) := by
    unfold pauseExpiryEffect
    rw [hjob]
    exact if_pos (show reached 0 0 = true by decide)
  have hexec : exec (.pauseExpiry p) (pausedScene p q) = .next (pauseExpiryEffect p (pausedScene p q)) :=
    exec_of_high rfl rfl
  refine ⟨_, hexec.trans (congrArg _ heffect), ?_⟩
  rw [← (pausedRun6_slots h k l hkl).2.2, ← hsettle]
  unfold State.stands
  rw [finish, State.job_of_slot (State.slot_commit _ _ p)]

end

/-- Refutes O43: in one of the two arrangements the paused job goes on first, and ends at its WAIT with the second PAUSE's
timer. -/
theorem not_waitsAndPausesEnd : ¬ Obligations.WaitsAndPausesEnd := by
  unfold Obligations.WaitsAndPausesEnd
  intro hall
  obtain ⟨p, q, hpq, hfirst⟩ : ∃ p q, Arranged p q ∧ [(0 : SlotNum), 1].getD (Config.completionOrder 0 % 2) 0 = p := by
    rcases Nat.mod_two_eq_zero_or_one (Config.completionOrder 0) with hm | hm
    · exact ⟨0, 1, .inl ⟨rfl, rfl⟩, by rw [hm]; rfl⟩
    · exact ⟨1, 0, .inr ⟨rfl, rfl⟩, by rw [hm]; rfl⟩
  obtain ⟨t, hexec, hstands⟩ := pauseExpiry_keeps_timer hpq hfirst
  obtain ⟨t', u, j, hexec', -, -, -, -, hj, -, -, htimer⟩ := (hall (pausedScene p q) p pausedJob (engineStepOf .pause 1) rfl
    (pausedScene_facts hpq).1 rfl rfl (quiet_pausedScene hpq)).2 0 rfl
      (show reached 0 0 = true by decide) rfl
  obtain rfl : t = t' := Host.Outcome.next.inj (hexec.symm.trans hexec')
  unfold State.stands at hstands
  rw [hj] at hstands
  have hfields := Option.some.inj hstands
  obtain ⟨-, st, hst, hkind, -⟩ := htimer 1 (congrArg (fun v => v.2.2) hfields :)
  have hwait := (congrArg (fun v => v.2.1) hfields :)
  dsimp only at hwait
  rw [hst] at hwait
  have hcontra : st.kind = .wait := Option.some.inj hwait
  rw [hkind] at hcontra
  cases hcontra

end Sys2Proof.Machine
end

section
/-! How a transaction ends and what a part's failure leaves on its tile (R16, R34, R85, R108), and entries that are cut together
(R135, R143). -/

namespace Sys2Proof.Machine

/-! ## A part's failure on its tile -/

/-- The job in slot `i` has a part on tile `x` that has not failed. -/
def State.CanFail (s : State) (i : SlotNum) (x : TileNum) : Prop :=
  ∃ j q, s.job i = some j ∧ j.part? x = some q ∧ q.cond.hasFailed = false

/-- The tile's last error takes the code, where it is one that marks a tile, and the stream of slot `i` is marked failed. -/
def TileEntry.failed (i : SlotNum) (c : ErrorCode) (e : TileEntry) : TileEntry :=
  TileEntry.failStream i (if c.marksTile then { e with lastError := some c } else e)

section
variable {s : State} {i : SlotNum} {x : TileNum}

theorem State.failPart_eq_self (h : ¬ s.CanFail i x) (c : ErrorCode) : s.failPart i x c = s := by
  unfold State.failPart
  split
  · rfl
  · next q hq =>
    obtain ⟨j, hj, hp⟩ := Option.bind_eq_some_iff.1 hq
    refine if_pos ?_
    by_contra hfail
    exact h ⟨j, q, hj, hp, Bool.eq_false_iff.2 hfail⟩

theorem State.tile_failPart_ne {u : TileNum} (h : x ≠ u) (c : ErrorCode) : (s.failPart i x c).tile u = s.tile u := by
  unfold State.failPart State.markError
  repeat' split
  all_goals first
    | rfl
    | simp [State.setError, State.tile_modTile, h]

theorem State.tile_failPart (h : s.CanFail i x) (c : ErrorCode) : (s.failPart i x c).tile x = (s.tile x).failed i c := by
  obtain ⟨j, q, hj, hp, hfail⟩ := h
  unfold State.failPart
  rw [hj, Option.bind_some, hp]
  dsimp only
  rw [hfail, if_neg Bool.false_ne_true]
  unfold TileEntry.failed State.markError
  cases c.marksTile <;> simp [State.setError]

theorem Job.failPart_part (x : TileNum) (c : ErrorCode) {j : Job} {q : TilePart} (hq : j.part? x = some q)
    (hfail : q.cond.hasFailed = false) :
    j.failPart x c = j.setPart x fun q => { q with cond := .failing c, staging := .empty } := by
  unfold Job.failPart
  rw [hq]
  exact if_neg (by rw [hfail]; exact Bool.false_ne_true)

end

theorem Job.part?_setPart {f : TilePart → TilePart} (hf : ∀ q, (f q).tile = q.tile) (j : Job) (x y : TileNum) :
    (j.setPart x f).part? y = if x = y then (j.part? y).map f else j.part? y := by
  unfold Job.part? Job.setPart
  induction j.parts with
  | nil => simp
  | cons q ps ih =>
    rw [List.map_cons, List.find?_cons, List.find?_cons]
    by_cases hq : q.tile = x
    · subst hq
      by_cases hy : q.tile = y
      · simp [hf, hy]
      · simpa [hf, hy] using ih
    · by_cases hy : q.tile = y
      · have hx : x ≠ y := fun h => hq (hy.trans h.symm)
        simp [hy, hx, Ne.symm hx]
      · simpa [hq, hy] using ih

theorem Job.part?_failPart_ne {x y : TileNum} (h : x ≠ y) (c : ErrorCode) (j : Job) : (j.failPart x c).part? y = j.part? y := by
  unfold Job.failPart
  repeat' split
  · rfl
  · rfl
  · exact (Job.part?_setPart (f := fun q => { q with cond := .failing c, staging := .empty }) (fun _ => rfl) j x y).trans (if_neg h)

theorem TileEntry.lastError_failStream (i : SlotNum) (e : TileEntry) : (e.failStream i).lastError = e.lastError := by
  unfold TileEntry.failStream
  repeat' split
  all_goals rfl

theorem TileEntry.lastError_failed {c : ErrorCode} (h : c.marksTile = true) (i : SlotNum) (e : TileEntry) :
    (e.failed i c).lastError = some c := by
  unfold TileEntry.failed
  rw [TileEntry.lastError_failStream, if_pos h]

theorem TileEntry.eraseWork_failStream (i : SlotNum) (e : TileEntry) : (e.failStream i).eraseWork = e.eraseWork := by
  unfold TileEntry.failStream
  repeat' split
  all_goals rfl

theorem TileEntry.eraseWork_failed (i : SlotNum) (c : ErrorCode) (e : TileEntry) : (e.failed i c).eraseWork = e.eraseWork := by
  unfold TileEntry.failed
  rw [TileEntry.eraseWork_failStream]
  split <;> rfl

/-! ## Fields a part's failure and an entry's end keep -/

/-- A tile entry without credits and configuration flag, and without what work changes. -/
def TileEntry.lasting (e : TileEntry) : TileEntry := { e.eraseWork with credits := 0, configInFlight := false }

theorem TileEntry.lasting_of_eraseWork {e f : TileEntry} (h : f.eraseWork = e.eraseWork) : f.lasting = e.lasting :=
  congrArg (fun e : TileEntry => { e with credits := 0, configInFlight := false }) h

section
variable (s : State) (p : PortId) (e : Entry)

theorem State.lasting_endEntry (b : Bool) (u : TileNum) : ((s.endEntry p e b).tile u).lasting = (s.tile u).lasting := by
  rw [State.endEntry_tile]
  split
  · next h => rw [← h]; rfl
  · rfl

theorem State.slot_endEntry (b : Bool) (k : SlotNum) : (s.endEntry p e b).slot k =
    if e.owner.slot? = some k then (s.slot k).mapJob (fun j => { j with outstanding := j.outstanding - 1 }) else s.slot k := by
  unfold State.endEntry
  dsimp only
  split
  · next i hi =>
    rw [State.slot_modJob_eq, hi]
    by_cases h : i = k
    · rw [if_pos h, if_pos (congrArg some h), h]
      simp
    · rw [if_neg h, if_neg (fun hk => h (Option.some.inj hk))]
      simp
  · next hi =>
    rw [hi, if_neg (by simp)]
    simp

/-- The entry's end is the end of what it holds of its port, its tile and its job; nothing else. -/
theorem State.body_notice_endEntry (b : Bool) : (s.endEntry p e b).body = s.body ∧ (s.endEntry p e b).notice = s.notice ∧
    (s.endEntry p e b).waitList = s.waitList :=
  ⟨State.body_endEntry s p e b, (s.endEntry_fields p e b).2.1, (s.endEntry_fields p e b).2.2.2⟩

end

/-! ## Cut entries (R135, R143) -/

/-- An entry cut from its port: its tag quarantined, its destination write running on. -/
def Port.cut (v : Port) (e : Entry) : Port :=
  (({ v with inFlight := v.inFlight.filter fun f => decide (f.tag ≠ e.tag) } : Port).quarantine e.tag).keepWrite e

/-- The job of a cut entry: one fewer is outstanding, and the part fails. -/
def Job.cut (j : Job) (e : Entry) : Job := ({ j with outstanding := j.outstanding - 1 } : Job).failPart e.tile .linkLost

section
variable (s : State) (p : PortId) (e : Entry)

theorem State.port_cutEntry : (State.cutEntry p s e).port p = (s.port p).cut e := by
  have hend : (s.endEntry p e true).port p = (s.port p).cut e := s.endEntry_port p e true
  unfold State.cutEntry
  dsimp only
  split
  · rw [State.port_of_ports (State.ports_failPart _ _ _ _)]
    exact hend
  · exact hend
  · exact hend

theorem State.port_cutEntry_ne {q : PortId} (h : q ≠ p) : (State.cutEntry p s e).port q = s.port q := by
  have hend := s.endEntry_port_ne p e true h
  unfold State.cutEntry
  dsimp only
  split
  · rw [State.port_of_ports (State.ports_failPart _ _ _ _)]
    exact hend
  · exact hend
  · exact hend

theorem State.lasting_cutEntry (u : TileNum) : ((State.cutEntry p s e).tile u).lasting = (s.tile u).lasting := by
  have hend := s.lasting_endEntry p e true u
  have hzero : (((s.endEntry p e true).modTile e.tile fun r => { r with credits := 0, configInFlight := false }).tile u).lasting =
      (s.tile u).lasting := by
    rw [State.tile_modTile]
    split
    · next h => rw [← hend, ← h]; rfl
    · exact hend
  unfold State.cutEntry
  dsimp only
  split
  · rw [TileEntry.lasting_of_eraseWork ((State.failPart_frame _ _ _ _).tile u)]
    exact hzero
  · rw [TileEntry.lasting_of_eraseWork ((State.setError_frame _ _ _).tile u)]
    exact hzero
  · exact hzero

theorem State.slot_cutEntry (k : SlotNum) : (State.cutEntry p s e).slot k =
    if e.owner.slot? = some k then (s.slot k).mapJob (fun j => j.cut e) else s.slot k := by
  have hend := s.slot_endEntry p e true
  unfold State.cutEntry
  dsimp only
  cases ho : e.owner with
  | job i n =>
    have hi : (Owner.job i n).slot? = some i := rfl
    rw [ho, hi] at hend
    dsimp only
    rw [State.slot_failPart, State.slot_modTile, State.slot_modTile, hend, hend, hi]
    by_cases h : i = k
    · subst h
      rw [if_pos rfl, if_pos rfl, if_pos rfl, Slot.mapJob_mapJob]
      rfl
    · rw [if_neg h, if_neg fun hk => h (Option.some.inj hk)]
      exact (if_neg fun hk => h (Option.some.inj hk)).symm
  | autoSleep =>
    rw [ho] at hend
    exact hend k
  | enumeration =>
    rw [ho] at hend
    exact hend k

/-- A cut entry leaves no credit and no configuration of its tile in flight. -/
def TileEntry.Bare (e : TileEntry) : Prop := e.credits = 0 ∧ e.configInFlight = false

theorem State.bare_cutEntry (u : TileNum) (h : u = e.tile ∨ (s.tile u).Bare) : ((State.cutEntry p s e).tile u).Bare := by
  have hbare : (((s.endEntry p e true).modTile e.tile fun r => { r with credits := 0, configInFlight := false }).tile u).Bare := by
    rw [State.tile_modTile]
    by_cases hu : e.tile = u
    · rw [if_pos hu]
      exact ⟨rfl, rfl⟩
    · rw [if_neg hu, State.endEntry_tile, if_neg hu]
      exact h.resolve_left fun h => hu h.symm
  have hwork {a b : TileEntry} (hab : b.eraseWork = a.eraseWork) (ha : a.Bare) : b.Bare :=
    ⟨(congrArg TileEntry.credits hab :).trans ha.1, (congrArg TileEntry.configInFlight hab :).trans ha.2⟩
  unfold State.cutEntry
  dsimp only
  split
  · exact hwork ((State.failPart_frame _ _ _ _).tile u) hbare
  · exact hwork ((State.setError_frame _ _ _).tile u) hbare
  · exact hbare

theorem State.fields_cutEntry : (State.cutEntry p s e).body = s.body ∧ (State.cutEntry p s e).notice = s.notice ∧
    (State.cutEntry p s e).waitList = s.waitList := by
  obtain ⟨hbody, hnotice, hwait⟩ := s.body_notice_endEntry p e true
  unfold State.cutEntry
  dsimp only
  split
  · refine ⟨(State.body_failPart _ _ _ _).trans hbody, (State.failPart_frame _ _ _ _).notice.trans hnotice, ?_⟩
    rw [State.waitList_failPart]
    exact hwait
  · exact ⟨hbody, hnotice, hwait⟩
  · exact ⟨hbody, hnotice, hwait⟩

end

/-- The owner of the entry reports the entry's end to tile `u` as a failure: it is the auto-sleep, or a job whose part on `u` has
not failed. -/
def State.Marks (s : State) (e : Entry) (u : TileNum) : Prop :=
  u = e.tile ∧ (e.owner = .autoSleep ∨ ∃ i, e.owner.slot? = some i ∧ s.CanFail i u)

section
variable {s : State} {p : PortId} {e : Entry} {u : TileNum}

theorem State.canFail_endEntry (b : Bool) (i : SlotNum) : (s.endEntry p e b).CanFail i u ↔ s.CanFail i u := by
  have hjob := s.endEntry_job p e b i
  unfold State.CanFail
  rw [hjob]
  split
  · simp only [Option.map_eq_some_iff]
    constructor
    · rintro ⟨_, q, ⟨j, hj, rfl⟩, hq, hfail⟩
      exact ⟨j, q, hj, hq, hfail⟩
    · rintro ⟨j, q, hj, hq, hfail⟩
      exact ⟨_, q, ⟨j, hj, rfl⟩, hq, hfail⟩
  · rfl

/-- The entry's end with the credits and the configuration flag of its tile cleared. -/
def State.clearedEnd (s : State) (p : PortId) (e : Entry) : State :=
  (s.endEntry p e true).modTile e.tile fun r => { r with credits := 0, configInFlight := false }

theorem State.cutEntry_eq : State.cutEntry p s e = match e.owner with
    | .job i _ => (s.clearedEnd p e).failPart i e.tile .linkLost
    | .autoSleep => (s.clearedEnd p e).setError e.tile .linkLost
    | .enumeration => s.clearedEnd p e := rfl

theorem State.lastError_clearedEnd (u : TileNum) : ((s.clearedEnd p e).tile u).lastError = (s.tile u).lastError := by
  unfold State.clearedEnd
  rw [State.tile_modTile]
  by_cases hu : e.tile = u
  · rw [if_pos hu, State.endEntry_tile, if_pos rfl, ← hu]
  · rw [if_neg hu, State.endEntry_tile, if_neg hu]

theorem State.lastError_cutEntry_of_marks (h : s.Marks e u) : ((State.cutEntry p s e).tile u).lastError = some .linkLost := by
  obtain ⟨rfl, h⟩ := h
  rw [State.cutEntry_eq]
  cases ho : e.owner with
  | job i n =>
    rw [ho] at h
    obtain ⟨k, hk, hcan⟩ := h.resolve_left Owner.noConfusion
    obtain rfl : i = k := Option.some.inj hk
    have hcan : (s.clearedEnd p e).CanFail i e.tile := (State.canFail_endEntry true i).2 hcan
    exact (congrArg TileEntry.lastError (State.tile_failPart hcan _)).trans (TileEntry.lastError_failed rfl _ _)
  | autoSleep =>
    refine (congrArg TileEntry.lastError (State.tile_modTile _ _ _ _)).trans ?_
    rw [if_pos rfl]
  | enumeration =>
    rw [ho] at h
    obtain ⟨k, hk, -⟩ := h.resolve_left Owner.noConfusion
    exact absurd hk nofun

theorem State.lastError_cutEntry_of_not_marks (h : ¬ s.Marks e u) :
    ((State.cutEntry p s e).tile u).lastError = (s.tile u).lastError := by
  rw [State.cutEntry_eq]
  cases ho : e.owner with
  | job i n =>
    dsimp only
    by_cases hu : e.tile = u
    · have hcan : ¬ (s.clearedEnd p e).CanFail i e.tile := fun hc =>
        h ⟨hu.symm, .inr ⟨i, by rw [ho]; rfl, hu ▸ (State.canFail_endEntry true i).1 hc⟩⟩
      rw [State.failPart_eq_self hcan, State.lastError_clearedEnd]
    · rw [State.tile_failPart_ne hu, State.lastError_clearedEnd]
  | autoSleep =>
    dsimp only
    have hu : e.tile ≠ u := fun hu => h ⟨hu.symm, .inl ho⟩
    unfold State.setError
    rw [State.tile_modTile, if_neg hu, State.lastError_clearedEnd]
  | enumeration => exact State.lastError_clearedEnd u

end

end Sys2Proof.Machine
end

section
/-! All entries of a port cut together, as the port is lost or its chain reset begins (R135, R143). -/

namespace Sys2Proof.Machine

/-! ## The port -/

theorem Port.cut_eq (v : Port) (e : Entry) : v.cut e = { v with
    inFlight := v.inFlight.filter (fun f => decide (f.tag ≠ e.tag)), quarantined := v.quarantined ||| (1#16 <<< e.tag.val),
    cutWrites := v.cutWrites ++ e.writeUnderWay } := Port.keepWrite_eq _ e

/-- The quarantined tags together with those of the entries. -/
def quarantineTags (q : BitVec 16) (l : List Entry) : BitVec 16 := l.foldl (fun q e => q ||| (1#16 <<< e.tag.val)) q

theorem getLsbD_quarantineTags {l : List Entry} (q : BitVec 16) (n : Nat) :
    (quarantineTags q l).getLsbD n = true ↔ q.getLsbD n = true ∨ ∃ e ∈ l, e.tag.val = n := by
  induction l generalizing q with
  | nil => simp [quarantineTags]
  | cons e l ih =>
    have hbit : (1#16 <<< e.tag.val).getLsbD n = true ↔ e.tag.val = n := by
      have htag := e.tag.isLt
      rw [BitVec.getLsbD_shiftLeft]
      simp only [BitVec.getLsbD_one]
      constructor
      · intro h
        simp at h
        omega
      · rintro rfl
        simp [htag]
    refine (ih (q ||| (1#16 <<< e.tag.val))).trans ?_
    rw [BitVec.getLsbD_or, Bool.or_eq_true, hbit]
    simp only [List.mem_cons, exists_eq_or_imp, or_assoc]

theorem Port.foldl_cut (l : List Entry) (v : Port) : l.foldl Port.cut v = { v with
    inFlight := v.inFlight.filter (fun f => decide (∀ e ∈ l, f.tag ≠ e.tag)),
    quarantined := quarantineTags v.quarantined l, cutWrites := v.cutWrites ++ l.flatMap Entry.writeUnderWay } := by
  induction l generalizing v with
  | nil => simp [quarantineTags]
  | cons e l ih =>
    rw [List.foldl_cons, ih, Port.cut_eq]
    simp [quarantineTags, List.filter_filter, Bool.and_comm, List.append_assoc]

theorem filter_tags_nil (l : List Entry) : l.filter (fun f => decide (∀ e ∈ l, f.tag ≠ e.tag)) = [] :=
  List.filter_eq_nil_iff.2 fun f hf h => of_decide_eq_true h f hf rfl

section
variable (s : State) (p : PortId)

theorem State.port_foldl_cutEntry (l : List Entry) (s : State) :
    (l.foldl (State.cutEntry p) s).port p = l.foldl Port.cut (s.port p) := by
  induction l generalizing s with
  | nil => rfl
  | cons e l ih => rw [List.foldl_cons, ih, State.port_cutEntry, List.foldl_cons]

theorem State.port_cutEntries : (s.cutEntries p).port p = { s.port p with
    inFlight := [], quarantined := quarantineTags (s.port p).quarantined (s.port p).inFlight,
    cutWrites := (s.port p).cutWrites ++ (s.port p).inFlight.flatMap Entry.writeUnderWay } := by
  unfold State.cutEntries
  rw [State.port_foldl_cutEntry, Port.foldl_cut, filter_tags_nil]

theorem State.port_cutEntries_ne {q : PortId} (h : q ≠ p) : (s.cutEntries p).port q = s.port q :=
  foldl_keeps (fun s => s.port q) (fun s e => s.port_cutEntry_ne p e h) _ s

theorem State.lasting_cutEntries (u : TileNum) : ((s.cutEntries p).tile u).lasting = (s.tile u).lasting :=
  foldl_keeps (fun s => (s.tile u).lasting) (fun s e => s.lasting_cutEntry p e u) _ s

theorem State.fields_cutEntries : (s.cutEntries p).body = s.body ∧ (s.cutEntries p).notice = s.notice ∧
    (s.cutEntries p).waitList = s.waitList :=
  ⟨foldl_keeps State.body (fun s e => (s.fields_cutEntry p e).1) _ s,
    foldl_keeps State.notice (fun s e => (s.fields_cutEntry p e).2.1) _ s,
    foldl_keeps State.waitList (fun s e => (s.fields_cutEntry p e).2.2) _ s⟩

theorem State.slot_foldl_cutEntry (k : SlotNum) (l : List Entry) (s : State) : (l.foldl (State.cutEntry p) s).slot k =
    (s.slot k).mapJob fun j => (l.filter fun e => decide (e.owner.slot? = some k)).foldl Job.cut j := by
  induction l generalizing s with
  | nil => exact (Slot.mapJob_id _).symm
  | cons e l ih =>
    rw [List.foldl_cons, ih, State.slot_cutEntry, List.filter_cons]
    by_cases h : e.owner.slot? = some k
    · rw [if_pos h, if_pos (decide_eq_true h), Slot.mapJob_mapJob]
      rfl
    · rw [if_neg h, if_neg (by rw [decide_eq_true_iff]; exact h)]

theorem State.bare_foldl_cutEntry {u : TileNum} (l : List Entry) (s : State) (h : (∃ e ∈ l, e.tile = u) ∨ (s.tile u).Bare) :
    ((l.foldl (State.cutEntry p) s).tile u).Bare := by
  induction l generalizing s with
  | nil => exact h.resolve_left (by simp)
  | cons e l ih =>
    refine ih _ ?_
    rcases h with ⟨f, hf, hu⟩ | h
    · rcases List.mem_cons.1 hf with rfl | hf
      · exact .inr (s.bare_cutEntry p f u (.inl hu.symm))
      · exact .inl ⟨f, hf, hu⟩
    · exact .inr (s.bare_cutEntry p e u (.inr h))

end

/-! ## Last errors -/

/-- Tile `u` takes LINK_LOST with the cut of the entries: one of them marks it, or it has it. -/
def State.LinkLost (s : State) (l : List Entry) (u : TileNum) : Prop :=
  (s.tile u).lastError = some .linkLost ∨ ∃ e ∈ l, s.Marks e u

/-- Which entries mark the tile stands as the entry of another tile, or of a job of no part on it, is cut. -/
theorem State.Marks.cutEntry {s : State} {p : PortId} {e f : Entry} {u : TileNum} (h : s.Marks f u) (he : ¬ s.Marks e u) :
    (State.cutEntry p s e).Marks f u := by
  obtain ⟨hu, howner⟩ := h
  refine ⟨hu, howner.imp_right ?_⟩
  rintro ⟨i, hi, j, q, hj, hq, hfail⟩
  refine ⟨i, hi, ?_⟩
  have hslot := s.slot_cutEntry p e i
  by_cases hown : e.owner.slot? = some i
  · have htile : e.tile ≠ u := fun htile => he ⟨htile.symm, .inr ⟨i, hown, j, q, hj, hq, hfail⟩⟩
    rw [if_pos hown, State.slot_of_job hj] at hslot
    exact ⟨j.cut e, q, (congrArg Slot.job? hslot :), (Job.part?_failPart_ne htile _ _).trans hq, hfail⟩
  · rw [if_neg hown] at hslot
    exact ⟨j, q, (State.job_of_slot hslot).trans hj, hq, hfail⟩

theorem State.LinkLost.cutEntry {s : State} {p : PortId} {e : Entry} {l : List Entry} {u : TileNum}
    (h : s.LinkLost (e :: l) u) : (State.cutEntry p s e).LinkLost l u := by
  by_cases he : s.Marks e u
  · exact .inl (State.lastError_cutEntry_of_marks he)
  · rcases h with h | ⟨f, hf, hmark⟩
    · exact .inl ((State.lastError_cutEntry_of_not_marks he).trans h)
    · rcases List.mem_cons.1 hf with rfl | hf
      · exact absurd hmark he
      · exact .inr ⟨f, hf, hmark.cutEntry he⟩

theorem State.LinkLost.cutEntries {s : State} {p : PortId} {l m : List Entry} {u : TileNum}
    (h : s.LinkLost (l ++ m) u) : (l.foldl (State.cutEntry p) s).LinkLost m u := by
  induction l generalizing s with
  | nil => exact h
  | cons e l ih => exact ih h.cutEntry

end Sys2Proof.Machine
end

section
/-! The bring-up of a port: locks, attempts, ENUMERATE (R131 to R145, R170). -/

namespace Sys2Proof.Machine

theorem EventFrame.lasting {s t : State} (h : EventFrame s t) (u : TileNum) : (t.tile u).lasting = (s.tile u).lasting :=
  TileEntry.lasting_of_eraseWork (h.tile u)

theorem TileEntry.state_of_lasting {e f : TileEntry} (h : f.lasting = e.lasting) : f.state = e.state :=
  (congrArg TileEntry.state h :)

theorem EventFrame.state {s t : State} (h : EventFrame s t) (u : TileNum) : (t.tile u).state = (s.tile u).state :=
  TileEntry.state_of_lasting (h.lasting u)

section
variable (s : State) (p : PortId)

/-- The port as it enters TRAINING. -/
def Port.train (now : Word) (v : Port) : Port :=
  { v with state := .training, attempt := 1, attemptDue := some (plusMs now 50), rxLock := false, tileLock := false,
           waitDue := none, probing := none }

theorem State.port_enterTraining : (s.enterTraining p).port p = (s.port p).train s.now :=
  State.port_modPort _ _ _

/-- The port as it enters ENUMERATING, its entries cut. -/
def Port.enumerate (now : Word) (v : Port) : Port :=
  { v with state := .enumerating, attempt := 0, attemptDue := none, waitDue := some (plusMs now 10), probing := none,
           transmitting := some ⟨.reset, 15, 0, false, []⟩, inFlight := [],
           quarantined := quarantineTags v.quarantined v.inFlight,
           cutWrites := v.cutWrites ++ v.inFlight.flatMap Entry.writeUnderWay }

theorem State.port_enterEnumerating : (s.enterEnumerating p).port p = (s.port p).enumerate s.now := by
  refine (State.port_modPort _ _ _).trans ?_
  rw [State.port_cutEntries]
  rfl

theorem State.port_enterEnumerating_ne {q : PortId} (h : q ≠ p) : (s.enterEnumerating p).port q = s.port q :=
  (State.port_modPort_ne _ _ h).trans (s.port_cutEntries_ne p h)

theorem State.notice_enterEnumerating : (s.enterEnumerating p).notice.port = true := rfl

end

theorem State.notice_modPort (s : State) (p : PortId) (f : Port → Port) : (s.modPort p f).notice = s.notice := by simp

theorem State.tiles_modPort (s : State) (p : PortId) (f : Port → Port) : (s.modPort p f).tiles = s.tiles := by simp

/-! ## Locks (R131, R132) -/

section
variable (s : State) (p : PortId)

theorem State.modPort_eq_setPort (f : Port → Port) : s.modPort p f = s.setPort p (f (s.port p)) := rfl

/-- Training ends at the second lock: the port enumerates at this event. -/
theorem finish_lockedBoth (f : Port → Port) :
    let t := finish s ((s.modPort p f).enterEnumerating p)
    (t.port p).state = .enumerating ∧ (t.port p).inFlight = [] ∧ (t.port p).attemptDue = none ∧
      (t.port p).waitDue = some (plusMs s.now 10) ∧ (t.port p).transmitting = some ⟨.reset, 15, 0, false, []⟩ ∧
      t.notice.port = true ∧ (∀ q, q ≠ p → t.port q = s.port q) ∧ t.engine = s.engine := by
  intro t
  have hframe : EventFrame ((s.modPort p f).enterEnumerating p) t := finish_frame _ _
  have hport : t.port p = (f (s.port p)).enumerate s.now := by
    rw [hframe.port, State.port_enterEnumerating, State.port_modPort, State.now_of_body (State.body_modPort s p f)]
  refine ⟨by rw [hport]; rfl, by rw [hport]; rfl, by rw [hport]; rfl, by rw [hport]; rfl, by rw [hport]; rfl,
    hframe.portNotice, fun q hq => ?_, ?_⟩
  · rw [hframe.port, State.port_enterEnumerating_ne _ _ hq, State.port_modPort_ne _ _ hq]
  · rw [hframe.engine, State.engine_of_body (State.body_enterEnumerating _ p), State.engine_of_body (State.body_modPort s p f)]

end

/-- Settles O45. -/
theorem locksGained : Obligations.LocksGained := by
  unfold Obligations.LocksGained
  intro s p hlow
  have hrx : exec (.receiverLock p) s = .next (receiverLockEffect p s) := exec_of_high hlow rfl
  have htl : exec (.tileLock p) s = .next (tileLockEffect p s) := exec_of_high hlow rfl
  rw [hrx, htl]
  refine ⟨fun hst => ⟨fun htile => ?_, fun hrec => ?_, ?_⟩, fun hst => ?_, fun hst => ?_⟩
  · unfold receiverLockEffect
    rw [hst]
    exact congrArg _ (if_neg (by rw [htile]; exact Bool.false_ne_true))
  · unfold tileLockEffect
    rw [hst]
    exact congrArg _ (if_neg (by rw [hrec]; exact Bool.false_ne_true))
  · rintro c (⟨rfl, htile⟩ | ⟨rfl, hrec⟩)
    · refine ⟨_, hrx, ?_⟩
      have heffect : receiverLockEffect p s =
          finish s ((s.modPort p fun v => { v with rxLock := true }).enterEnumerating p) := by
        unfold receiverLockEffect
        rw [hst]
        dsimp only
        exact if_pos htile
      rw [heffect]
      exact finish_lockedBoth s p _
    · refine ⟨_, htl, ?_⟩
      have heffect : tileLockEffect p s =
          finish s ((s.modPort p fun v => { v with tileLock := true }).enterEnumerating p) := by
        unfold tileLockEffect
        rw [hst]
        dsimp only
        exact if_pos hrec
      rw [heffect]
      exact finish_lockedBoth s p _
  · unfold receiverLockEffect tileLockEffect
    rcases hst with hst | hst
    all_goals
      rw [hst]
      exact ⟨rfl, rfl⟩
  · unfold receiverLockEffect tileLockEffect
    rcases hst with hst | hst
    all_goals
      rw [hst]
      exact ⟨rfl, rfl⟩

/-! ## A port's tiles changed together -/

/-- Nothing but tile entries differs. -/
def TilesOnly (s t : State) : Prop := t = { s with tiles := t.tiles }

namespace TilesOnly

variable {s t u : State}

theorem refl (s : State) : TilesOnly s s := rfl

theorem trans (h : TilesOnly s t) (g : TilesOnly t u) : TilesOnly s u := by
  unfold TilesOnly at h g ⊢
  rw [h] at g
  exact g

theorem ports (h : TilesOnly s t) : t.ports = s.ports := (congrArg State.ports h :)
theorem port (h : TilesOnly s t) (p : PortId) : t.port p = s.port p := State.port_of_ports h.ports p
theorem slots (h : TilesOnly s t) : t.slots = s.slots := (congrArg State.slots h :)
theorem now (h : TilesOnly s t) : t.now = s.now := (congrArg State.now h :)
theorem engine (h : TilesOnly s t) : t.engine = s.engine := (congrArg State.engine h :)
theorem settings (h : TilesOnly s t) : t.settings = s.settings := (congrArg State.settings h :)
theorem notice (h : TilesOnly s t) : t.notice = s.notice := (congrArg State.notice h :)
theorem waitList (h : TilesOnly s t) : t.waitList = s.waitList := (congrArg State.waitList h :)
theorem body (h : TilesOnly s t) : t.body = s.body := (congrArg State.body h :)

theorem modTile (s : State) (x : TileNum) (f : TileEntry → TileEntry) : TilesOnly s (s.modTile x f) := rfl

theorem foldl {f : State → TileNum → State} (hf : ∀ s x, TilesOnly s (f s x)) (l : List TileNum) (s : State) :
    TilesOnly s (l.foldl f s) :=
  foldl_rel refl (fun _ _ _ => trans) hf l s

/-- The fold of an operation that changes each tile's own entry by a rule that may speak of the time. -/
theorem tile_foldl {f : State → TileNum → State} {F : Word → TileEntry → TileEntry} (hf : ∀ s x, TilesOnly s (f s x))
    (htile : ∀ s x u, (f s x).tile u = if x = u then F s.now (s.tile x) else s.tile u) {l : List TileNum} (hl : l.Nodup)
    (s : State) (u : TileNum) : (l.foldl f s).tile u = if u ∈ l then F s.now (s.tile u) else s.tile u :=
  State.tile_foldl_of_nodup (P := fun t => t.now = s.now) (F := fun _ => F s.now) (fun t x h => (hf t x).now.trans h)
    (fun t x h k => (htile t x k).trans (by rw [h])) l hl rfl u

end TilesOnly

theorem nodup_portTiles (p : PortId) : (portTiles p).Nodup := by cases p <;> decide

theorem mem_portTiles {p : PortId} {x : TileNum} : x ∈ portTiles p ↔ portOf x = p := by
  refine ⟨portOf_of_mem_portTiles, ?_⟩
  revert x
  cases p <;> decide

theorem tileOf_positionOf {p : PortId} {x : TileNum} (h : portOf x = p) : tileOf p (positionOf x) = x := by
  revert x
  cases p <;> decide

/-- Tiles of the list enter a state. -/
def State.enterTiles (s : State) (l : List TileNum) (st : TileState) : State := l.foldl (fun s t => s.enterTile t st) s

theorem State.tilesOnly_enterTiles (s : State) (l : List TileNum) (st : TileState) : TilesOnly s (s.enterTiles l st) :=
  TilesOnly.foldl (fun s x => .modTile s x _) l s

theorem State.tile_enterTiles (s : State) {l : List TileNum} (hl : l.Nodup) (st : TileState) (u : TileNum) :
    (s.enterTiles l st).tile u = if u ∈ l then (s.tile u).enter s.now st else s.tile u :=
  TilesOnly.tile_foldl (F := fun now => TileEntry.enter now st) (fun s x => .modTile s x _)
    (fun s x u => s.tile_modTile x u _) hl s u

theorem TileEntry.enter_absent (now : Word) (e : TileEntry) : (e.enter now .absent).state = .absent ∧
    (e.enter now .absent).identity = none ∧ (e.enter now .absent).geometry = none ∧ (e.enter now .absent).shown = none ∧
    (e.enter now .absent).window = none ∧ (e.enter now .absent).band = none ∧ (e.enter now .absent).roll = none :=
  ⟨rfl, rfl, rfl, rfl, rfl, rfl, rfl⟩

/-! ## Attempts (R132, R134, R144) -/

theorem State.attemptFailed_early {s : State} {p : PortId} (h : (s.port p).attempt < 3) : s.attemptFailed p =
    s.modPort p fun v => { v with attempt := v.attempt + 1, attemptDue := some (plusMs s.now 50) } := if_pos h

/-- The port FAILED, its tiles as they were. -/
def State.portGivenUp (s : State) (p : PortId) : State :=
  s.modPort p fun v => { v with state := .failed, attempt := 0, attemptDue := none, rxLock := false, tileLock := false }

theorem State.attemptFailed_last {s : State} {p : PortId} (h : 3 ≤ (s.port p).attempt) : s.attemptFailed p =
    ((s.portGivenUp p).enterTiles (portTiles p) .absent).raise .port := if_neg (Nat.not_lt.2 h)

section
variable {s u : State} {p : PortId} (before : State)
  (hu : u.port p = { s.port p with rxLock := (u.port p).rxLock, tileLock := (u.port p).tileLock })
  (hne : ∀ q, q ≠ p → u.port q = s.port q) (htiles : u.tiles = s.tiles) (hbody : u.body = s.body)
  (hnotice : u.notice = s.notice)

include hne hbody in
theorem finish_attemptFailed_rest : (∀ q, q ≠ p → (finish before (u.attemptFailed p)).port q = s.port q) ∧
    (finish before (u.attemptFailed p)).engine = s.engine := by
  have hframe : EventFrame (u.attemptFailed p) (finish before (u.attemptFailed p)) := finish_frame _ _
  rw [hframe.engine]
  refine ⟨fun q hq => ?_, (State.engine_of_body (State.body_attemptFailed u p)).trans (State.engine_of_body hbody)⟩
  rw [hframe.port, ← hne q hq]
  by_cases h : (u.port p).attempt < 3
  · rw [State.attemptFailed_early h, State.port_modPort_ne _ _ hq]
  · rw [State.attemptFailed_last (Nat.not_lt.1 h)]
    have hkeep := ((u.portGivenUp p).tilesOnly_enterTiles (portTiles p) .absent).port q
    generalize (u.portGivenUp p).enterTiles (portTiles p) .absent = v at hkeep
    exact hkeep.trans (State.port_modPort_ne _ _ hq)

include hu hbody htiles hnotice in
theorem finish_attemptFailed_early (h : (s.port p).attempt < 3) :
    let t := finish before (u.attemptFailed p)
    (t.port p).state = (s.port p).state ∧ (t.port p).attempt = (s.port p).attempt + 1 ∧
      (t.port p).attemptDue = some (plusMs s.now 50) ∧ t.notice.port = s.notice.port ∧
      ∀ x, (t.tile x).state = (s.tile x).state := by
  intro t
  have hframe : EventFrame (u.attemptFailed p) t := finish_frame _ _
  have hattempt : (u.port p).attempt = (s.port p).attempt := by rw [hu]
  have hstate : (u.port p).state = (s.port p).state := by rw [hu]
  have heq : u.attemptFailed p = u.modPort p fun v =>
      { v with attempt := v.attempt + 1, attemptDue := some (plusMs s.now 50) } := by
    rw [State.attemptFailed_early (by rw [hattempt]; exact h), State.now_of_body hbody]
  rw [heq] at hframe
  rw [hframe.port, State.port_modPort, hframe.portNotice, State.notice_modPort, hnotice, hattempt, hstate]
  refine ⟨rfl, rfl, rfl, rfl, fun x => ?_⟩
  rw [hframe.state, State.tile_of_tiles (State.tiles_modPort _ _ _), State.tile_of_tiles htiles]

include hu htiles in
theorem finish_attemptFailed_last (h : 3 ≤ (s.port p).attempt) :
    let t := finish before (u.attemptFailed p)
    (t.port p).state = .failed ∧ (t.port p).attemptDue = none ∧ t.notice.port = true ∧
      (t.port p).quarantined = (s.port p).quarantined ∧
      (∀ d, (t.tile (tileOf p d)).state = .absent ∧ (t.tile (tileOf p d)).identity = none ∧
        (t.tile (tileOf p d)).geometry = none ∧ (t.tile (tileOf p d)).window = none) ∧
      ∀ q d, q ≠ p → (t.tile (tileOf q d)).state = (s.tile (tileOf q d)).state := by
  intro t
  have hframe : EventFrame (u.attemptFailed p) t := finish_frame _ _
  have hattempt : (u.port p).attempt = (s.port p).attempt := by rw [hu]
  have hport : (u.portGivenUp p).port p = { u.port p with
      state := .failed, attempt := 0, attemptDue := none, rxLock := false, tileLock := false } := State.port_modPort _ _ _
  have htile (x : TileNum) : (u.portGivenUp p).tile x = s.tile x :=
    (State.tile_of_tiles (State.tiles_modPort _ _ _) x).trans (State.tile_of_tiles htiles x)
  have honly := (u.portGivenUp p).tilesOnly_enterTiles (portTiles p) .absent
  have henter := (u.portGivenUp p).tile_enterTiles (nodup_portTiles p) .absent
  rw [State.attemptFailed_last (by rw [hattempt]; exact h)] at hframe
  generalize (u.portGivenUp p).enterTiles (portTiles p) .absent = v at hframe honly henter
  have htp : t.port p = (u.portGivenUp p).port p := (hframe.port p).trans (honly.port p)
  rw [htp, hport]
  refine ⟨rfl, rfl, by rw [hframe.portNotice]; rfl, by rw [hu], fun d => ?_, fun q d hq => ?_⟩
  · have hd : v.tile (tileOf p d) = ((u.portGivenUp p).tile (tileOf p d)).enter (u.portGivenUp p).now .absent :=
      (henter _).trans (if_pos (mem_portTiles.2 (portOf_tileOf p d)))
    have hwork := hframe.tile (tileOf p d)
    obtain ⟨hstate, hid, hgeo, -, hwin, -, -⟩ := TileEntry.enter_absent (u.portGivenUp p).now ((u.portGivenUp p).tile (tileOf p d))
    rw [← hd] at hstate hid hgeo hwin
    exact ⟨(congrArg TileEntry.state hwork :).trans hstate, (congrArg TileEntry.identity hwork :).trans hid,
      (congrArg TileEntry.geometry hwork :).trans hgeo, (congrArg TileEntry.window hwork :).trans hwin⟩
  · have hd : v.tile (tileOf q d) = (u.portGivenUp p).tile (tileOf q d) :=
      (henter _).trans (if_neg fun hmem => hq ((portOf_tileOf q d).symm.trans (mem_portTiles.1 hmem)))
    rw [← htile, ← hd]
    exact hframe.state _

end

/-- Settles O46. -/
theorem attemptsFail : Obligations.AttemptsFail := by
  unfold Obligations.AttemptsFail
  rintro s p c hlow hst (⟨due, rfl, hdue, hreach⟩ | ⟨rfl, hlock⟩)
  · have hexec : exec (.attemptTimerExpiry p) s = .next (attemptTimerExpiryEffect p s) := exec_of_high hlow rfl
    have heffect : attemptTimerExpiryEffect p s = finish s (s.attemptFailed p) :=
      if_pos ⟨hst, by rw [hdue]; exact hreach⟩
    rw [heffect] at hexec
    refine ⟨_, hexec, ?_⟩
    obtain ⟨hne, hengine⟩ := finish_attemptFailed_rest (s := s) (u := s) (p := p) s (fun _ _ => rfl) rfl
    refine ⟨hne, hengine, fun h => ?_, finish_attemptFailed_last s rfl rfl⟩
    rw [← hst]
    exact finish_attemptFailed_early s rfl rfl rfl rfl h
  · have hexec : exec (.hardError p) s = .next (hardErrorEffect p s) := exec_of_high hlow rfl
    have heffect : hardErrorEffect p s =
        finish s ((s.modPort p fun v => { v with rxLock := false, tileLock := false }).attemptFailed p) := by
      unfold hardErrorEffect
      rw [hst]
      exact if_pos hlock
    rw [heffect] at hexec
    refine ⟨_, hexec, ?_⟩
    have hport := State.port_modPort s p fun v => { v with rxLock := false, tileLock := false }
    have hother (q) (hq : q ≠ p) := State.port_modPort_ne s (fun v => { v with rxLock := false, tileLock := false }) hq
    have hbody := State.body_modPort s p fun v => { v with rxLock := false, tileLock := false }
    have hnotice := State.notice_modPort s p fun v => { v with rxLock := false, tileLock := false }
    have htiles := State.tiles_modPort s p fun v => { v with rxLock := false, tileLock := false }
    generalize (s.modPort p fun v => { v with rxLock := false, tileLock := false }) = u at *
    have hu : u.port p = { s.port p with rxLock := (u.port p).rxLock, tileLock := (u.port p).tileLock } := by rw [hport]
    obtain ⟨hne, hengine⟩ := finish_attemptFailed_rest s hother hbody
    refine ⟨hne, hengine, fun h => ?_, finish_attemptFailed_last s hu htiles⟩
    rw [← hst]
    exact finish_attemptFailed_early s hu htiles hbody hnotice h

end Sys2Proof.Machine
end

section
/-! ENUMERATE (R135, R145, R170). -/

namespace Sys2Proof.Machine

/-- The port after ENUMERATE (R145). -/
def Port.brought (now : Word) (v : Port) : Port :=
  match v.state with
  | .down | .failed => v.train now
  | .up => v.enumerate now
  | .training | .enumerating => v

section
variable {s : State} {p : PortId}

theorem State.enumeratePort_trains (h : (s.port p).state = .down ∨ (s.port p).state = .failed) :
    s.enumeratePort p = s.enterTraining p := by
  unfold State.enumeratePort
  rcases h with h | h
  all_goals rw [h]

theorem State.enumeratePort_up (h : (s.port p).state = .up) : s.enumeratePort p = s.enterEnumerating p := by
  unfold State.enumeratePort
  rw [h]

theorem State.enumeratePort_goesOn (h : (s.port p).state = .training ∨ (s.port p).state = .enumerating) :
    s.enumeratePort p = s := by
  unfold State.enumeratePort
  rcases h with h | h
  all_goals rw [h]

theorem PortState.cases (v : PortState) : (v = .down ∨ v = .failed) ∨ v = .up ∨ v = .training ∨ v = .enumerating := by
  cases v <;> decide

theorem State.port_enumeratePort (s : State) (p : PortId) : (s.enumeratePort p).port p = (s.port p).brought s.now := by
  unfold State.enumeratePort Port.brought
  cases (s.port p).state with
  | down => exact s.port_enterTraining p
  | failed => exact s.port_enterTraining p
  | up => exact s.port_enterEnumerating p
  | training => rfl
  | enumerating => rfl

theorem State.port_enumeratePort_ne (s : State) {q : PortId} (h : q ≠ p) : (s.enumeratePort p).port q = s.port q := by
  unfold State.enumeratePort
  cases (s.port p).state with
  | down => exact State.port_modPort_ne _ _ h
  | failed => exact State.port_modPort_ne _ _ h
  | up => exact s.port_enterEnumerating_ne p h
  | training => rfl
  | enumerating => rfl

/-- A port that begins to train or to enumerate says so; none takes the notice back. -/
theorem State.notice_enumeratePort (s : State) (p : PortId) :
    ((s.port p).state ≠ .training → (s.port p).state ≠ .enumerating → (s.enumeratePort p).notice.port = true) ∧
    (s.notice.port = true → (s.enumeratePort p).notice.port = true) := by
  unfold State.enumeratePort
  cases (s.port p).state with
  | down => exact ⟨fun _ _ => rfl, fun _ => rfl⟩
  | failed => exact ⟨fun _ _ => rfl, fun _ => rfl⟩
  | up => exact ⟨fun _ _ => rfl, fun _ => rfl⟩
  | training => exact ⟨fun h => absurd rfl h, id⟩
  | enumerating => exact ⟨fun _ h => absurd rfl h, id⟩

/-! ## Tiles of the entries cut -/

theorem State.tile_enterEnumerating (s : State) (p : PortId) (u : TileNum) :
    (s.enterEnumerating p).tile u = (s.cutEntries p).tile u := State.tile_of_tiles (State.tiles_modPort _ _ _) u

theorem State.job_enterEnumerating (s : State) (p : PortId) (i : SlotNum) :
    (s.enterEnumerating p).job i = (s.cutEntries p).job i := State.job_of_slots (State.modPort_fields _ _ _).2.2.2.2.2.2.2.2.2.2.2.2.2.2.1 i

theorem State.tile_enterTraining (s : State) (p : PortId) (u : TileNum) : (s.enterTraining p).tile u = s.tile u :=
  State.tile_of_tiles (State.tiles_modPort _ _ _) u

theorem State.LinkLost.congr {t : State} {l : List Entry} {u : TileNum} (htile : (t.tile u).lastError = (s.tile u).lastError)
    (hjob : ∀ i, t.job i = s.job i) (h : s.LinkLost l u) : t.LinkLost l u := by
  unfold State.LinkLost State.Marks State.CanFail
  simp only [htile, hjob]
  exact h

theorem State.lasting_enumeratePort (s : State) (p : PortId) (u : TileNum) :
    ((s.enumeratePort p).tile u).lasting = (s.tile u).lasting := by
  rcases PortState.cases (s.port p).state with h | h | h
  · rw [State.enumeratePort_trains h, State.tile_enterTraining]
  · rw [State.enumeratePort_up h, State.tile_enterEnumerating, State.lasting_cutEntries]
  · rw [State.enumeratePort_goesOn h]

theorem State.bare_enumeratePort {u : TileNum} (h : ((s.port p).state = .up ∧ ∃ e ∈ (s.port p).inFlight, e.tile = u) ∨
    (s.tile u).Bare) : ((s.enumeratePort p).tile u).Bare := by
  rcases PortState.cases (s.port p).state with hst | hst | hst
  · rw [State.enumeratePort_trains hst, State.tile_enterTraining]
    refine h.resolve_left fun h => ?_
    rw [h.1] at hst
    exact hst.elim PortState.noConfusion PortState.noConfusion
  · rw [State.enumeratePort_up hst, State.tile_enterEnumerating]
    exact State.bare_foldl_cutEntry p _ s (h.imp_left And.right)
  · rw [State.enumeratePort_goesOn hst]
    refine h.resolve_left fun h => ?_
    rw [h.1] at hst
    exact hst.elim PortState.noConfusion PortState.noConfusion

theorem State.LinkLost.enterEnumerating {l : List Entry} {u : TileNum} (h : s.LinkLost ((s.port p).inFlight ++ l) u) :
    (s.enterEnumerating p).LinkLost l u :=
  State.LinkLost.congr (congrArg TileEntry.lastError (s.tile_enterEnumerating p u)) (s.job_enterEnumerating p)
    (show (s.cutEntries p).LinkLost l u from h.cutEntries)

theorem State.LinkLost.append {l m : List Entry} {u : TileNum} (h : s.LinkLost m u) : s.LinkLost (l ++ m) u :=
  h.imp_right fun ⟨e, he, hmark⟩ => ⟨e, List.mem_append_right _ he, hmark⟩

theorem State.LinkLost.enumeratePort {l : List Entry} {u : TileNum} (h : s.LinkLost l u) (p : PortId) :
    (s.enumeratePort p).LinkLost l u := by
  rcases PortState.cases (s.port p).state with hst | hst | hst
  · rw [State.enumeratePort_trains hst]
    exact State.LinkLost.congr (congrArg TileEntry.lastError (s.tile_enterTraining p u))
      (fun i => State.job_of_slots (s.slots_enterTraining p) i) h
  · rw [State.enumeratePort_up hst]
    exact h.append.enterEnumerating
  · rw [State.enumeratePort_goesOn hst]
    exact h

theorem State.LinkLost.lastError {u : TileNum} (h : s.LinkLost [] u) : (s.tile u).lastError = some .linkLost :=
  h.resolve_right (by simp)

/-! ## Both ports -/

/-- Both ports are brought up. -/
def State.enumerateBoth (s : State) : State := (s.enumeratePort .A).enumeratePort .B

theorem State.port_enumerateBoth (s : State) (p : PortId) : s.enumerateBoth.port p = (s.port p).brought s.now := by
  have hnow : (s.enumeratePort .A).now = s.now := State.now_of_body (State.body_enumeratePort s .A)
  cases p with
  | A => exact (State.port_enumeratePort_ne _ PortId.noConfusion).trans (s.port_enumeratePort .A)
  | B =>
    refine (State.port_enumeratePort _ _).trans ?_
    rw [hnow, State.port_enumeratePort_ne _ (by decide)]

theorem State.notice_enumerateBoth (s : State) (p : PortId) (htrain : (s.port p).state ≠ .training)
    (henum : (s.port p).state ≠ .enumerating) : s.enumerateBoth.notice.port = true := by
  cases p with
  | A => exact (State.notice_enumeratePort _ .B).2 ((s.notice_enumeratePort .A).1 htrain henum)
  | B =>
    have hport : (s.enumeratePort .A).port .B = s.port .B := s.port_enumeratePort_ne (by decide)
    exact (State.notice_enumeratePort _ .B).1 (by rw [hport]; exact htrain) (by rw [hport]; exact henum)

theorem State.bare_enumerateBoth (hup : (s.port p).state = .up) {e : Entry} (he : e ∈ (s.port p).inFlight) :
    (s.enumerateBoth.tile e.tile).Bare := by
  cases p with
  | A => exact State.bare_enumeratePort (.inr (State.bare_enumeratePort (.inl ⟨hup, e, he, rfl⟩)))
  | B =>
    have hport : (s.enumeratePort .A).port .B = s.port .B := s.port_enumeratePort_ne (by decide)
    exact State.bare_enumeratePort (.inl (by rw [hport]; exact ⟨hup, e, he, rfl⟩))

theorem State.lastError_enumerateBoth (hup : (s.port p).state = .up) {e : Entry} (he : e ∈ (s.port p).inFlight)
    (hmark : s.Marks e e.tile) : (s.enumerateBoth.tile e.tile).lastError = some .linkLost := by
  have hlost : s.LinkLost ((s.port p).inFlight ++ []) e.tile := .inr ⟨e, by rwa [List.append_nil], hmark⟩
  cases p with
  | A =>
    have hA : (s.enumeratePort .A).LinkLost [] e.tile := by
      rw [State.enumeratePort_up hup]
      exact hlost.enterEnumerating
    exact (hA.enumeratePort .B).lastError
  | B =>
    have hport : (s.enumeratePort .A).port .B = s.port .B := s.port_enumeratePort_ne (by decide)
    have hA : (s.enumeratePort .A).LinkLost (((s.enumeratePort .A).port .B).inFlight ++ []) e.tile := by
      rw [hport]
      exact hlost.enumeratePort .A
    have hB : s.enumerateBoth.LinkLost [] e.tile := by
      unfold State.enumerateBoth
      rw [State.enumeratePort_up (by rw [hport]; exact hup)]
      exact hA.enterEnumerating
    exact hB.lastError

end

/-- Settles O44. -/
theorem enumerateTaken : Obligations.EnumerateTaken := by
  unfold Obligations.EnumerateTaken
  intro s hlow hoff
  have hexec : exec .enumerate s = .next (enumerateEffect s) := exec_of_high hlow rfl
  have heffect : enumerateEffect s = finish s s.enumerateBoth := if_pos hoff
  rw [heffect] at hexec
  have hframe : EventFrame s.enumerateBoth (finish s s.enumerateBoth) := finish_frame _ _
  have hbody : s.enumerateBoth.body = s.body := (State.body_enumeratePort _ .B).trans (State.body_enumeratePort s .A)
  have hlasting (x : TileNum) : (s.enumerateBoth.tile x).lasting = (s.tile x).lasting :=
    (State.lasting_enumeratePort _ .B x).trans (s.lasting_enumeratePort .A x)
  have hport (p : PortId) : (finish s s.enumerateBoth).port p = (s.port p).brought s.now :=
    (hframe.port p).trans (s.port_enumerateBoth p)
  refine ⟨_, hexec, hframe.engine.trans (State.engine_of_body hbody), hframe.fault.trans (State.fault_of_body hbody),
    hframe.settings.trans (State.settings_of_body hbody), hframe.now.trans (State.now_of_body hbody), fun p => ?_⟩
  rw [hframe.portNotice, hport]
  refine ⟨fun hst => ⟨?_, ?_⟩, fun hst => ?_, fun hup => ?_⟩
  · unfold Port.brought
    rcases hst with hst | hst
    all_goals
      rw [hst]
      rfl
  · refine s.notice_enumerateBoth p (fun h => ?_) (fun h => ?_)
    all_goals
      rw [h] at hst
      exact hst.elim PortState.noConfusion PortState.noConfusion
  · unfold Port.brought
    rcases hst with hst | hst
    all_goals rw [hst]
  · have hbrought : (s.port p).brought s.now = (s.port p).enumerate s.now := by
      unfold Port.brought
      rw [hup]
    rw [hbrought]
    refine ⟨rfl, rfl, rfl, rfl, s.notice_enumerateBoth p (by rw [hup]; decide) (by rw [hup]; decide), fun e he => ?_⟩
    obtain ⟨hcredits, hconfig⟩ := State.bare_enumerateBoth hup he
    have hwork := hframe.tile e.tile
    refine ⟨(getLsbD_quarantineTags _ _).2 (.inr ⟨e, he, rfl⟩), (congrArg TileEntry.credits hwork :).trans hcredits,
      (congrArg TileEntry.configInFlight hwork :).trans hconfig, fun hq hmark => ?_⟩
    have hidle : s.enumerateBoth.Idle :=
      (State.Idle.moves (State.Idle.moves (hq.runOnly.resolve_left fun h => by rw [h] at hoff; exact absurd hoff (by decide))
        (moves_enumeratePort s .A)) (moves_enumeratePort _ .B))
    rw [tile_finish_of_idle (fun x => (TileEntry.state_of_lasting (hlasting x)).symm) hidle]
    have herror := State.lastError_enumerateBoth hup he (s := s) ⟨rfl, hmark.imp_right fun ⟨i, n, j, q, ho, hj, hq, hfail⟩ =>
      ⟨i, by rw [ho]; rfl, j, q, hj, hq, hfail⟩⟩
    rcases State.closedEntry_cases s.enumerateBoth.resolveAll e.tile (s.enumerateBoth.tile e.tile) with h | h
    · rw [h, herror]
    · rw [h]
      exact herror

end Sys2Proof.Machine
end

section
/-! What becomes of a job whose tile part fails or completes at an event (R33 to R37). -/

namespace Sys2Proof.Machine

/-! ## The lowest failing part (R36) -/

theorem not_failing_of_lowestFailing_eq_none {ps : List TilePart} (h : lowestFailing ps = none) :
    ∀ q ∈ ps, ∀ c, q.cond ≠ .failing c := by
  induction ps with
  | nil => simp
  | cons q ps ih =>
    unfold lowestFailing at h
    split at h
    · split at h <;> cases h
    · cases h
    · next hrest hnone =>
      rw [List.forall_mem_cons]
      refine ⟨fun c hc => ?_, ih h⟩
      exact hnone c hc h

theorem lowestFailing_spec {ps : List TilePart} {x : TileNum} {c : ErrorCode} (h : lowestFailing ps = some (x, c)) :
    (∃ q ∈ ps, q.tile = x ∧ q.cond = .failing c) ∧ ∀ q ∈ ps, ∀ c', q.cond = .failing c' → x ≤ q.tile := by
  induction ps generalizing x c with
  | nil => cases h
  | cons q ps ih =>
    simp only [List.mem_cons, exists_eq_or_imp, forall_eq_or_imp]
    unfold lowestFailing at h
    split at h
    · next c₁ t c₂ hq hrest =>
      obtain ⟨hmem, hall⟩ := ih hrest
      split at h
      · next hlt =>
        cases h
        exact ⟨.inl ⟨rfl, hq⟩, fun _ _ => le_rfl, fun q' hq' c' hc' => hlt.le.trans (hall q' hq' c' hc')⟩
      · next hge =>
        cases h
        exact ⟨.inr hmem, fun _ _ => not_lt.1 hge, hall⟩
    · next c₁ hq hrest =>
      cases h
      exact ⟨.inl ⟨rfl, hq⟩, fun _ _ => le_rfl, fun q' hq' c' hc' =>
        absurd hc' (not_failing_of_lowestFailing_eq_none hrest q' hq' c')⟩
    · next hsome hnone =>
      obtain ⟨hmem, hall⟩ := ih h
      exact ⟨.inr hmem, fun c' hc' => absurd h (hsome c' x c hc'), hall⟩

theorem lowestFailing_eq_some {x : TileNum} {c : ErrorCode} {ps : List TilePart}
    (hmem : ∃ q ∈ ps, q.tile = x ∧ q.cond = .failing c)
    (hall : ∀ q ∈ ps, ∀ c', q.cond = .failing c' → x ≤ q.tile ∧ (q.tile = x → c' = c)) :
    lowestFailing ps = some (x, c) := by
  obtain ⟨q, hq, hx, hc⟩ := hmem
  cases h : lowestFailing ps with
  | none => exact absurd hc (not_failing_of_lowestFailing_eq_none h q hq c)
  | some v =>
    obtain ⟨y, c'⟩ := v
    obtain ⟨⟨q', hq', hy, hc'⟩, hlow⟩ := lowestFailing_spec h
    have hxy : y = x := le_antisymm (hx ▸ hlow q hq c hc) (hy ▸ (hall q' hq' c' hc').1)
    rw [hxy, (hall q' hq' c' hc').2 (hy.trans hxy)]

/-! ## Jobs apart from their tile parts -/

/-- The job without its tile parts and its count of transactions. -/
def Job.frame (j : Job) : Job := { j with parts := [], outstanding := 0 }

theorem Job.frame_setPart (x : TileNum) (f : TilePart → TilePart) (j : Job) : (j.setPart x f).frame = j.frame := rfl

theorem Job.frame_dropPart (x : TileNum) (j : Job) : (j.dropPart x).frame = j.frame := rfl

theorem Job.frame_failPart (x : TileNum) (c : ErrorCode) (j : Job) : (j.failPart x c).frame = j.frame := by
  unfold Job.failPart
  repeat' split
  all_goals rfl

theorem Job.frame_completePart (x : TileNum) (j : Job) : (j.completePart x).frame = j.frame := by
  unfold Job.completePart
  repeat' split
  all_goals rfl

theorem Job.frame_rejudge (x : TileNum) (v : Step → Verdict) (j : Job) : (j.rejudge x v).frame = j.frame := by
  have hjudged (v : Verdict) (f : Job → Job) (hf : (f j).frame = j.frame) : (j.judged x v f).frame = j.frame := by
    unfold Job.judged
    split
    · exact j.frame_failPart x _
    · exact hf
    · rfl
    · rfl
    · exact j.frame_completePart x
  unfold Job.rejudge
  repeat' split
  · exact hjudged _ _ rfl
  · exact hjudged _ _ rfl
  · exact hjudged _ _ rfl
  · unfold Job.judgedIssued
    split
    · exact j.frame_failPart x _
    · rfl
  all_goals rfl

theorem Job.phase_of_frame {j k : Job} (h : k.frame = j.frame) : k.phase = j.phase := (congrArg Job.phase h :)
theorem Job.current_of_frame {j k : Job} (h : k.frame = j.frame) : k.current = j.current := (congrArg Job.current h :)
theorem Job.steps_of_frame {j k : Job} (h : k.frame = j.frame) : k.steps = j.steps := (congrArg Job.steps h :)
theorem Job.stepsDone_of_frame {j k : Job} (h : k.frame = j.frame) : k.stepsDone = j.stepsDone :=
  (congrArg Job.stepsDone h :)
theorem Job.tolerated_of_frame {j k : Job} (h : k.frame = j.frame) : k.tolerated = j.tolerated :=
  (congrArg Job.tolerated h :)

theorem Job.step?_of_frame {j k : Job} (h : k.frame = j.frame) : k.step? = j.step? := by
  unfold Job.step?
  rw [Job.steps_of_frame h, Job.current_of_frame h]

theorem Job.flag_of_step {j : Job} {st : Step} (h : j.step? = some st) (f : Step → Bool) : j.flag f = f st := by
  unfold Job.flag
  rw [h]

/-! ## A job whose part fails (R34 to R36) -/

theorem Job.resolve_drains {k : Job} {x : TileNum} {c : ErrorCode} (hrun : k.phase = .running)
    (hlow : lowestFailing k.parts = some (x, c)) (htol : k.flag Step.tolerant = false) (f : TileNum → Bool) :
    (k.resolve f).phase = .draining ∧ (k.resolve f).firstFailure = some ⟨c, k.current, some x⟩ ∧
      (k.resolve f).stepsDone = k.stepsDone ∧ (k.resolve f).tolerated = k.tolerated := by
  unfold Job.resolve Job.countFailures
  rw [hrun, hlow, htol]
  exact ⟨rfl, rfl, rfl, rfl⟩

theorem Job.resolve_tolerates {k : Job} {x : TileNum} {c : ErrorCode} (hrun : k.phase = .running)
    (hlow : lowestFailing k.parts = some (x, c)) (htol : k.flag Step.tolerant = true) (f : TileNum → Bool) :
    k.resolve f = { k with
      tolerated := min 255 (k.tolerated + countFailing k.parts),
      parts := k.parts.filterMap fun q => settlePart (f q.tile) q } := by
  unfold Job.resolve Job.countFailures
  rw [hrun, hlow, htol]
  rfl

theorem countFailing_pos {q : TilePart} {c : ErrorCode} {ps : List TilePart} (hq : q ∈ ps) (hc : q.cond = .failing c) :
    1 ≤ countFailing ps :=
  List.length_pos_iff_exists_mem.2 ⟨q, List.mem_filter.2 ⟨hq, by rw [hc]⟩⟩

section
variable {s u : State} {i : SlotNum}

theorem job_resolved {k : Job} (hk : (State.rejudgeChanged s u).job i = some k) :
    (resolved s u).job i = some (k.resolve (u.hasInFlight i)) := by
  have hin : (State.rejudgeChanged s u).hasInFlight i = u.hasInFlight i :=
    funext fun x => (State.rejudgeChanged_frame s u).hasInFlight i x
  unfold resolved
  rw [← hin]
  exact congrArg Slot.job? ((State.slot_resolveAll _ i).trans (by rw [State.slot_of_job hk]))

theorem Job.stepOver_of_not_running {j : Job} (h : j.phase ≠ .running) : j.stepOver = false ∧ j.atEngineStep = false := by
  have hrun : j.phase.isRunning = false := Bool.eq_false_iff.2 fun hr => h (Phase.isRunning_iff.1 hr)
  unfold Job.stepOver Job.atEngineStep
  rw [hrun]
  exact ⟨rfl, rfl⟩

theorem job_finish_of_not_over {k : Job} (hk : (resolved s u).job i = some k) (hover : k.stepOver = false)
    (hengine : k.atEngineStep = false) : (finish s u).job i = some k := by
  have hslot : (finish s u).slot i = (resolved s u).slot i :=
    slot_finish_of_not_over (fun j hj => by rw [hk] at hj; cases hj; exact hover)
      (.inr fun j hj => by rw [hk] at hj; cases hj; exact hengine)
  exact (State.job_of_slot hslot).trans hk

/-- The lowest of the parts that fail at an event is the job's first failure, where its step is not TOLERANT (R36). -/
theorem job_finish_of_drains {k : Job} {x : TileNum} {c : ErrorCode} (hk : (State.rejudgeChanged s u).job i = some k)
    (hrun : k.phase = .running) (hlow : lowestFailing k.parts = some (x, c)) (htol : k.flag Step.tolerant = false) :
    ∃ j', (finish s u).job i = some j' ∧ j'.phase = .draining ∧ j'.firstFailure = some ⟨c, k.current, some x⟩ ∧
      j'.stepsDone = k.stepsDone ∧ j'.tolerated = k.tolerated := by
  obtain ⟨hphase, hrest⟩ := Job.resolve_drains hrun hlow htol (u.hasInFlight i)
  obtain ⟨hover, hengine⟩ := Job.stepOver_of_not_running (j := k.resolve (u.hasInFlight i)) (by rw [hphase]; decide)
  exact ⟨_, job_finish_of_not_over (job_resolved hk) hover hengine, hphase, hrest⟩

theorem Job.stepOver_of_parts {j : Job} {st : Step} (hst : j.step? = some st) (hengine : st.kind.isEngine = false)
    (hrun : j.phase = .running) : j.stepOver = j.parts.isEmpty ∧ j.atEngineStep = false := by
  unfold Job.stepOver Job.atEngineStep
  rw [hst, hrun]
  dsimp only
  rw [hengine]
  exact ⟨rfl, rfl⟩

/-- A job that goes on with other parts after a tolerated failure, or with its next step (R35, R37). -/
theorem job_finish_of_tolerates (hfatal : u.fatal = false) {k : Job} {st : Step} {x : TileNum} {c : ErrorCode}
    (hk : (State.rejudgeChanged s u).job i = some k) (hst : k.step? = some st) (hengine : st.kind.isEngine = false)
    (hrun : k.phase = .running) (hlow : lowestFailing k.parts = some (x, c)) (htol : st.tolerant = true) :
    ∃ j', (finish s u).job i = some j' ∧ min 255 (k.tolerated + 1) ≤ j'.tolerated ∧
      ((∃ q ∈ k.parts, settlePart (u.hasInFlight i q.tile) q ≠ none) → j'.phase = .running ∧ j'.current = k.current) := by
  have hres := Job.resolve_tolerates hrun hlow ((Job.flag_of_step hst _).trans htol) (u.hasInFlight i)
  have hjob := job_resolved hk
  obtain ⟨⟨q, hq, -, hc⟩, -⟩ := lowestFailing_spec hlow
  have hcount := countFailing_pos hq hc
  have htolerated : (k.resolve (u.hasInFlight i)).tolerated = min 255 (k.tolerated + countFailing k.parts) := by rw [hres]
  obtain ⟨hover, hatEngine⟩ := Job.stepOver_of_parts (j := k.resolve (u.hasInFlight i)) (st := st) (by rw [hres]; exact hst) hengine
    (by rw [hres]; exact hrun)
  by_cases hempty : (k.resolve (u.hasInFlight i)).parts.isEmpty = true
  · obtain ⟨j', hj', hahead, -⟩ := job_finish_of_over hfatal hjob (hover.trans hempty)
    have hle : min 255 (k.resolve (u.hasInFlight i)).tolerated ≤ min 255 j'.tolerated := hahead.tolerated
    refine ⟨j', hj', by omega, fun ⟨q', hq', hkeep⟩ => ?_⟩
    rw [hres, List.isEmpty_iff, List.filterMap_eq_nil_iff] at hempty
    exact absurd (hempty q' hq') hkeep
  · refine ⟨_, job_finish_of_not_over hjob (hover.trans (Bool.eq_false_iff.2 hempty)) hatEngine, by omega, fun _ => ?_⟩
    rw [hres]
    exact ⟨hrun, rfl⟩

end

/-! ## One tile's part, in a state between two events -/

theorem Quiet.engine_running {s : State} (hq : Quiet s) {i : SlotNum} {j : Job} (hj : s.job i = some j)
    (hrun : j.phase = .running) : s.engine = .running :=
  hq.runOnly.resolve_right fun hidle => by
    have := hidle i j hj
    rw [hrun] at this
    cases this

theorem Quiet.fatal {s u : State} (hq : Quiet s) {i : SlotNum} {j : Job} (hj : s.job i = some j) (hrun : j.phase = .running)
    (hfatal : u.fatal = s.fatal) : u.fatal = false :=
  hfatal.trans (State.fatal_of_running (hq.engine_running hj hrun))

theorem Job.mem_of_part? {j : Job} {x : TileNum} {q : TilePart} (h : j.part? x = some q) : q ∈ j.parts ∧ q.tile = x :=
  ⟨List.mem_of_find?_eq_some h, of_decide_eq_true (List.find?_some h :)⟩

/-- With one part failing and the others at rest, that part is the lowest failing. -/
theorem Job.lowestFailing_failPart {j : Job} {f : TileNum → Bool} (hset : j.Settled f) {x : TileNum} {q : TilePart}
    (hq : j.part? x = some q) (hfail : q.cond.hasFailed = false) (c : ErrorCode) :
    lowestFailing (j.failPart x c).parts = some (x, c) := by
  have hparts : (j.failPart x c).parts =
      j.parts.map fun q => if q.tile = x then { q with cond := .failing c, staging := .empty } else q := by
    rw [Job.failPart_part x c hq hfail]
    rfl
  obtain ⟨hmem, htile⟩ := Job.mem_of_part? hq
  rw [hparts]
  refine lowestFailing_eq_some ⟨_, List.mem_map.2 ⟨q, hmem, rfl⟩, ?_⟩ fun q' hq' c' hc' => ?_
  · rw [if_pos htile]
    exact ⟨htile, rfl⟩
  · obtain ⟨r, hr, rfl⟩ := List.mem_map.1 hq'
    by_cases h : r.tile = x
    · rw [if_pos h] at hc' ⊢
      exact ⟨h.ge, fun _ => (PartCond.failing.inj hc').symm⟩
    · rw [if_neg h] at hc'
      exact absurd hc' (hset.not_failing r hr c')

theorem settlePart_of_settled {b : Bool} {q : TilePart} (h : q.cond.hasFailed = true → b = true) : settlePart b q ≠ none := by
  unfold settlePart
  by_cases hfail : q.cond.hasFailed = true
  · rw [if_pos hfail, h hfail]
    exact Option.some_ne_none _
  · rw [if_neg hfail]
    exact Option.some_ne_none _

section
variable {s u : State} {i : SlotNum} {x : TileNum}

/-- A tile part that fails at an event by itself: a job of a step that is not TOLERANT drains with its code, another counts it
and goes on (R34 to R36). -/
theorem partFails_finish (hq : Quiet s) (hfatal : u.fatal = s.fatal) (hin : ∀ y, y ≠ x → u.hasInFlight i y = s.hasInFlight i y)
    {c : ErrorCode} (hfails : ∀ j q, s.job i = some j → j.phase = .running → j.part? x = some q → q.cond.hasFailed = false →
      ∃ n, (State.rejudgeChanged s u).job i = some ((({ j with outstanding := n } : Job)).failPart x c)) :
    PartFails s (finish s u) i x c := by
  intro j hj q hpart st hst hengine hrun hfail
  obtain ⟨n, hk⟩ := hfails j q hj hrun hpart hfail
  have hset : j.Settled (s.hasInFlight i) := hq.settled i j hj
  generalize hk' : (({ j with outstanding := n } : Job)).failPart x c = k at hk
  have hframe : k.frame = j.frame := hk' ▸ Job.frame_failPart x c _
  have hlow : lowestFailing k.parts = some (x, c) :=
    hk' ▸ Job.lowestFailing_failPart (j := { j with outstanding := n }) (hset.of_parts rfl) hpart hfail c
  have hkrun : k.phase = .running := (Job.phase_of_frame hframe).trans hrun
  have hkst : k.step? = some st := (Job.step?_of_frame hframe).trans hst
  refine ⟨fun htol => ?_, fun htol => ?_⟩
  · rw [← Job.current_of_frame hframe, ← Job.stepsDone_of_frame hframe, ← Job.tolerated_of_frame hframe]
    exact job_finish_of_drains hk hkrun hlow ((Job.flag_of_step hkst _).trans htol)
  · obtain ⟨j', hj', hcount, hgoes⟩ :=
      job_finish_of_tolerates (hq.fatal hj hrun hfatal) hk hkst hengine hkrun hlow htol
    rw [Job.current_of_frame hframe, Job.tolerated_of_frame hframe] at *
    refine ⟨j', hj', hcount, fun ⟨q', hq', hne⟩ => hgoes ⟨q', ?_, ?_⟩⟩
    · rw [← hk', Job.failPart_part x c (j := { j with outstanding := n }) hpart hfail]
      exact List.mem_map.2 ⟨q', hq', if_neg hne⟩
    · exact settlePart_of_settled fun h => (hin _ hne).trans (hset q' hq' h).2.2

/-- A tile part that leaves the pending tile parts: the job goes on with the last of them (R33, R37, R151). -/
theorem partLeaves_finish (hq : Quiet s) (hfatal : u.fatal = s.fatal) {n : Nat}
    (hleaves : ∀ j, s.job i = some j → (resolved s u).job i =
      some { j with parts := j.parts.filter fun q => decide (q.tile ≠ x), outstanding := j.outstanding - n }) :
    PartLeaves s (finish s u) i x n := by
  intro j hj st hst hengine rest
  have hk := hleaves j hj
  refine ⟨fun hstays => ?_, fun hrun hempty => ?_⟩
  · by_cases hrun : j.phase = .running
    · have hne : rest ≠ [] := hstays.resolve_left fun h => h hrun
      obtain ⟨hover, hat⟩ := Job.stepOver_of_parts (j := { j with parts := rest, outstanding := j.outstanding - n })
        hst hengine hrun
      exact job_finish_of_not_over hk (hover.trans (by rw [List.isEmpty_eq_false_iff]; exact hne)) hat
    · obtain ⟨hover, hat⟩ := Job.stepOver_of_not_running (j := { j with parts := rest, outstanding := j.outstanding - n }) hrun
      exact job_finish_of_not_over hk hover hat
  · obtain ⟨hover, -⟩ := Job.stepOver_of_parts (j := { j with parts := rest, outstanding := j.outstanding - n })
      hst hengine hrun
    obtain ⟨j', hj', hahead, hcurrent⟩ := job_finish_of_over (hq.fatal hj hrun hfatal) hk
      (hover.trans (List.isEmpty_iff.2 hempty))
    exact ⟨j', hj', hahead.stepsDone, fun h => hcurrent (Phase.isRunning_iff.2 h)⟩

/-- A job that has lost its part on one tile, and whose packets to other tiles are as they were, has nothing to settle. -/
theorem resolved_of_leaves (hq : Quiet s) (hin : ∀ y, y ≠ x → u.hasInFlight i y = s.hasInFlight i y) {j : Job} {m : Nat}
    (hj : s.job i = some j) (hk : (State.rejudgeChanged s u).job i =
      some { j with parts := j.parts.filter fun q => decide (q.tile ≠ x), outstanding := m }) :
    (resolved s u).job i = some { j with parts := j.parts.filter fun q => decide (q.tile ≠ x), outstanding := m } := by
  refine (job_resolved hk).trans (congrArg some (Job.resolve_eq_self fun q hmem hfail => ?_))
  obtain ⟨hmem, hne⟩ := List.mem_filter.1 hmem
  obtain ⟨hcond, hstaging, hflight⟩ := hq.settled i j hj q hmem hfail
  exact ⟨hcond, hstaging, (hin _ (of_decide_eq_true hne)).trans hflight⟩

end

end Sys2Proof.Machine
end

section
/-! What judging tile parts again leaves alone (R32, R69). -/

namespace Sys2Proof.Machine

/-- The job has no tile part on `x` that an event would judge: while it runs, its part on `x` has failed. -/
def Job.AtRestOn (x : TileNum) (j : Job) : Prop :=
  j.phase.isRunning = true → ∀ q, j.part? x = some q → q.cond.hasFailed = true

theorem Job.AtRestOn.of_none {x : TileNum} {j : Job} (h : j.part? x = none) : j.AtRestOn x := fun _ q hq => by
  rw [h] at hq
  cases hq

theorem Job.part?_dropPart_ne {x y : TileNum} (h : x ≠ y) (j : Job) : (j.dropPart x).part? y = j.part? y := by
  unfold Job.part? Job.dropPart
  rw [List.find?_filter]
  refine List.find?_congr fun q _ => ?_
  by_cases hq : q.tile = y
  · simp [hq, Ne.symm h]
  · simp [hq]

theorem Job.part?_completePart_ne {x y : TileNum} (h : x ≠ y) (j : Job) : (j.completePart x).part? y = j.part? y := by
  unfold Job.completePart
  repeat' split
  · rfl
  · rfl
  · exact Job.part?_dropPart_ne h j

theorem Job.part?_setCond_ne {x y : TileNum} (h : x ≠ y) (c : PartCond) (g : Staging) (j : Job) :
    (j.setPart x fun q => { q with cond := c, staging := g }).part? y = j.part? y :=
  (Job.part?_setPart (f := fun q => { q with cond := c, staging := g }) (fun _ => rfl) j x y).trans (if_neg h)

theorem Job.part?_judged_ne {x y : TileNum} (h : x ≠ y) {f : Job → Job} {j : Job} (hf : (f j).part? y = j.part? y)
    (v : Verdict) : (j.judged x v f).part? y = j.part? y := by
  unfold Job.judged
  split
  · exact Job.part?_failPart_ne h _ j
  · exact hf
  · exact Job.part?_setCond_ne h _ _ j
  · exact Job.part?_setCond_ne h _ _ j
  · exact Job.part?_completePart_ne h j

theorem Job.part?_rejudge_ne {x y : TileNum} (h : x ≠ y) (v : Step → Verdict) (j : Job) :
    (j.rejudge x v).part? y = j.part? y := by
  unfold Job.rejudge
  repeat' split
  · exact Job.part?_judged_ne h rfl _
  · exact Job.part?_judged_ne h (Job.part?_setCond_ne h _ _ j) _
  · exact Job.part?_judged_ne h (Job.part?_setCond_ne h _ _ j) _
  · unfold Job.judgedIssued
    split
    · exact Job.part?_failPart_ne h _ j
    · rfl
  all_goals rfl

theorem Job.AtRestOn.rejudge_ne {x y : TileNum} {j : Job} (h : j.AtRestOn y) (hne : x ≠ y) (v : Step → Verdict) :
    (j.rejudge x v).AtRestOn y := fun hrun q hq => by
  rw [Job.part?_rejudge_ne hne] at hq
  rw [Job.phase_of_frame (j.frame_rejudge x v)] at hrun
  exact h hrun q hq

theorem Job.AtRestOn.rejudge_eq_self {x : TileNum} {j : Job} (h : j.AtRestOn x) (v : Step → Verdict) : j.rejudge x v = j := by
  unfold Job.rejudge
  split
  · next hrun _ hq =>
    have hfail := h hrun _ hq
    split
    all_goals first
      | rfl
      | next hc => rw [hc] at hfail; cases hfail
  · rfl

section
variable (s : State) (i : SlotNum) {x u : TileNum}

theorem State.tile_completePart_ne (h : x ≠ u) : (s.completePart i x).tile u = s.tile u := by
  unfold State.completePart
  repeat' split
  all_goals simp [State.tile_modTile, h]

theorem State.tile_rejudgePart_ne (h : x ≠ u) : (s.rejudgePart i x).tile u = s.tile u := by
  unfold State.rejudgePart
  repeat' split
  all_goals simp [State.tile_failPart_ne h, State.tile_completePart_ne _ _ h]

theorem State.tile_rejudgeTile_ne (h : x ≠ u) : (s.rejudgeTile x).tile u = s.tile u :=
  foldl_keeps (fun s => s.tile u) (fun s i => s.tile_rejudgePart_ne i h) _ s

variable {s}

theorem State.rejudgePart_eq_self (h : ∀ j, s.job i = some j → j.AtRestOn x) : s.rejudgePart i x = s := by
  unfold State.rejudgePart
  split
  · rfl
  · next j hj =>
    split
    · next hrun _ hq =>
      have hfail := h j hj hrun _ hq
      dsimp only
      split
      all_goals first
        | rfl
        | next hc => rw [hc] at hfail; cases hfail
    · rfl

theorem State.rejudgeTile_eq_self (h : ∀ i j, s.job i = some j → j.AtRestOn x) : s.rejudgeTile x = s := by
  unfold State.rejudgeTile
  induction allSlots with
  | nil => rfl
  | cons i l ih => rw [List.foldl_cons, State.rejudgePart_eq_self i (h i), ih]

end

/-! ## At the end of an event -/

section
variable {before s : State}

/-- What one tile's judging again keeps of a state, all of it keeps. -/
theorem rejudgeChanged_induction {P : State → Prop} (h : P s) (hstep : ∀ u x, JobFrame s u →
    (before.tile x).state ≠ (s.tile x).state → P u → P (u.rejudgeTile x)) : P (State.rejudgeChanged before s) := by
  have hfold (l : List TileNum) : ∀ u, JobFrame s u → P u → P (l.foldl (fun s t =>
      if (before.tile t).state = (s.tile t).state then s else s.rejudgeTile t) u) := by
    induction l with
    | nil => exact fun u _ h => h
    | cons x l ih =>
      intro u hu hP
      rw [List.foldl_cons]
      by_cases hx : (before.tile x).state = (u.tile x).state
      · rw [if_pos hx]
        exact ih u hu hP
      · rw [if_neg hx]
        exact ih _ (hu.trans (u.rejudgeTile_frame x)) (hstep u x hu (by rw [← hu.tileState]; exact hx) hP)
  exact hfold allTiles s (.refl s) h

/-- What judging the parts of one tile again keeps of a job, the end of the event keeps as it judges. -/
theorem job_rejudgeChanged_keeps {P : Job → Prop} {i : SlotNum} {j : Job} (hj : s.job i = some j) (h : P j)
    (hstep : ∀ j x v, (before.tile x).state ≠ (s.tile x).state → P j → P (j.rejudge x v)) :
    ∃ k, (State.rejudgeChanged before s).job i = some k ∧ P k := by
  refine rejudgeChanged_induction (P := fun u => ∃ k, u.job i = some k ∧ P k) ⟨j, hj, h⟩ ?_
  rintro u x - hx ⟨k, hk, hP⟩
  exact ⟨_, (congrArg Slot.job? ((u.slot_rejudgeTile x i).trans (by rw [State.slot_of_job hk]))).trans rfl,
    hstep k x (fun st => u.judge st x) hx hP⟩

/-- A tile on which no job has a part to judge keeps its entry. -/
theorem tile_rejudgeChanged_of_atRest {x : TileNum} (h : ∀ i j, s.job i = some j → j.AtRestOn x) :
    (State.rejudgeChanged before s).tile x = s.tile x := by
  refine (rejudgeChanged_induction (P := fun u => u.tile x = s.tile x ∧ ∀ i j, u.job i = some j → j.AtRestOn x)
    ⟨rfl, h⟩ ?_).1
  rintro u y - - ⟨htile, hrest⟩
  by_cases hy : y = x
  · subst hy
    rw [State.rejudgeTile_eq_self hrest]
    exact ⟨htile, hrest⟩
  · refine ⟨(u.tile_rejudgeTile_ne hy).trans htile, fun i j hj => ?_⟩
    have hslot : (u.rejudgeTile y).job i = (u.job i).map (Job.rejudge y fun st => u.judge st y) :=
      (congrArg Slot.job? (u.slot_rejudgeTile y i)).trans (Slot.job?_mapJob _ _)
    rw [hslot, Option.map_eq_some_iff] at hj
    obtain ⟨k, hk, rfl⟩ := hj
    exact (hrest i k hk).rejudge_ne hy _

end

end Sys2Proof.Machine
end

section
/-! HARD_ERROR in UP and ENUMERATING (R143, R144). -/

namespace Sys2Proof.Machine

/-! ## The port lost -/

/-- The port with its transmission and its entries cut. -/
def State.portCut (s : State) (p : PortId) : State := (s.modPort p fun v => { v with transmitting := none }).cutEntries p

/-- The state as HARD_ERROR leaves it to the end of its event. -/
def State.portLost (s : State) (p : PortId) : State := ((s.portCut p).losePort p).enterTraining p

/-- A present tile of a lost port. -/
def TileEntry.lose (now : Word) (e : TileEntry) : TileEntry := if e.state.present then e.enter now .lost else e

theorem TileEntry.lose_cases (now : Word) (e : TileEntry) :
    (e.state.present = true ∧ e.lose now = e.enter now .lost) ∨ (e.state.present = false ∧ e.lose now = e) := by
  unfold TileEntry.lose
  cases h : e.state.present
  · exact .inr ⟨rfl, if_neg Bool.false_ne_true⟩
  · exact .inl ⟨rfl, if_pos rfl⟩

theorem TileEntry.enter_lost (now : Word) (e : TileEntry) : (e.enter now .lost).state = .lost ∧
    (e.enter now .lost).identity = e.identity ∧ (e.enter now .lost).window = e.window ∧
    (e.enter now .lost).credits = e.credits ∧ (e.enter now .lost).configInFlight = e.configInFlight ∧
    (e.enter now .lost).lastError = e.lastError := by
  unfold TileEntry.enter
  dsimp only
  split <;> exact ⟨rfl, rfl, rfl, rfl, rfl, rfl⟩

theorem TileEntry.lose_keeps (now : Word) (e : TileEntry) : (e.lose now).credits = e.credits ∧
    (e.lose now).configInFlight = e.configInFlight ∧ (e.lose now).lastError = e.lastError := by
  obtain ⟨-, -, -, hcredits, hconfig, herror⟩ := e.enter_lost now
  rcases e.lose_cases now with ⟨-, h⟩ | ⟨-, h⟩
  · rw [h]
    exact ⟨hcredits, hconfig, herror⟩
  · rw [h]
    exact ⟨rfl, rfl, rfl⟩

section
variable (s : State) (p : PortId)

theorem State.port_portCut : (s.portCut p).port p = { s.port p with
    transmitting := none, inFlight := [], quarantined := quarantineTags (s.port p).quarantined (s.port p).inFlight,
    cutWrites := (s.port p).cutWrites ++ (s.port p).inFlight.flatMap Entry.writeUnderWay } := by
  unfold State.portCut
  rw [State.port_cutEntries, State.port_modPort]

theorem State.port_portCut_ne {q : PortId} (h : q ≠ p) : (s.portCut p).port q = s.port q :=
  (State.port_cutEntries_ne _ p h).trans (State.port_modPort_ne _ _ h)

theorem State.body_portCut : (s.portCut p).body = s.body :=
  (State.body_cutEntries _ p).trans (State.body_modPort s p _)

theorem State.lasting_portCut (x : TileNum) : ((s.portCut p).tile x).lasting = (s.tile x).lasting :=
  (State.lasting_cutEntries _ p x).trans (congrArg TileEntry.lasting (State.tile_of_tiles (State.tiles_modPort _ _ _) x))

theorem State.slot_portCut (k : SlotNum) : (s.portCut p).slot k = (s.slot k).mapJob fun j =>
    ((s.port p).inFlight.filter fun e => decide (e.owner.slot? = some k)).foldl Job.cut j := by
  have hport := State.port_modPort s p fun v => { v with transmitting := none }
  have hslot := (State.modPort_reads s p fun v => { v with transmitting := none }).2.2.2.1 k
  unfold State.portCut State.cutEntries
  rw [State.slot_foldl_cutEntry, hport, hslot]

theorem State.bare_portCut {e : Entry} (he : e ∈ (s.port p).inFlight) : ((s.portCut p).tile e.tile).Bare := by
  unfold State.portCut State.cutEntries
  rw [State.port_modPort]
  exact State.bare_foldl_cutEntry p _ _ (.inl ⟨e, he, rfl⟩)

theorem State.lastError_portCut {e : Entry} (he : e ∈ (s.port p).inFlight) (hmark : s.Marks e e.tile) :
    ((s.portCut p).tile e.tile).lastError = some .linkLost := by
  have hlost : s.LinkLost ((s.port p).inFlight ++ []) e.tile := .inr ⟨e, by rwa [List.append_nil], hmark⟩
  unfold State.portCut State.cutEntries
  rw [State.port_modPort]
  refine (State.LinkLost.cutEntries (State.LinkLost.congr ?_ (fun i => ?_) hlost)).lastError
  · rw [State.tile_of_tiles (State.tiles_modPort _ _ _)]
  · exact (State.modPort_reads s p _).2.2.2.2 i

theorem State.tilesOnly_losePort : TilesOnly s (s.losePort p) :=
  TilesOnly.foldl (fun s x => by
    split
    · exact .modTile s x _
    · exact .refl s) _ s

theorem State.tile_losePort (x : TileNum) :
    (s.losePort p).tile x = if portOf x = p then (s.tile x).lose s.now else s.tile x := by
  unfold State.losePort
  rw [TilesOnly.tile_foldl (F := TileEntry.lose) (fun s x => ?_) (fun s x u => ?_) (nodup_portTiles p)]
  · simp only [mem_portTiles]
  · split
    · exact .modTile s x _
    · exact .refl s
  · unfold TileEntry.lose State.enterTile
    cases h : (s.tile x).state.present
    · rw [if_neg Bool.false_ne_true, if_neg Bool.false_ne_true]
      split
      · next hx => rw [hx]
      · rfl
    · rw [if_pos rfl, if_pos rfl, State.tile_modTile]

theorem State.port_portLost : (s.portLost p).port p = { (s.port p).train s.now with
    transmitting := none, inFlight := [], quarantined := quarantineTags (s.port p).quarantined (s.port p).inFlight,
    cutWrites := (s.port p).cutWrites ++ (s.port p).inFlight.flatMap Entry.writeUnderWay } := by
  have honly := (s.portCut p).tilesOnly_losePort p
  have hcut := s.port_portCut p
  have hnow : (s.portCut p).now = s.now := State.now_of_body (s.body_portCut p)
  unfold State.portLost
  generalize (s.portCut p).losePort p = v at honly
  rw [State.port_enterTraining, honly.port, honly.now, hcut, hnow]
  rfl

theorem State.port_portLost_ne {q : PortId} (h : q ≠ p) : (s.portLost p).port q = s.port q := by
  have honly := (s.portCut p).tilesOnly_losePort p
  unfold State.portLost
  generalize (s.portCut p).losePort p = v at honly
  exact (State.port_modPort_ne _ _ h).trans ((honly.port q).trans (s.port_portCut_ne p h))

theorem State.tile_portLost (x : TileNum) : (s.portLost p).tile x =
    if portOf x = p then ((s.portCut p).tile x).lose s.now else (s.portCut p).tile x := by
  have hnow : (s.portCut p).now = s.now := State.now_of_body (s.body_portCut p)
  unfold State.portLost
  rw [State.tile_enterTraining, State.tile_losePort, hnow]

theorem State.slot_portLost (k : SlotNum) : (s.portLost p).slot k = (s.slot k).mapJob fun j =>
    ((s.port p).inFlight.filter fun e => decide (e.owner.slot? = some k)).foldl Job.cut j := by
  rw [← State.slot_portCut]
  unfold State.portLost
  exact (State.slot_of_slots (State.slots_enterTraining _ p) k).trans
    (State.slot_of_slots ((s.portCut p).tilesOnly_losePort p).slots k)

theorem State.body_portLost : (s.portLost p).body = s.body :=
  (State.body_enterTraining _ p).trans (((s.portCut p).tilesOnly_losePort p).body.trans (s.body_portCut p))

theorem State.credits_portLost {e : Entry} (he : e ∈ (s.port p).inFlight) : ((s.portLost p).tile e.tile).Bare := by
  have hbare := s.bare_portCut p he
  rw [State.tile_portLost]
  split
  · obtain ⟨hcredits, hconfig, -⟩ := ((s.portCut p).tile e.tile).lose_keeps s.now
    exact ⟨hcredits.trans hbare.1, hconfig.trans hbare.2⟩
  · exact hbare

theorem State.lastError_portLost {e : Entry} (he : e ∈ (s.port p).inFlight) (hmark : s.Marks e e.tile) :
    ((s.portLost p).tile e.tile).lastError = some .linkLost := by
  have herror := s.lastError_portCut p he hmark
  rw [State.tile_portLost]
  split
  · exact (TileEntry.lose_keeps _ _).2.2.trans herror
  · exact herror

end

theorem Job.outstanding_failPart (x : TileNum) (c : ErrorCode) (j : Job) : (j.failPart x c).outstanding = j.outstanding := by
  unfold Job.failPart
  repeat' split
  all_goals rfl

theorem Job.foldl_cut (l : List Entry) (j : Job) : (l.foldl Job.cut j).outstanding = j.outstanding - l.length ∧
    (l.foldl Job.cut j).frame = j.frame := by
  induction l generalizing j with
  | nil => exact ⟨rfl, rfl⟩
  | cons e l ih =>
    obtain ⟨hout, hframe⟩ := ih (j.cut e)
    rw [List.foldl_cons, hout, hframe, List.length_cons]
    unfold Job.cut
    rw [Job.outstanding_failPart, Job.frame_failPart]
    exact ⟨by dsimp only; omega, rfl⟩

/-! ## The first failure of a job with packets on the port -/

/-- The tile part on `x` fails with `c`, as all of them would. -/
def Job.FailsOn (x : TileNum) (c : ErrorCode) (j : Job) : Prop :=
  (∃ q ∈ j.parts, q.tile = x) ∧ ∀ q ∈ j.parts, q.tile = x → q.cond = .failing c

/-- Below `x`, and off the port, no part fails at this event; on the port below `x` every part has failed before. -/
def Job.FirstOn (p : PortId) (x : TileNum) (j : Job) : Prop :=
  ∀ q ∈ j.parts, (portOf q.tile ≠ p ∨ q.tile < x → ∀ c, q.cond ≠ .failing c) ∧
    (portOf q.tile = p → q.tile < x → q.cond.hasFailed = true)

theorem Job.FailsOn.lowestFailing {p : PortId} {x : TileNum} {c : ErrorCode} {j : Job} (h : j.FailsOn x c)
    (hfirst : j.FirstOn p x) : lowestFailing j.parts = some (x, c) := by
  obtain ⟨⟨q, hq, hx⟩, hall⟩ := h
  refine lowestFailing_eq_some ⟨q, hq, hx, hall q hq hx⟩ fun q' hq' c' hc' => ⟨?_, fun hx' => ?_⟩
  · by_contra hlt
    exact (hfirst q' hq').1 (.inr (not_le.1 hlt)) c' hc'
  · have := hall q' hq' hx'
    rw [hc'] at this
    exact PartCond.failing.inj this

/-- What an operation on one tile's parts can do: drop them all, set them all, or nothing. -/
inductive Job.Touched (y : TileNum) (j : Job) : Job → Prop
  | same : Job.Touched y j j
  | drop : Job.Touched y j (j.dropPart y)
  | set (c : PartCond) (g : Staging) : Job.Touched y j (j.setPart y fun q => { q with cond := c, staging := g })

theorem Job.touched_failPart (y : TileNum) (c : ErrorCode) (j : Job) : j.Touched y (j.failPart y c) := by
  unfold Job.failPart
  repeat' split
  · exact .same
  · exact .same
  · exact .set _ _

theorem Job.touched_completePart (y : TileNum) (j : Job) : j.Touched y (j.completePart y) := by
  unfold Job.completePart
  repeat' split
  · exact .same
  · exact .same
  · exact .drop

theorem Job.touched_judged {y : TileNum} {j : Job} {f : Job → Job} (hf : j.Touched y (f j)) (v : Verdict) :
    j.Touched y (j.judged y v f) := by
  unfold Job.judged
  split
  · exact j.touched_failPart y _
  · exact hf
  · exact .set _ _
  · exact .set _ _
  · exact j.touched_completePart y

theorem Job.touched_rejudge (y : TileNum) (v : Step → Verdict) (j : Job) : j.Touched y (j.rejudge y v) := by
  unfold Job.rejudge
  repeat' split
  · exact Job.touched_judged .same _
  · exact Job.touched_judged (.set _ _) _
  · exact Job.touched_judged (.set _ _) _
  · unfold Job.judgedIssued
    split
    · exact j.touched_failPart y _
    · exact .same
  all_goals exact .same

section
variable {p : PortId} {x y : TileNum} {c : ErrorCode} {j k : Job}

theorem Job.mem_of_touched (h : j.Touched y k) {q : TilePart} (hq : q ∈ k.parts) : q ∈ j.parts ∨ q.tile = y := by
  cases h with
  | same => exact .inl hq
  | drop => exact .inl (List.mem_filter.1 hq).1
  | set c g =>
    obtain ⟨r, hr, rfl⟩ := List.mem_map.1 hq
    split
    · next h => exact .inr h
    · exact .inl hr

theorem Job.FirstOn.touched (h : j.FirstOn p x) (hy : portOf y = p) (hxy : x ≤ y) (hk : j.Touched y k) :
    k.FirstOn p x := fun q hq => by
  rcases Job.mem_of_touched hk hq with hq | rfl
  · exact h q hq
  · exact ⟨fun hor => absurd hor (not_or.2 ⟨not_not.2 hy, not_lt.2 hxy⟩), fun _ hlt => absurd hlt (not_lt.2 hxy)⟩

theorem Job.FailsOn.touched_ne (h : j.FailsOn x c) (hne : y ≠ x) (hk : j.Touched y k) : k.FailsOn x c := by
  obtain ⟨⟨q, hq, hx⟩, hall⟩ := h
  refine ⟨?_, fun q' hq' hx' => ?_⟩
  · cases hk with
    | same => exact ⟨q, hq, hx⟩
    | drop => exact ⟨q, List.mem_filter.2 ⟨hq, decide_eq_true fun h => hne (h.symm.trans hx)⟩, hx⟩
    | set c g => exact ⟨q, List.mem_map.2 ⟨q, hq, if_neg fun h => hne (h.symm.trans hx)⟩, hx⟩
  · rcases Job.mem_of_touched hk hq' with hq' | rfl
    · exact hall q' hq' hx'
    · exact absurd hx' hne

/-- On the port below `x` a part has failed or there is none. -/
theorem Job.FirstOn.failed (h : j.FirstOn p x) (hy : portOf y = p) (hlt : y < x) {q : TilePart} (hq : j.part? y = some q) :
    q.cond.hasFailed = true := by
  obtain ⟨hmem, rfl⟩ := Job.mem_of_part? hq
  exact (h q hmem).2 hy hlt

theorem Job.failPart_eq_self {y : TileNum} {j : Job} (h : ∀ q, j.part? y = some q → q.cond.hasFailed = true) (c : ErrorCode) :
    j.failPart y c = j := by
  unfold Job.failPart
  split
  · rfl
  · next q hq => exact if_pos (h q hq)

theorem Job.FirstOn.failPart (h : j.FirstOn p x) (hy : portOf y = p) (c : ErrorCode) : (j.failPart y c).FirstOn p x := by
  rcases lt_or_ge y x with hlt | hge
  · rw [Job.failPart_eq_self fun q hq => h.failed hy hlt hq]
    exact h
  · exact h.touched hy hge (j.touched_failPart y c)

theorem Job.FirstOn.rejudge (h : j.FirstOn p x) (hy : portOf y = p) (v : Step → Verdict) : (j.rejudge y v).FirstOn p x := by
  rcases lt_or_ge y x with hlt | hge
  · rw [Job.AtRestOn.rejudge_eq_self fun _ q hq => h.failed hy hlt hq]
    exact h
  · exact h.touched hy hge (j.touched_rejudge y v)

theorem Job.FailsOn.part? (h : j.FailsOn x c) {q : TilePart} (hq : j.part? x = some q) : q.cond.hasFailed = true := by
  obtain ⟨hmem, htile⟩ := Job.mem_of_part? hq
  rw [h.2 q hmem htile]
  rfl

theorem Job.FailsOn.failPart (h : j.FailsOn x c) (y : TileNum) (c' : ErrorCode) : (j.failPart y c').FailsOn x c := by
  by_cases hy : y = x
  · subst hy
    rw [Job.failPart_eq_self fun q hq => h.part? hq]
    exact h
  · exact h.touched_ne hy (j.touched_failPart y c')

theorem Job.FailsOn.rejudge (h : j.FailsOn x c) (y : TileNum) (v : Step → Verdict) : (j.rejudge y v).FailsOn x c := by
  by_cases hy : y = x
  · subst hy
    rw [Job.AtRestOn.rejudge_eq_self fun _ q hq => h.part? hq]
    exact h
  · exact h.touched_ne hy (j.touched_rejudge y v)

theorem Job.failsOn_failPart {q : TilePart} (hq : j.part? x = some q) (hfail : q.cond.hasFailed = false) (c : ErrorCode) :
    (j.failPart x c).FailsOn x c := by
  obtain ⟨hmem, htile⟩ := Job.mem_of_part? hq
  rw [Job.failPart_part x c hq hfail]
  refine ⟨⟨_, List.mem_map.2 ⟨q, hmem, rfl⟩, ?_⟩, fun q' hq' hx' => ?_⟩
  · rw [if_pos htile]
    exact htile
  · obtain ⟨r, -, rfl⟩ := List.mem_map.1 hq'
    by_cases hr : r.tile = x
    · rw [if_pos hr]
    · rw [if_neg hr] at hx'
      exact absurd hx' hr

/-- The cut of entries of which one goes to `x`. -/
theorem Job.failsOn_foldl_cut {l : List Entry} (h : j.FailsOn x .linkLost ∨
    ((∃ e ∈ l, e.tile = x) ∧ ∃ q, j.part? x = some q ∧ q.cond.hasFailed = false)) :
    (l.foldl Job.cut j).FailsOn x .linkLost := by
  induction l generalizing j with
  | nil => exact h.resolve_right (by simp)
  | cons e l ih =>
    refine ih ?_
    rcases h with h | ⟨⟨f, hf, hx⟩, q, hq, hfail⟩
    · exact .inl (Job.FailsOn.failPart (j := { j with outstanding := j.outstanding - 1 }) h _ _)
    · by_cases he : e.tile = x
      · unfold Job.cut
        rw [he]
        exact .inl (Job.failsOn_failPart (j := { j with outstanding := j.outstanding - 1 }) hq hfail _)
      · refine .inr ⟨⟨f, (List.mem_cons.1 hf).resolve_left fun h => he (h ▸ hx), hx⟩, q, ?_, hfail⟩
        exact (Job.part?_failPart_ne he _ _).trans hq

theorem Job.FirstOn.foldl_cut {l : List Entry} (h : j.FirstOn p x) (hl : ∀ e ∈ l, portOf e.tile = p) :
    (l.foldl Job.cut j).FirstOn p x := by
  induction l generalizing j with
  | nil => exact h
  | cons e l ih =>
    rw [List.forall_mem_cons] at hl
    exact ih (Job.FirstOn.failPart (j := { j with outstanding := j.outstanding - 1 }) h hl.1 _) hl.2

/-- The tiles of a job's parts. -/
def Job.partTiles (j : Job) : List TileNum := j.parts.map fun q => q.tile

theorem Job.part?_eq_none : j.part? x = none ↔ x ∉ j.partTiles := by
  unfold Job.part? Job.partTiles
  rw [List.find?_eq_none]
  simp [eq_comm]

theorem Job.partTiles_setCond (y : TileNum) (c : PartCond) (g : Staging) (j : Job) :
    (j.setPart y fun q => { q with cond := c, staging := g }).partTiles = j.partTiles := by
  unfold Job.partTiles Job.setPart
  rw [List.map_map]
  refine List.map_congr_left fun q _ => ?_
  show (if q.tile = y then _ else q : TilePart).tile = q.tile
  split <;> rfl

theorem Job.partTiles_failPart (y : TileNum) (c : ErrorCode) (j : Job) : (j.failPart y c).partTiles = j.partTiles := by
  unfold Job.failPart
  repeat' split
  · rfl
  · rfl
  · exact Job.partTiles_setCond _ _ _ _

theorem Job.partTiles_foldl_cut (l : List Entry) (j : Job) : (l.foldl Job.cut j).partTiles = j.partTiles := by
  induction l generalizing j with
  | nil => rfl
  | cons e l ih => exact (ih (j.cut e)).trans (Job.partTiles_failPart _ _ _)

end

/-! ## The obligation -/

section
variable {s : State} {p : PortId}

theorem State.job_portLost_eq (s : State) (p : PortId) (i : SlotNum) : (s.portLost p).job i = (s.job i).map fun j =>
    ((s.port p).inFlight.filter fun e => decide (e.owner.slot? = some i)).foldl Job.cut j :=
  (congrArg Slot.job? (s.slot_portLost p i)).trans (Slot.job?_mapJob _ _)

theorem State.job_portLost {i : SlotNum} {j : Job} (hj : s.job i = some j) : (s.portLost p).job i =
    some (((s.port p).inFlight.filter fun e => decide (e.owner.slot? = some i)).foldl Job.cut j) := by
  rw [State.job_portLost_eq, hj, Option.map_some]

theorem State.job_of_portLost {i : SlotNum} {k : Job} (hk : (s.portLost p).job i = some k) : ∃ j, s.job i = some j ∧
    k = ((s.port p).inFlight.filter fun e => decide (e.owner.slot? = some i)).foldl Job.cut j := by
  rw [State.job_portLost_eq, Option.map_eq_some_iff] at hk
  obtain ⟨j, hj, rfl⟩ := hk
  exact ⟨j, hj, rfl⟩

theorem State.state_portLost_ne {x : TileNum} (h : portOf x ≠ p) : ((s.portLost p).tile x).state = (s.tile x).state := by
  rw [State.tile_portLost, if_neg h]
  exact TileEntry.state_of_lasting (s.lasting_portCut p x)

/-- The lowest part on the port with a packet of its own in flight is its job's first failure (R34, R36, R143). -/
theorem partFails_portLost (hq : Quiet s) (hentries : ∀ e ∈ (s.port p).inFlight, portOf e.tile = p) {i : SlotNum} {j : Job}
    {st : Step} {q : TilePart} (hj : s.job i = some j) (hst : j.step? = some st) (htol : st.tolerant = false)
    (hpart : j.part? q.tile = some q) (hfail : q.cond.hasFailed = false)
    (hown : ∃ e ∈ (s.port p).inFlight, e.tile = q.tile ∧ e.owner.slot? = some i)
    (hlow : ∀ q' ∈ j.parts, portOf q'.tile = p → q'.cond.hasFailed = false → q.tile ≤ q'.tile) :
    PartFails s (finish s (s.portLost p)) i q.tile .linkLost := by
  rintro j' hj' q' hq' st' hst' - hrun -
  obtain rfl : j = j' := Option.some.inj (hj.symm.trans hj')
  obtain rfl : st = st' := Option.some.inj (hst.symm.trans hst')
  refine ⟨fun _ => ?_, fun h => absurd (h.symm.trans htol) (by decide)⟩
  have hset : j.Settled (s.hasInFlight i) := hq.settled i j hj
  have hfirst : j.FirstOn p q.tile := fun r hr => ⟨fun _ => hset.not_failing r hr, fun hport hlt => by
    by_contra hnot
    exact absurd (hlow r hr hport (Bool.eq_false_iff.2 hnot)) (not_le.2 hlt)⟩
  obtain ⟨e, he, hetile, heown⟩ := hown
  have hjob := s.job_portLost (p := p) hj
  obtain ⟨-, hframe⟩ := Job.foldl_cut ((s.port p).inFlight.filter fun e => decide (e.owner.slot? = some i)) j
  obtain ⟨k, hk, hkfirst, hkfails, hkframe⟩ := job_rejudgeChanged_keeps (before := s)
    (P := fun k => k.FirstOn p q.tile ∧ k.FailsOn q.tile .linkLost ∧ k.frame = j.frame) hjob
    ⟨hfirst.foldl_cut fun f hf => hentries f (List.mem_filter.1 hf).1,
      Job.failsOn_foldl_cut (.inr ⟨⟨e, List.mem_filter.2 ⟨he, decide_eq_true heown⟩, hetile⟩, q, hpart, hfail⟩), hframe⟩
    fun m x v hx ⟨hm1, hm2, hm3⟩ => ⟨hm1.rejudge (by_contra fun h => hx (State.state_portLost_ne h).symm) v,
      hm2.rejudge x v, (m.frame_rejudge x v).trans hm3⟩
  rw [← Job.current_of_frame hkframe, ← Job.stepsDone_of_frame hkframe, ← Job.tolerated_of_frame hkframe]
  exact job_finish_of_drains hk ((Job.phase_of_frame hkframe).trans hrun) (hkfails.lowestFailing hkfirst)
    ((Job.flag_of_step ((Job.step?_of_frame hkframe).trans hst) _).trans htol)

/-- The last error of a tile whose packet was cut, where nothing else can fail on it (R16, R101, R143). -/
theorem lastError_finish_portLost {e : Entry} (he : e ∈ (s.port p).inFlight) (hun : s.Undisturbed e.tile e.owner.slot?)
    (hmark : s.Marks e e.tile) : ((finish s (s.portLost p)).tile e.tile).lastError = some .linkLost := by
  have hframe (i : SlotNum) (j : Job) :=
    (Job.foldl_cut ((s.port p).inFlight.filter fun e => decide (e.owner.slot? = some i)) j).2
  have hlater : (s.portLost p).NoLaterStep e.tile := fun i k hk hrun st hst => by
    obtain ⟨j, hj, rfl⟩ := State.job_of_portLost hk
    rw [Job.phase_of_frame (hframe i j)] at hrun
    rw [Job.steps_of_frame (hframe i j), Job.current_of_frame (hframe i j)] at hst
    exact (hun i j hj (Phase.isRunning_iff.2 hrun)).2 st hst
  have hrest (i : SlotNum) (k : Job) (hk : (s.portLost p).job i = some k) : k.AtRestOn e.tile := by
    obtain ⟨j, hj, rfl⟩ := State.job_of_portLost hk
    intro hrun
    rw [Job.phase_of_frame (hframe i j)] at hrun
    by_cases hown : e.owner.slot? = some i
    · obtain ⟨k, hk, m, q, hm, hq, hfail⟩ := hmark.2.resolve_left fun h => by rw [h] at hown; cases hown
      obtain rfl : k = i := Option.some.inj (hk.symm.trans hown)
      obtain rfl : j = m := Option.some.inj (hj.symm.trans hm)
      have hfails : Job.FailsOn e.tile .linkLost
          (((s.port p).inFlight.filter fun e => decide (e.owner.slot? = some k)).foldl Job.cut j) :=
        Job.failsOn_foldl_cut (.inr ⟨⟨e, List.mem_filter.2 ⟨he, decide_eq_true hown⟩, rfl⟩, q, hq, hfail⟩)
      exact fun q hq => hfails.part? hq
    · refine Job.AtRestOn.of_none ?_ (by rwa [Job.phase_of_frame (hframe i j)])
      rw [Job.part?_eq_none, Job.partTiles_foldl_cut]
      intro hmem
      obtain ⟨q, hq, htile⟩ := List.mem_map.1 hmem
      exact (hun i j hj hrun).1 hown q hq htile
  have herror := s.lastError_portLost p he hmark
  rw [tile_finish_of_noLater hlater, tile_rejudgeChanged_of_atRest hrest]
  rcases State.closedEntry_cases (resolved s (s.portLost p)) e.tile ((s.portLost p).tile e.tile) with h | h
  · rw [h, herror]
  · rw [h]
    exact herror

end

theorem TileEntry.lose_spec {now : Word} {e f : TileEntry} (h : f.lasting = e.lasting) :
    (e.state.present = true → (f.lose now).state = .lost ∧ (f.lose now).identity = e.identity ∧
      (f.lose now).window = e.window) ∧ (e.state.present = false → (f.lose now).state = e.state) := by
  have hstate := TileEntry.state_of_lasting h
  have hid : f.identity = e.identity := (congrArg TileEntry.identity h :)
  have hwin : f.window = e.window := (congrArg TileEntry.window h :)
  rw [← hstate, ← hid, ← hwin]
  obtain ⟨hlost, hid', hwin', -⟩ := f.enter_lost now
  rcases f.lose_cases now with ⟨hp, hf⟩ | ⟨hp, hf⟩
  · rw [hf]
    exact ⟨fun _ => ⟨hlost, hid', hwin'⟩, fun h => absurd (hp.symm.trans h) (by decide)⟩
  · rw [hf]
    exact ⟨fun h => absurd (h.symm.trans hp) (by decide), fun _ => rfl⟩

/-- Settles O47. -/
theorem hardErrorCutsThePort : Obligations.HardErrorCutsThePort := by
  unfold Obligations.HardErrorCutsThePort
  intro s p hlow
  have hexec : exec (.hardError p) s = .next (hardErrorEffect p s) := exec_of_high hlow rfl
  refine ⟨fun hst => ?_, fun hst => ?_⟩
  · have heffect : hardErrorEffect p s = finish s (s.portLost p) := by
      unfold hardErrorEffect
      rcases hst with hst | hst
      all_goals
        rw [hst]
        exact rfl
    rw [heffect] at hexec
    have hframe : EventFrame (s.portLost p) (finish s (s.portLost p)) := finish_frame _ _
    have hwork (x : TileNum) := hframe.tile x
    have hbody := s.body_portLost p
    have hport : (finish s (s.portLost p)).port p = _ := (hframe.port p).trans (s.port_portLost p)
    have htile (d : Position) : (s.portLost p).tile (tileOf p d) = ((s.portCut p).tile (tileOf p d)).lose s.now :=
      (s.tile_portLost p _).trans (if_pos (portOf_tileOf p d))
    refine ⟨_, hexec, by rw [hport]; rfl, by rw [hport]; rfl, by rw [hport]; rfl, by rw [hport]; rfl, by rw [hport]; rfl,
      by rw [hport], by rw [hport], by rw [hport]; rfl, hframe.portNotice, fun e he => ⟨?_, ?_, ?_⟩, fun e w he hphase => ?_,
      fun d hpres => ?_, fun d hpres => ?_, fun q hne => ⟨?_, fun d => ?_⟩, fun hq e he hetile hun hmark => ?_,
      fun hfatal i j hj => ?_, fun hq hentries i j st q hj hrun hstep htol hpart hfail hown hlow => ?_, ?_, ?_⟩
    · rw [hport]
      exact (getLsbD_quarantineTags _ _).2 (.inr ⟨e, he, rfl⟩)
    · exact (congrArg TileEntry.credits (hwork e.tile) :).trans (s.credits_portLost p he).1
    · exact (congrArg TileEntry.configInFlight (hwork e.tile) :).trans (s.credits_portLost p he).2
    · rw [hport]
      refine List.mem_append_right _ (List.mem_flatMap.2 ⟨e, he, ?_⟩)
      unfold Entry.writeUnderWay
      rw [hphase]
      exact List.mem_singleton_self _
    · obtain ⟨hstate, hid, hwin⟩ := (TileEntry.lose_spec (now := s.now) (s.lasting_portCut p (tileOf p d))).1 hpres
      rw [← htile] at hstate hid hwin
      exact ⟨(hframe.state _).trans hstate, (congrArg TileEntry.identity (hwork _) :).trans hid,
        (congrArg TileEntry.window (hwork _) :).trans hwin⟩
    · have hstate := (TileEntry.lose_spec (now := s.now) (s.lasting_portCut p (tileOf p d))).2 hpres
      rw [← htile] at hstate
      exact (hframe.state _).trans hstate
    · exact (hframe.port q).trans (s.port_portLost_ne p hne)
    · exact (hframe.state _).trans (State.state_portLost_ne (by rw [portOf_tileOf]; exact hne))
    · exact lastError_finish_portLost he hun ⟨rfl, hmark.imp_right fun ⟨i, n, j, q, ho, hj, hq, hfail⟩ =>
        ⟨i, by rw [ho]; rfl, j, q, hj, hq, hfail⟩⟩
    · obtain ⟨j', hj', hidn⟩ := hframe.taken ((State.fatal_of_body hbody).trans hfatal) (s.job_portLost hj)
      exact ⟨j', hj', (congrArg Job.outstanding hidn :).trans (Job.foldl_cut _ j).1⟩
    · exact partFails_portLost hq hentries hj hstep htol hpart hfail hown hlow
    · exact hframe.wakeHistory.trans (State.wakeHistory_of_body hbody)
    · exact hframe.engine.trans (State.engine_of_body hbody)
  · rw [hexec]
    refine congrArg _ ?_
    unfold hardErrorEffect
    rcases hst with hst | hst | ⟨hst, hlock⟩
    · rw [hst]
    · rw [hst]
    · rw [hst]
      exact if_neg (by rw [hlock]; exact Bool.false_ne_true)

end Sys2Proof.Machine
end

section
/-! Probes and silent positions (R15, R135 to R138). -/

namespace Sys2Proof.Machine

theorem foldl_preserves {α : Type} {P : State → Prop} {f : State → α → State} (hf : ∀ s a, P s → P (f s a)) (l : List α)
    {s : State} (h : P s) : P (l.foldl f s) := by
  induction l generalizing s with
  | nil => exact h
  | cons a l ih => exact ih (hf s a h)

/-! ## A tile whose state says which error the end of an event can leave on it (R16, R30) -/

/-- Whatever fails on a tile in state `v` and marks it marks it with `c`. -/
def TileState.MarksWith (v : TileState) (c : Option ErrorCode) : Prop :=
  ∀ (s : State) (x : TileNum) (st : Step) (code : ErrorCode), (s.tile x).state = v → s.judge st x = .fail code →
    code.marksTile = true → some code = c

/-- The tile is in state `v` with this last error. -/
def State.StandsAt (v : TileState) (x : TileNum) (c : Option ErrorCode) (s : State) : Prop :=
  (s.tile x).state = v ∧ (s.tile x).lastError = c

theorem TileEntry.failStream_keeps (i : SlotNum) (e : TileEntry) :
    (e.failStream i).state = e.state ∧ (e.failStream i).lastError = e.lastError := by
  unfold TileEntry.failStream
  repeat' split
  all_goals exact ⟨rfl, rfl⟩

theorem tile_resolved (before s : State) (x : TileNum) :
    (resolved before s).tile x = (State.rejudgeChanged before s).tile x := State.tile_of_tiles (State.tiles_resolveAll _) x

section
variable {s t : State} {v : TileState} {x : TileNum} {c : Option ErrorCode}

theorem State.StandsAt.of_tile (h : s.StandsAt v x c) (htile : t.tile x = s.tile x) : t.StandsAt v x c := by
  unfold State.StandsAt
  rw [htile]
  exact h

theorem State.StandsAt.of_tiles (h : s.StandsAt v x c) (htiles : t.tiles = s.tiles) : t.StandsAt v x c :=
  h.of_tile (State.tile_of_tiles htiles x)

theorem State.StandsAt.modTile (h : s.StandsAt v x c) (y : TileNum) {f : TileEntry → TileEntry}
    (hf : ∀ e, (f e).state = e.state ∧ (f e).lastError = e.lastError) : (s.modTile y f).StandsAt v x c := by
  unfold State.StandsAt
  rw [State.tile_modTile]
  split
  · next hy =>
    subst hy
    rw [(hf _).1, (hf _).2]
    exact h
  · exact h

theorem State.StandsAt.markError (h : s.StandsAt v x c) {code : ErrorCode} (hcode : code.marksTile = true → some code = c) :
    (s.markError x code).StandsAt v x c := by
  unfold State.markError
  cases hm : code.marksTile with
  | false => exact h
  | true =>
    unfold State.StandsAt State.setError
    rw [if_pos rfl, State.tile_modTile, if_pos rfl]
    exact ⟨h.1, hcode hm⟩

theorem State.StandsAt.failPart (h : s.StandsAt v x c) (i : SlotNum) {code : ErrorCode}
    (hcode : code.marksTile = true → some code = c) : (s.failPart i x code).StandsAt v x c := by
  unfold State.failPart
  split
  · exact h
  · split
    · exact h
    · exact ((h.markError hcode).modTile x (TileEntry.failStream_keeps i)).of_tiles (State.tiles_modJob _ _ _)

theorem State.StandsAt.completePart (h : s.StandsAt v x c) (i : SlotNum) (y : TileNum) :
    (s.completePart i y).StandsAt v x c := by
  unfold State.completePart
  repeat' split
  · exact h
  · exact h
  · exact h
  · exact (h.of_tiles (State.tiles_modJob _ _ _)).modTile y fun _ => ⟨rfl, rfl⟩
  · exact h.of_tiles (State.tiles_modJob _ _ _)

theorem State.StandsAt.rejudgePart (hv : v.MarksWith c) (h : s.StandsAt v x c) (i : SlotNum) (y : TileNum) :
    (s.rejudgePart i y).StandsAt v x c := by
  by_cases hy : y = x
  · subst hy
    have hput (f : Job → Job) : (s.modJob i f).StandsAt v y c := h.of_tiles (State.tiles_modJob _ _ _)
    have hcomplete := h.completePart i y
    unfold State.rejudgePart
    split
    · exact h
    · split
      · next st _ _ _ _ =>
        have hfail (code : ErrorCode) (hcode : s.judge st y = .fail code) : (s.failPart i y code).StandsAt v y c :=
          h.failPart i (hv s y st code h.1 hcode)
        dsimp only
        repeat' split
        all_goals first
          | exact h
          | exact hput _
          | exact hcomplete
          | exact hfail _ ‹_›
      · exact h
  · exact h.of_tile (s.tile_rejudgePart_ne i hy)

theorem State.StandsAt.startPart (hv : v.MarksWith c) (h : s.StandsAt v x c) (i : SlotNum) (st : Step) (y : TileNum) :
    (s.startPart i st y).StandsAt v x c := by
  by_cases hy : y = x
  · subst hy
    have hkeep : (s.modTile y fun e => { e with armed := false }).StandsAt v y c := h.modTile y fun _ => ⟨rfl, rfl⟩
    have hadd {t : State} (ht : t.StandsAt v y c) (f : Job → Job) : (t.modJob i f).StandsAt v y c :=
      ht.of_tiles (State.tiles_modJob _ _ _)
    unfold State.startPart
    dsimp only
    split
    · next code hcode => exact hadd (hkeep.markError (hv _ y st code hkeep.1 hcode)) _
    · exact hadd hkeep _
    · exact hadd hkeep _
    · exact hadd hkeep _
    · exact hkeep
  · exact h.of_tile (State.tile_startPart_ne _ i hy st)

theorem State.StandsAt.stepCurrent (hv : v.MarksWith c) (h : s.StandsAt v x c) (i : SlotNum) :
    (s.stepCurrent i).StandsAt v x c := by
  unfold State.stepCurrent
  split
  · exact h
  · next st hst =>
    split
    · split <;> exact h
    · exact h.of_tiles (by simp)
    · exact h.of_tiles (by simp)
    · have hparts : ((tilesIn st.tiles).foldl (fun s t => s.startPart i st t) s).StandsAt v x c :=
        foldl_preserves (P := State.StandsAt v x c) (f := fun s t => s.startPart i st t) (fun s y h => h.startPart hv i st y) _ h
      exact hparts.of_tiles (State.tiles_resolveSlot _ i)

theorem State.StandsAt.completeStep (hv : v.MarksWith c) (h : s.StandsAt v x c) (i : SlotNum) :
    (s.completeStep i).StandsAt v x c := by
  cases hj : s.job i with
  | none =>
    unfold State.completeStep
    rw [hj]
    exact h
  | some j =>
    rw [State.completeStep_eq hj]
    split
    · exact State.StandsAt.stepCurrent hv (h.of_tiles (by simp)) i
    · exact h.of_tiles (by simp)

theorem State.StandsAt.rejudgeTile (hv : v.MarksWith c) (h : s.StandsAt v x c) (y : TileNum) :
    (s.rejudgeTile y).StandsAt v x c :=
  foldl_preserves (P := State.StandsAt v x c) (f := fun s i => s.rejudgePart i y) (fun _ i h => h.rejudgePart hv i y) _ h

theorem State.StandsAt.rejudgeChanged (hv : v.MarksWith c) (before : State) (h : s.StandsAt v x c) :
    (State.rejudgeChanged before s).StandsAt v x c :=
  rejudgeChanged_induction (P := State.StandsAt v x c) h fun _ y _ _ hu => hu.rejudgeTile hv y

theorem State.StandsAt.closeStreams (h : s.StandsAt v x c) : s.closeStreams.StandsAt v x c := by
  unfold State.StandsAt
  rw [State.tile_closeStreams]
  rcases s.closedEntry_cases x (s.tile x) with heq | heq
  · rw [heq]
    exact h
  · rw [heq]
    exact h

/-- Once its parts have been judged again, such a tile keeps its last error to the end of the event. -/
theorem lastError_finish_of_stands (hv : v.MarksWith c) {before : State} (h : (State.rejudgeChanged before s).StandsAt v x c) :
    ((finish before s).tile x).lastError = c := by
  have hclosed := (h.of_tile (tile_resolved before s x)).closeStreams
  rw [finish, State.tile_commit, settle_eq]
  generalize (resolved before s).closeStreams = u at hclosed ⊢
  exact (State.advance_induct (P := State.StandsAt v x c) (fun _ _ h => h) (fun u _ hu hi => hu.completeStep hv _) _ hclosed).2

end

/-- What fails on an ABSENT tile fails with NO_TILE, which marks none. -/
theorem TileState.marksWith_absent (c : Option ErrorCode) : TileState.absent.MarksWith c := fun s x st code hst hcode hmarks => by
  have hcheck : entryCheck (s.tile x) st = some .noTile := if_pos hst
  unfold State.judge at hcode
  rw [hcheck] at hcode
  obtain rfl := Verdict.fail.inj hcode
  cases hmarks

/-- An ABSENT tile keeps its last error to the end of the event. -/
theorem lastError_finish_of_absent (before : State) {s : State} {x : TileNum} (h : (s.tile x).state = .absent) :
    ((finish before s).tile x).lastError = (s.tile x).lastError :=
  lastError_finish_of_stands (TileState.marksWith_absent _)
    (State.StandsAt.rejudgeChanged (TileState.marksWith_absent _) before ⟨h, rfl⟩)

/-! ## A silent position (R138) -/

/-- The tiles of the port from position `d` on. -/
def tilesFrom (p : PortId) (d : Position) : List TileNum := (portTiles p).filter fun x => decide (d ≤ positionOf x)

theorem nodup_tilesFrom (p : PortId) (d : Position) : (tilesFrom p d).Nodup := (nodup_portTiles p).filter _

theorem tileOf_mem_tilesFrom {p : PortId} {d k : Position} : tileOf p k ∈ tilesFrom p d ↔ d ≤ k := by
  unfold tilesFrom
  rw [List.mem_filter, mem_portTiles, portOf_tileOf, positionOf_tileOf, decide_eq_true_iff]
  exact and_iff_right rfl

section
variable {s u : State} {p : PortId} {d : Position}

theorem State.silence_eq (h : (u.port p).probing = some d) :
    u.silence p = (u.enterTiles (tilesFrom p d) .absent).portUp p := by
  unfold State.silence
  rw [h]
  rfl

/-- What a silence at position `d` leaves at the end of the event. -/
structure Silenced (u t : State) (p : PortId) (d : Position) : Prop where
  port : t.port p = { u.port p with state := .up, probing := none, waitDue := none }
  notice : t.notice.port = true
  absent : ∀ k, d ≤ k → ∃ e now, (t.tile (tileOf p k)).eraseWork = (TileEntry.enter now .absent e).eraseWork
  before : ∀ k, k < d → (t.tile (tileOf p k)).state = (u.tile (tileOf p k)).state
  error : (t.tile (tileOf p d)).lastError = (u.tile (tileOf p d)).lastError

theorem silenced_finish (before : State) (hprobing : (u.port p).probing = some d) :
    Silenced u (finish before (u.silence p)) p d := by
  have honly := u.tilesOnly_enterTiles (tilesFrom p d) .absent
  have htile := u.tile_enterTiles (nodup_tilesFrom p d) .absent
  rw [State.silence_eq hprobing]
  generalize u.enterTiles (tilesFrom p d) .absent = v at honly htile
  have hframe : EventFrame (v.portUp p) (finish before (v.portUp p)) := finish_frame _ _
  have hup (x : TileNum) : (v.portUp p).tile x = v.tile x := State.tile_of_tiles (State.tiles_modPort _ _ _) x
  have habsent (k : Position) (hk : d ≤ k) : v.tile (tileOf p k) = (u.tile (tileOf p k)).enter u.now .absent :=
    (htile _).trans (if_pos (tileOf_mem_tilesFrom.2 hk))
  refine ⟨?_, hframe.portNotice, fun k hk => ⟨u.tile (tileOf p k), u.now, ?_⟩, fun k hk => ?_, ?_⟩
  · refine (hframe.port p).trans ((State.port_modPort _ _ _).trans ?_)
    rw [honly.port]
  · rw [hframe.tile, hup, habsent k hk]
  · rw [hframe.state, hup, htile, if_neg fun h => absurd (tileOf_mem_tilesFrom.1 h) (not_le.2 hk)]
  · have hd := (hup (tileOf p d)).trans (habsent d le_rfl)
    rw [lastError_finish_of_absent before (by rw [hd]; rfl), hd]
    unfold TileEntry.enter
    dsimp only
    split <;> rfl

theorem Silenced.silentFrom {t : State} (h : Silenced u t p d) (hstates : ∀ x, (u.tile x).state = (s.tile x).state) :
    SilentFrom s t p d := by
  obtain ⟨hport, hnotice, habsent, hbefore, -⟩ := h
  refine ⟨by rw [hport], by rw [hport], by rw [hport], hnotice, fun k hk => ?_, fun k hk => (hbefore k hk).trans (hstates _)⟩
  obtain ⟨e, now, hwork⟩ := habsent k hk
  exact ⟨(congrArg TileEntry.state hwork :), (congrArg TileEntry.identity hwork :), (congrArg TileEntry.geometry hwork :),
    (congrArg TileEntry.shown hwork :), (congrArg TileEntry.window hwork :), (congrArg TileEntry.band hwork :),
    (congrArg TileEntry.roll hwork :)⟩

end

/-! ## The end of a probe -/

section
variable {s : State} {p : PortId} {d : Position} {e : Entry}

theorem Port.matching_spec {v : Port} {tag : Tag} {x : TileNum} (h : v.matching tag x = some e) :
    e ∈ v.inFlight ∧ e.tag = tag ∧ e.tile = x := by
  have hfound := List.find?_some h
  rw [Bool.and_eq_true, decide_eq_true_iff, decide_eq_true_iff] at hfound
  exact ⟨List.mem_of_find?_eq_some h, hfound⟩

theorem Port.receives_of_probing {v : Port} (hst : v.state = .enumerating) (h : v.probing = some d) :
    v.receives = true := by
  unfold Port.receives
  rw [hst, h]
  rfl

/-- The entry's end apart from the work on its tile: the older write of an entry in WRITING goes on. -/
def State.replied (s : State) (p : PortId) (e : Entry) : State := (s.keepOlderWrite p e).endEntry p e false

theorem State.port_replied : (s.replied p e).port p = { s.port p with
    inFlight := (s.port p).inFlight.filter (fun f => decide (f.tag ≠ e.tag)),
    cutWrites := (s.port p).cutWrites ++ e.writeUnderWay } := by
  unfold State.replied
  rw [State.endEntry_port, State.keepOlderWrite_eq, State.port_setPort]
  rfl

theorem State.port_replied_ne {q : PortId} (h : q ≠ p) : (s.replied p e).port q = s.port q := by
  unfold State.replied
  rw [State.endEntry_port_ne _ _ _ _ h, State.keepOlderWrite_eq, State.port_setPort_ne _ _ h]

theorem State.tile_replied (x : TileNum) : (s.replied p e).tile x = if e.tile = x then { s.tile x with
    credits := (s.tile x).credits - 1,
    configInFlight := if e.kind.isConfig then false else (s.tile x).configInFlight } else s.tile x := by
  have htile (y : TileNum) : (s.keepOlderWrite p e).tile y = s.tile y := by
    rw [State.keepOlderWrite_eq]
    exact (State.setPort_reads _ _ _).2.1 y
  unfold State.replied
  rw [State.endEntry_tile, htile, htile]
  split
  · next h => rw [h]
  · rfl

theorem State.state_endEntry (s : State) (p : PortId) (e : Entry) (b : Bool) (x : TileNum) :
    ((s.endEntry p e b).tile x).state = (s.tile x).state := TileEntry.state_of_lasting (s.lasting_endEntry p e b x)

theorem State.state_replied (x : TileNum) : ((s.replied p e).tile x).state = (s.tile x).state := by
  rw [State.tile_replied]
  split <;> rfl

theorem State.tile_setError (s : State) (x u : TileNum) (c : ErrorCode) : (s.setError x c).tile u =
    if x = u then { s.tile u with lastError := some c } else s.tile u := by
  unfold State.setError
  rw [State.tile_modTile]
  split
  · next h => rw [h]
  · rfl

end

/-- Settles O49. -/
theorem silentPositions : Obligations.SilentPositions := by
  unfold Obligations.SilentPositions
  intro s p d e hlow hst hprobing
  refine ⟨fun hfind => ?_, fun tag st ws hmatch hkind hlen c hc => ?_⟩
  · have hexec : exec (.probeDeadlineExpiry p) s = .next (probeDeadlineExpiryEffect p s) := exec_of_high hlow rfl
    have heffect : probeDeadlineExpiryEffect p s = finish s ((s.endEntry p e true).silence p) := by
      unfold probeDeadlineExpiryEffect
      rw [hfind]
    rw [heffect] at hexec
    have hport : (s.endEntry p e true).port p = (s.port p).cut e := s.endEntry_port p e true
    rw [Port.cut_eq] at hport
    have hsilenced := silenced_finish s (u := s.endEntry p e true) (p := p) (d := d) (by rw [hport]; exact hprobing)
    refine ⟨_, hexec, hsilenced.silentFrom fun x => s.state_endEntry p e true x, ?_, ?_⟩
    · rw [hsilenced.port, hport]
      exact (getLsbD_quarantineTags (l := [e]) _ _).2 (.inr ⟨e, List.mem_singleton_self e, rfl⟩)
    · rw [hsilenced.port, hport]
  · obtain ⟨-, -, htile⟩ := Port.matching_spec hmatch
    have hreceives := Port.receives_of_probing hst hprobing
    have heffect : effectOf c s = finish s (((s.replied p e).setError e.tile .tileReject).silence p) := by
      rcases hc with rfl | rfl
      · show ackReceivedEffect p d tag st s = _
        unfold ackReceivedEffect
        rw [hmatch, if_pos hreceives]
        exact if_pos hkind
      · show dataReceivedEffect p d tag ws s = _
        unfold dataReceivedEffect
        rw [hmatch, if_pos hreceives]
        exact (if_pos hkind).trans (if_neg hlen)
    have hexec : exec c s = .next (effectOf c s) := exec_of_high hlow (by rcases hc with rfl | rfl <;> rfl)
    rw [heffect] at hexec
    have hport : ((s.replied p e).setError e.tile .tileReject).port p = _ :=
      (State.port_of_ports rfl p).trans State.port_replied
    have hsilenced := silenced_finish s (u := (s.replied p e).setError e.tile .tileReject) (p := p) (d := d)
      (by rw [hport]; exact hprobing)
    refine ⟨_, hexec, hsilenced.silentFrom fun x => ?_, ?_, ?_, ?_⟩
    · rw [State.tile_setError]
      split
      · exact State.state_replied x
      · exact State.state_replied x
    · rw [hsilenced.port, hport]
    · have herror := hsilenced.error
      rw [← htile] at herror
      rw [herror, State.tile_setError, if_pos rfl]
    · rw [hsilenced.port, hport]

end Sys2Proof.Machine
end

section
/-! The probes of an enumeration (R15, R135, R137). -/

namespace Sys2Proof.Machine

theorem Port.freeTag_eq_some {v : Port} {g : Tag} (hfree : v.tagFree g = true) (hlow : ∀ k < g, v.tagFree k = false) :
    v.freeTag = some g := by
  unfold Port.freeTag
  rw [List.find?_eq_some_iff_getElem]
  refine ⟨hfree, g.val, by simp, by simp, fun k hk => ?_⟩
  rw [List.getElem_finRange]
  simpa using hlow ⟨k, by omega⟩ hk

theorem Port.tagFree_of_none_quarantined {v : Port} (h : v.quarantined = 0) (g : Tag) :
    v.tagFree g = true ↔ ∀ e ∈ v.inFlight, e.tag ≠ g := by
  simp [Port.tagFree, h]

/-- The entry of a probe. -/
def probeEntry (p : PortId) (d : Position) (g : Tag) (now : Word) (ms : Nat) : Entry :=
  { tag := g, tile := tileOf p d, owner := .enumeration, kind := .probe, issueTime := now, deadline := some (plusMs now ms),
    phase := .awaiting, x := 0, y := 0, first := 0, pixels := 0, format := .rgb16 }

/-- The port that issues a probe. -/
def Port.probe (p : PortId) (d : Position) (g : Tag) (now : Word) (ms : Nat) (v : Port) : Port :=
  { v with probing := some d, inFlight := v.inFlight ++ [probeEntry p d g now ms],
           transmitting := some ⟨.probe, BitVec.ofNat 4 d.val, BitVec.ofNat 4 g.val, false, []⟩ }

/-- A tile entry without its credits. -/
def TileEntry.sansCredits (e : TileEntry) : TileEntry := { e with credits := 0 }

/-- The state after a probe has issued with tag `g`. -/
def State.probed (s : State) (p : PortId) (d : Position) (g : Tag) : State :=
  (s.modPort p (Port.probe p d g s.now s.settings.replyMs)).modTile (tileOf p d) fun e => { e with credits := e.credits + 1 }

section
variable {s : State} {p : PortId}

theorem State.issueProbe_eq {g : Tag} (h : (s.port p).freeTag = some g) (d : Position) : s.issueProbe p d = s.probed p d g := by
  unfold State.issueProbe
  rw [h]
  rfl

variable (s p) (d : Position) (g : Tag)

theorem State.port_probed : (s.probed p d g).port p = (s.port p).probe p d g s.now s.settings.replyMs :=
  (State.port_of_ports rfl p).trans (State.port_modPort _ _ _)

theorem State.port_probed_ne {q : PortId} (h : q ≠ p) : (s.probed p d g).port q = s.port q :=
  (State.port_of_ports rfl q).trans (State.port_modPort_ne _ _ h)

theorem State.slots_probed : (s.probed p d g).slots = s.slots := (State.modPort_fields s p _).2.2.2.2.2.2.2.2.2.2.2.2.2.2.1

theorem State.body_probed : (s.probed p d g).body = s.body := State.body_modPort s p _

theorem State.tile_probed (x : TileNum) : ((s.probed p d g).tile x).sansCredits = (s.tile x).sansCredits := by
  have htile := State.tile_of_tiles (State.tiles_modPort s p (Port.probe p d g s.now s.settings.replyMs))
  unfold State.probed
  rw [State.tile_modTile, htile, htile]
  split
  · next h =>
    rw [h]
    rfl
  · rfl

end

/-! ## CHAIN_RESET_WAIT_EXPIRY (R135) -/

/-- The port with its tags released. -/
def State.tagsReleased (s : State) (p : PortId) : State := s.modPort p fun v => { v with waitDue := none, quarantined := 0 }

/-- The tiles of the port with the values of the chain reset. -/
def State.chainResetTiles (s : State) (p : PortId) : State := (portTiles p).foldl (fun s t => s.modTile t TileEntry.chainReset) s

section
variable (s : State) (p : PortId)

theorem State.tilesOnly_chainResetTiles : TilesOnly s (s.chainResetTiles p) := TilesOnly.foldl (fun s x => .modTile s x _) _ s

theorem State.tile_chainResetTiles (x : TileNum) :
    (s.chainResetTiles p).tile x = if portOf x = p then (s.tile x).chainReset else s.tile x := by
  unfold State.chainResetTiles
  rw [TilesOnly.tile_foldl (F := fun _ => TileEntry.chainReset) (fun s x => .modTile s x _) (fun s x u => s.tile_modTile x u _)
    (nodup_portTiles p)]
  simp only [mem_portTiles]

/-- The state as the wait's end leaves it to the end of its event. -/
def State.chainResetDone (s : State) (p : PortId) (g : Tag) : State := ((s.tagsReleased p).chainResetTiles p).probed p 0 g

variable {s p}

theorem chainResetWaitExpiryEffect_eq {g : Tag} (hst : (s.port p).state = .enumerating)
    (hdue : reachedOpt s.now (s.port p).waitDue = true) (hfree : ∀ e ∈ (s.port p).inFlight, e.tag ≠ g)
    (hlow : ∀ k < g, ∃ e ∈ (s.port p).inFlight, e.tag = k) :
    chainResetWaitExpiryEffect p s = finish s (s.chainResetDone p g) := by
  have hport : (s.tagsReleased p).port p = { s.port p with waitDue := none, quarantined := 0 } := State.port_modPort _ _ _
  have honly := (s.tagsReleased p).tilesOnly_chainResetTiles p
  have heq : chainResetWaitExpiryEffect p s = finish s (((s.tagsReleased p).chainResetTiles p).issueProbe p 0) :=
    if_pos ⟨hst, hdue⟩
  rw [heq]
  unfold State.chainResetDone
  generalize (s.tagsReleased p).chainResetTiles p = v at honly
  have hfreeTag : (v.port p).freeTag = some g := by
    rw [honly.port, hport]
    refine Port.freeTag_eq_some ((Port.tagFree_of_none_quarantined rfl g).2 hfree) fun k hk => Bool.eq_false_iff.2 fun h => ?_
    obtain ⟨e, he, htag⟩ := hlow k hk
    exact (Port.tagFree_of_none_quarantined rfl k).1 h e he htag
  rw [State.issueProbe_eq hfreeTag]

theorem State.port_chainResetDone (g : Tag) : (s.chainResetDone p g).port p =
    ({ s.port p with waitDue := none, quarantined := 0 } : Port).probe p 0 g s.now s.settings.replyMs := by
  have honly := (s.tagsReleased p).tilesOnly_chainResetTiles p
  have hport : (s.tagsReleased p).port p = { s.port p with waitDue := none, quarantined := 0 } := State.port_modPort _ _ _
  have hbody : (s.tagsReleased p).body = s.body := State.body_modPort s p _
  unfold State.chainResetDone
  generalize (s.tagsReleased p).chainResetTiles p = v at honly
  rw [State.port_probed, honly.port, hport, honly.now, honly.settings, State.now_of_body hbody, State.settings_of_body hbody]

theorem State.port_chainResetDone_ne (g : Tag) {q : PortId} (h : q ≠ p) : (s.chainResetDone p g).port q = s.port q := by
  have honly := (s.tagsReleased p).tilesOnly_chainResetTiles p
  unfold State.chainResetDone
  generalize (s.tagsReleased p).chainResetTiles p = v at honly
  rw [State.port_probed_ne _ _ _ _ h, honly.port]
  exact State.port_modPort_ne _ _ h

theorem State.slots_chainResetDone (g : Tag) : (s.chainResetDone p g).slots = s.slots := by
  have honly := (s.tagsReleased p).tilesOnly_chainResetTiles p
  unfold State.chainResetDone
  generalize (s.tagsReleased p).chainResetTiles p = v at honly
  rw [State.slots_probed, honly.slots]
  exact (State.modPort_fields s p _).2.2.2.2.2.2.2.2.2.2.2.2.2.2.1

theorem State.body_chainResetDone (g : Tag) : (s.chainResetDone p g).body = s.body := by
  have honly := (s.tagsReleased p).tilesOnly_chainResetTiles p
  unfold State.chainResetDone
  generalize (s.tagsReleased p).chainResetTiles p = v at honly
  rw [State.body_probed, honly.body]
  exact State.body_modPort s p _

theorem State.tile_chainResetDone (g : Tag) (x : TileNum) : ((s.chainResetDone p g).tile x).sansCredits =
    (if portOf x = p then (s.tile x).chainReset else s.tile x).sansCredits := by
  have htile : ((s.tagsReleased p).chainResetTiles p).tile x = if portOf x = p then (s.tile x).chainReset else s.tile x := by
    rw [State.tile_chainResetTiles, show (s.tagsReleased p).tile x = s.tile x from State.tile_of_tiles (State.tiles_modPort _ _ _) x]
  unfold State.chainResetDone
  rw [State.tile_probed, htile]

theorem State.state_chainResetDone (g : Tag) (x : TileNum) : ((s.chainResetDone p g).tile x).state = (s.tile x).state := by
  refine (congrArg TileEntry.state (State.tile_chainResetDone g x) :).trans ?_
  split <;> rfl

theorem State.hasInFlight_chainResetDone (g : Tag) (i : SlotNum) (x : TileNum) (h : s.hasInFlight i x = true) :
    (s.chainResetDone p g).hasInFlight i x = true := by
  unfold State.hasInFlight at h ⊢
  by_cases hx : portOf x = p
  · rw [hx, State.port_chainResetDone, ← hx]
    simp [Port.probe, h]
  · rw [State.port_chainResetDone_ne g hx]
    exact h

/-- In a state between two events the wait's end closes streams alone. -/
theorem tile_finish_chainResetDone (hq : Quiet s) (g : Tag) (x : TileNum) : ((finish s (s.chainResetDone p g)).tile x).lastError =
    ((s.chainResetDone p g).tile x).lastError := by
  have hcalm : Calm s (s.chainResetDone p g) := .of_slots (State.slots_chainResetDone g) (State.hasInFlight_chainResetDone g)
  rw [finish, State.tile_commit, settle_of_still (fun x => (State.state_chainResetDone g x).symm) (hcalm.settled hq.settled)
    (hcalm.ready hq.ready), State.tile_closeStreams]
  rcases State.closedEntry_cases (s.chainResetDone p g) x ((s.chainResetDone p g).tile x) with h | h
  · rw [h]
  · rw [h]

end

/-- Settles O48. -/
theorem chainResetWaitEnds : Obligations.ChainResetWaitEnds := by
  unfold Obligations.ChainResetWaitEnds
  intro s p due g hlow hst hdue hreach hfree htags
  have hexec : exec (.chainResetWaitExpiry p) s = .next (chainResetWaitExpiryEffect p s) := exec_of_high hlow rfl
  rw [chainResetWaitExpiryEffect_eq hst (by rw [hdue]; exact hreach) hfree htags] at hexec
  have hframe : EventFrame (s.chainResetDone p g) (finish s (s.chainResetDone p g)) := finish_frame _ _
  have hport := (hframe.port p).trans (State.port_chainResetDone g)
  have hreset (d : Position) : ((s.chainResetDone p g).tile (tileOf p d)).sansCredits = (s.tile (tileOf p d)).chainReset.sansCredits :=
    (State.tile_chainResetDone g _).trans (by rw [if_pos (portOf_tileOf p d)])
  have hne (q : PortId) (hq : q ≠ p) := (hframe.port q).trans (State.port_chainResetDone_ne g hq)
  have hengine := hframe.engine.trans (State.engine_of_body (State.body_chainResetDone g))
  have herror (hq : Quiet s) := tile_finish_chainResetDone (p := p) hq g
  generalize s.chainResetDone p g = u at *
  have htile (d : Position) : ((finish s u).tile (tileOf p d)).eraseWork.sansCredits =
      (s.tile (tileOf p d)).chainReset.eraseWork.sansCredits :=
    (congrArg TileEntry.sansCredits (hframe.tile _)).trans (congrArg TileEntry.eraseWork (hreset d))
  refine ⟨_, probeEntry p 0 g s.now s.settings.replyMs, hexec, by rw [hport]; rfl, by rw [hport]; rfl, by rw [hport]; rfl,
    by rw [hport]; rfl, rfl, rfl, rfl, rfl, rfl, rfl, by rw [hport]; rfl, fun d => ?_, hne, hengine⟩
  · have h := htile d
    have herror (hq : Quiet s) := (herror hq (tileOf p d)).trans (congrArg TileEntry.lastError (hreset d) :)
    generalize (finish s u).tile (tileOf p d) = e at h herror ⊢
    exact ⟨(congrArg TileEntry.shown h :), (congrArg TileEntry.inverted h :), (congrArg TileEntry.band h :),
      (congrArg TileEntry.window h :), (congrArg TileEntry.roll h :), (congrArg TileEntry.wakeAck h :),
      (congrArg TileEntry.settleDue h :), (congrArg TileEntry.readyDue h :), (congrArg TileEntry.restDue h :),
      (congrArg TileEntry.lastFault h :), (congrArg TileEntry.lastPixelAck h :), (congrArg TileEntry.state h :),
      herror⟩

end Sys2Proof.Machine
end

section
/-! Probes answered (R15, R16, R137), and the last error of a tile on which nothing else can fail. -/

namespace Sys2Proof.Machine

/-! ## A tile that only its own work can mark -/

/-- The jobs of `u` are those of `s` with no other tile parts, and the job in slot `own` has none on `x` to judge. -/
def State.Follows (s u : State) (x : TileNum) (own : Option SlotNum) : Prop :=
  ∀ i k, u.job i = some k → ∃ j, s.job i = some j ∧ k.frame = j.frame ∧ (∀ y ∈ k.partTiles, y ∈ j.partTiles) ∧
    (own = some i → k.AtRestOn x)

section
variable {s u : State} {x : TileNum} {own : Option SlotNum}

theorem State.Follows.noLaterStep (hf : s.Follows u x own) (hun : s.NoLaterStep x) : u.NoLaterStep x :=
  fun i k hk hrun st hst => by
    obtain ⟨j, hj, hframe, -, -⟩ := hf i k hk
    rw [Job.phase_of_frame hframe] at hrun
    rw [Job.steps_of_frame hframe, Job.current_of_frame hframe] at hst
    exact hun i j hj hrun st hst

theorem State.Undisturbed.noLaterStep (hun : s.Undisturbed x own) : s.NoLaterStep x :=
  fun i j hj hrun => (hun i j hj (Phase.isRunning_iff.2 hrun)).2

theorem State.Follows.atRest (hf : s.Follows u x own) (hun : s.Undisturbed x own) {i : SlotNum} {k : Job}
    (hk : u.job i = some k) : k.AtRestOn x := fun hrun => by
  obtain ⟨j, hj, hframe, hparts, hown⟩ := hf i k hk
  by_cases h : own = some i
  · exact hown h hrun
  · have hjrun : j.phase.isRunning = true := by rwa [← Job.phase_of_frame hframe]
    refine Job.AtRestOn.of_none (Job.part?_eq_none.2 fun hmem => ?_) hrun
    obtain ⟨q, hq, htile⟩ := List.mem_map.1 (hparts x hmem)
    exact (hun i j hj hjrun).1 h q hq htile

theorem lastError_finish_of_rest (before : State) (hlater : u.NoLaterStep x) (hrest : ∀ i k, u.job i = some k → k.AtRestOn x) :
    ((finish before u).tile x).lastError = (u.tile x).lastError := by
  rw [tile_finish_of_noLater hlater, tile_rejudgeChanged_of_atRest hrest]
  rcases State.closedEntry_cases (resolved before u) x (u.tile x) with h | h
  · rw [h]
  · rw [h]

/-- Where nothing else can fail on the tile, its last error stands at the end of the event as the event has set it. -/
theorem lastError_finish_of_follows (before : State) (hf : s.Follows u x own) (hun : s.Undisturbed x own) :
    ((finish before u).tile x).lastError = (u.tile x).lastError :=
  lastError_finish_of_rest before (hf.noLaterStep hun.noLaterStep) fun _ _ hk => hf.atRest hun hk

end

/-! ## What an identity fills in (R137) -/

/-- The geometry of an identity. -/
def probeGeometry (ws : List Word) : Geometry :=
  ⟨lowHalf (ws.getD 4 0), lowHalf (ws.getD 5 0), lowHalf (ws.getD 3 0)⟩

theorem Geometry.inRange_iff {g : Geometry} : g.inRange = true ↔ 8 ≤ g.width.toNat ∧ g.width.toNat ≤ 1024 ∧
    8 ≤ g.height.toNat ∧ g.height.toNat ≤ 1024 ∧ 5 ≤ g.framePeriod.toNat ∧ g.framePeriod.toNat ≤ 100 := by
  unfold Geometry.inRange Machine.inRange
  simp only [Bool.and_eq_true, decide_eq_true_iff, and_assoc]

theorem TileEntry.probed_fields (now : Word) (ws : List Word) (e : TileEntry) :
    (e.probed now ws).identity = some ⟨lowHalf (ws.getD 0 0), lowHalf (ws.getD 1 0), lowHalf (ws.getD 2 0)⟩ ∧
    (e.probed now ws).geometry = some (probeGeometry ws) ∧ (e.probed now ws).changedAt = now ∧ (e.probed now ws).lastFault = 0 := by
  unfold TileEntry.probed
  dsimp only
  split <;> exact ⟨rfl, rfl, rfl, rfl⟩

theorem TileEntry.probed_good {ws : List Word} (h : (probeGeometry ws).inRange = true) (now : Word) (e : TileEntry) :
    (e.probed now ws).state = .asleep ∧
    (e.probed now ws).window = some ⟨0, (probeGeometry ws).width - 1, 0, (probeGeometry ws).height - 1⟩ ∧
    (e.probed now ws).roll = some ⟨0, (probeGeometry ws).height, 0⟩ ∧
    (e.probed now ws).band = some ⟨(e.band.map fun b => b.band).getD false, some (0, (probeGeometry ws).height - 1)⟩ ∧
    (e.probed now ws).lastError = none := by
  have heq : e.probed now ws = { e.enter now .asleep with
      identity := some ⟨lowHalf (ws.getD 0 0), lowHalf (ws.getD 1 0), lowHalf (ws.getD 2 0)⟩,
      geometry := some (probeGeometry ws), changedAt := now, lastError := none, lastFault := 0,
      band := some ⟨(match e.band with | some b => b.band | none => false), some (0, (probeGeometry ws).height - 1)⟩,
      window := some ⟨0, (probeGeometry ws).width - 1, 0, (probeGeometry ws).height - 1⟩,
      roll := some ⟨0, (probeGeometry ws).height, 0⟩ } := if_pos h
  rw [heq]
  refine ⟨TileEntry.enter_state e now .asleep, rfl, rfl, ?_, rfl⟩
  cases e.band <;> rfl

theorem TileEntry.probed_bad {ws : List Word} (h : (probeGeometry ws).inRange = false) (now : Word) (e : TileEntry) :
    (e.probed now ws).state = .faulted ∧ (e.probed now ws).window = e.window ∧ (e.probed now ws).roll = e.roll ∧
    (e.probed now ws).lastError = some .badIdentity := by
  have heq : e.probed now ws = { e.enter now .faulted with
      identity := some ⟨lowHalf (ws.getD 0 0), lowHalf (ws.getD 1 0), lowHalf (ws.getD 2 0)⟩,
      geometry := some (probeGeometry ws), changedAt := now, lastError := some .badIdentity, lastFault := 0 } :=
    if_neg (by rw [Bool.not_eq_true]; exact h)
  rw [heq]
  refine ⟨TileEntry.enter_state e now .faulted, ?_, ?_, rfl⟩
  · unfold TileEntry.enter
    dsimp only
    split <;> rfl
  · unfold TileEntry.enter
    dsimp only
    split <;> rfl

/-! ## The next probe -/

section
variable (s : State) (p : PortId) (d : Position)

theorem State.issueProbe_rest (x : TileNum) : ((s.issueProbe p d).tile x).sansCredits = (s.tile x).sansCredits ∧
    (s.issueProbe p d).slots = s.slots := by
  cases h : (s.port p).freeTag with
  | none =>
    unfold State.issueProbe
    rw [h]
    exact ⟨rfl, rfl⟩
  | some g =>
    rw [State.issueProbe_eq h]
    exact ⟨s.tile_probed p d g x, s.slots_probed p d g⟩

/-- The state with the probed tile filled in. -/
def State.filled (s : State) (p : PortId) (d : Position) (ws : List Word) : State :=
  s.modTile (tileOf p d) (TileEntry.probed s.now ws)

variable {s p d}

theorem State.probeAnswered_next (hprobing : (s.port p).probing = some d) (h : d.val + 1 < 12) (ws : List Word) :
    s.probeAnswered p ws = (s.filled p d ws).issueProbe p ⟨d.val + 1, h⟩ := by
  unfold State.probeAnswered
  rw [hprobing]
  exact dif_pos h

theorem State.probeAnswered_last (hprobing : (s.port p).probing = some d) (h : ¬ d.val + 1 < 12) (ws : List Word) :
    s.probeAnswered p ws = (s.filled p d ws).portUp p := by
  unfold State.probeAnswered
  rw [hprobing]
  exact dif_neg h

theorem State.probeAnswered_rest (hprobing : (s.port p).probing = some d) (ws : List Word) :
    ((s.probeAnswered p ws).tile (tileOf p d)).sansCredits = ((s.tile (tileOf p d)).probed s.now ws).sansCredits ∧
    (s.probeAnswered p ws).slots = s.slots := by
  have hfilled : (s.filled p d ws).tile (tileOf p d) = (s.tile (tileOf p d)).probed s.now ws :=
    (State.tile_modTile _ _ _ _).trans (if_pos rfl)
  by_cases h : d.val + 1 < 12
  · rw [State.probeAnswered_next hprobing h, ← hfilled]
    exact State.issueProbe_rest _ p _ _
  · rw [State.probeAnswered_last hprobing h, ← hfilled]
    exact ⟨congrArg TileEntry.sansCredits (State.tile_of_tiles (State.tiles_modPort _ _ _) _),
      (State.modPort_fields _ p _).2.2.2.2.2.2.2.2.2.2.2.2.2.2.1⟩

end

section
variable {s : State} {p : PortId} {e : Entry}

theorem State.slot_replied (k : SlotNum) : (s.replied p e).slot k = if e.owner.slot? = some k then
    (s.slot k).mapJob (fun j => { j with outstanding := j.outstanding - 1 }) else s.slot k := by
  have hslot : (s.keepOlderWrite p e).slot k = s.slot k := by
    rw [State.keepOlderWrite_eq]
    exact (State.setPort_reads _ _ _).2.2.2.1 k
  unfold State.replied
  rw [State.slot_endEntry, hslot]

/-- The end of an entry changes its owner's count alone. -/
theorem State.job_of_replied {i : SlotNum} {k : Job} (hk : (s.replied p e).job i = some k) :
    ∃ j, s.job i = some j ∧ k.frame = j.frame ∧ k.parts = j.parts := by
  unfold State.job at hk
  rw [State.slot_replied] at hk
  split at hk
  · rw [Slot.job?_mapJob, Option.map_eq_some_iff] at hk
    obtain ⟨j, hj, rfl⟩ := hk
    exact ⟨j, hj, rfl, rfl⟩
  · exact ⟨k, hk, rfl, rfl⟩

theorem State.body_replied : (s.replied p e).body = s.body := by
  unfold State.replied
  rw [State.body_endEntry, State.keepOlderWrite_eq, State.body_setPort]

theorem State.follows_of_slots {u : State} (x : TileNum) (h : u.slots = (s.replied p e).slots) : s.Follows u x none :=
  fun i k hk => by
    rw [State.job_of_slots h] at hk
    obtain ⟨j, hj, hframe, hparts⟩ := State.job_of_replied hk
    exact ⟨j, hj, hframe, fun y hy => by unfold Job.partTiles at hy ⊢; rwa [← hparts], nofun⟩

end

/-- Settles O50. -/
theorem probesAnswered : Obligations.ProbesAnswered := by
  unfold Obligations.ProbesAnswered
  intro s p d tag e ws hlow hst hprobing hmatch hkind hlen w h f ok
  have hexec : exec (.dataReceived p d tag ws) s = .next (dataReceivedEffect p d tag ws s) := exec_of_high hlow rfl
  have heffect : dataReceivedEffect p d tag ws s = finish s ((s.replied p e).probeAnswered p ws) := by
    unfold dataReceivedEffect
    rw [hmatch, if_pos (Port.receives_of_probing hst hprobing)]
    exact (if_pos hkind).trans (if_pos hlen)
  rw [heffect] at hexec
  have hport : (s.replied p e).port p = _ := State.port_replied
  have hprobing' : ((s.replied p e).port p).probing = some d := by rw [hport]; exact hprobing
  obtain ⟨htile, hslots⟩ := State.probeAnswered_rest hprobing' ws
  have hframe : EventFrame ((s.replied p e).probeAnswered p ws) (finish s ((s.replied p e).probeAnswered p ws)) := finish_frame _ _
  have hnow : (s.replied p e).now = s.now := State.now_of_body State.body_replied
  have hset : (s.replied p e).settings = s.settings := State.settings_of_body State.body_replied
  rw [hnow] at htile
  have hband : ((s.replied p e).tile (tileOf p d)).band = (s.tile (tileOf p d)).band ∧
      ((s.replied p e).tile (tileOf p d)).window = (s.tile (tileOf p d)).window ∧
      ((s.replied p e).tile (tileOf p d)).roll = (s.tile (tileOf p d)).roll := by
    rw [State.tile_replied]
    split <;> exact ⟨rfl, rfl, rfl⟩
  have hok : ok ↔ (probeGeometry ws).inRange = true := (Geometry.inRange_iff (g := probeGeometry ws)).symm
  have herror (hq : s.Undisturbed (tileOf p d) none) :=
    (lastError_finish_of_follows s (State.follows_of_slots _ hslots) hq).trans (congrArg TileEntry.lastError htile :)
  have hnext (hd : d.val < 11) (hin : (s.port p).inFlight = [e]) (hquar : (s.port p).quarantined = 0) :
      (finish s ((s.replied p e).probeAnswered p ws)).port p =
        ((s.replied p e).port p).probe p ⟨d.val + 1, by omega⟩ 0 s.now s.settings.replyMs := by
    have hfilledPort : ((s.replied p e).filled p d ws).port p = (s.replied p e).port p := State.port_of_ports rfl p
    have hfree : (((s.replied p e).filled p d ws).port p).freeTag = some 0 := by
      have hquar' : ((s.replied p e).port p).quarantined = 0 := by rw [hport]; exact hquar
      have hempty : ((s.replied p e).port p).inFlight = [] := by rw [hport, hin]; simp
      rw [hfilledPort]
      exact Port.freeTag_eq_some ((Port.tagFree_of_none_quarantined hquar' 0).2 (by rw [hempty]; simp))
        fun k hk => absurd hk (Fin.not_lt_zero k)
    rw [hframe.port, State.probeAnswered_next hprobing' (by omega), State.issueProbe_eq hfree, State.port_probed, hfilledPort]
    exact congrArg₂ (fun n m => ((s.replied p e).port p).probe p ⟨d.val + 1, by omega⟩ 0 n m) hnow
      (congrArg Settings.replyMs hset)
  have hlast (hd : d.val = 11) : (finish s ((s.replied p e).probeAnswered p ws)).port p =
      { (s.replied p e).port p with state := .up, probing := none, waitDue := none } ∧
      (finish s ((s.replied p e).probeAnswered p ws)).notice.port = true := by
    rw [hframe.port, hframe.portNotice, State.probeAnswered_last hprobing' (by omega)]
    exact ⟨State.port_modPort _ _ _, rfl⟩
  have hwork : ((finish s ((s.replied p e).probeAnswered p ws)).tile (tileOf p d)).eraseWork.sansCredits =
      (((s.replied p e).tile (tileOf p d)).probed s.now ws).eraseWork.sansCredits :=
    (congrArg TileEntry.sansCredits (hframe.tile (tileOf p d))).trans (congrArg TileEntry.eraseWork htile)
  rw [hport] at hnext hlast
  refine ⟨_, hexec, ?_⟩
  clear hexec heffect hframe htile
  generalize (s.replied p e).tile (tileOf p d) = r at hband hwork herror
  generalize finish s ((s.replied p e).probeAnswered p ws) = t at *
  generalize t.tile (tileOf p d) = v at *
  obtain ⟨hid, hgeo, hchanged, hfault⟩ := TileEntry.probed_fields s.now ws r
  refine ⟨(congrArg TileEntry.identity hwork :).trans hid, (congrArg TileEntry.geometry hwork :).trans hgeo,
    (congrArg TileEntry.changedAt hwork :).trans hchanged, (congrArg TileEntry.lastFault hwork :).trans hfault, fun h => ?_,
    fun _ hun => ?_, fun h => ?_, fun hd hin hquar => ?_, fun hd => ?_⟩
  · obtain ⟨hstate, hwin, hroll, hb, -⟩ := TileEntry.probed_good (hok.1 h) s.now r
    rw [hband.1] at hb
    exact ⟨(congrArg TileEntry.state hwork :).trans hstate, (congrArg TileEntry.window hwork :).trans hwin,
      (congrArg TileEntry.roll hwork :).trans hroll, (congrArg TileEntry.band hwork :).trans hb⟩
  · by_cases h : ok
    · rw [if_pos h]
      exact (herror hun).trans (TileEntry.probed_good (hok.1 h) s.now r).2.2.2.2
    · rw [if_neg h]
      exact (herror hun).trans (TileEntry.probed_bad (Bool.eq_false_iff.2 fun hr => h (hok.2 hr)) s.now r).2.2.2
  · obtain ⟨hstate, hwin, hroll, -⟩ := TileEntry.probed_bad (Bool.eq_false_iff.2 fun hr => h (hok.2 hr)) s.now r
    exact ⟨(congrArg TileEntry.state hwork :).trans hstate,
      (congrArg TileEntry.window hwork :).trans (hwin.trans hband.2.1),
      (congrArg TileEntry.roll hwork :).trans (hroll.trans hband.2.2)⟩
  · have hnext := hnext hd hin hquar
    rw [hnext]
    refine ⟨hst, _, probeEntry p ⟨d.val + 1, by omega⟩ 0 s.now s.settings.replyMs, rfl, rfl, ?_, rfl, rfl, rfl, rfl⟩
    show (s.port p).inFlight.filter _ ++ [_] = [_]
    rw [hin]
    simp
  · obtain ⟨hup, hnotice⟩ := hlast hd
    rw [hup]
    exact ⟨rfl, rfl, hnotice⟩

end Sys2Proof.Machine
end

section
/-! Faulty packets and replies that match no entry (R16, R142, R149). -/

namespace Sys2Proof.Machine

theorem Port.receives_iff {v : Port} : v.receives = true ↔ v.state = .up ∨ (v.state = .enumerating ∧ v.probing ≠ none) := by
  unfold Port.receives
  cases v.state <;> simp [Option.isSome_iff_ne_none]

theorem Port.matching_eq_none {v : Port} {tag : Tag} {x : TileNum} :
    v.matching tag x = none ↔ ∀ e ∈ v.inFlight, ¬ (e.tag = tag ∧ e.tile = x) := by
  unfold Port.matching
  rw [List.find?_eq_none]
  simp only [Bool.and_eq_true, decide_eq_true_iff]

theorem State.stray_eq (s : State) (p : PortId) (d : Position) : s.stray p d =
    if (s.tile (tileOf p d)).state.present = true ∧ (s.port p).answered d = true
    then s.setTile (tileOf p d) { s.tile (tileOf p d) with lastError := some .strayReply } else s := by
  unfold State.stray
  simp only [Bool.and_eq_true]
  rfl

section
variable {s u : State}

/-- What the end of an event does to a state between two events whose tiles' last errors alone have changed. -/
theorem finish_of_still (hq : Quiet s) (honly : TilesOnly s u) (hstates : ∀ x, (u.tile x).state = (s.tile x).state) :
    (finish s u).slots = s.slots ∧ (finish s u).waitList = s.waitList ∧
      ∀ x, ((finish s u).tile x).lastError = (u.tile x).lastError := by
  have hcalm : Calm s u := .of_ports honly.slots honly.ports
  have hsettle := settle_of_still (fun x => (hstates x).symm) (hcalm.settled hq.settled) (hcalm.ready hq.ready)
  refine ⟨?_, ?_, fun x => ?_⟩
  · rw [slots_finish_of_still (fun x => (hstates x).symm) (hcalm.settled hq.settled) (hcalm.ready hq.ready), honly.slots]
  · rw [finish, waitList_commit, hsettle, State.waitList_closeStreams, honly.waitList]
  · rw [finish, State.tile_commit, hsettle, State.tile_closeStreams]
    rcases State.closedEntry_cases u x (u.tile x) with h | h
    · rw [h]
    · rw [h]

end

/-- Settles O51. -/
theorem faultyAndStrayPackets : Obligations.FaultyAndStrayPackets := by
  unfold Obligations.FaultyAndStrayPackets
  refine ⟨fun s p bs hlow => ?_, fun v tag x => ⟨Port.matching_eq_none, fun e he => Port.matching_spec he⟩, ?_⟩
  · have hexec : exec (.linkErrorPacket p bs) s = .next (linkErrorPacketEffect p bs s) := exec_of_high hlow rfl
    refine ⟨fun hrec hfaulty => hexec.trans (congrArg _ ?_), fun hrec => hexec.trans (congrArg _ ?_), Port.receives_iff⟩
    · unfold linkErrorPacketEffect
      rw [if_pos hrec]
      rcases hfaulty with h | h
      all_goals
        rw [h]
        exact rfl
    · exact if_neg (by rw [hrec]; exact Bool.false_ne_true)
  · intro s p d tag st ws c hlow hrec hmatch hc
    have heffect : effectOf c s = finish s (s.stray p d) := by
      rcases hc with rfl | rfl
      · show ackReceivedEffect p d tag st s = _
        unfold ackReceivedEffect
        rw [hmatch, if_pos hrec]
      · show dataReceivedEffect p d tag ws s = _
        unfold dataReceivedEffect
        rw [hmatch, if_pos hrec]
    have hexec : exec c s = .next (effectOf c s) := exec_of_high hlow (by rcases hc with rfl | rfl <;> rfl)
    rw [heffect] at hexec
    have hframe : EventFrame (s.stray p d) (finish s (s.stray p d)) := finish_frame _ _
    have hstray := s.stray_eq p d
    refine ⟨_, hexec, ?_⟩
    by_cases h : (s.tile (tileOf p d)).state.present = true ∧ (s.port p).answered d = true
    · rw [if_pos h] at hstray ⊢
      rw [if_pos h]
      have honly : TilesOnly s (s.stray p d) := by rw [hstray]; rfl
      have htile (x : TileNum) : (s.stray p d).tile x = if tileOf p d = x then
          { s.tile (tileOf p d) with lastError := some .strayReply } else s.tile x := by
        rw [hstray, State.tile_setTile]
      have hstates (x : TileNum) : ((s.stray p d).tile x).state = (s.tile x).state := by
        rw [htile]
        split
        · next hx => rw [← hx]
        · rfl
      refine ⟨funext fun q => (hframe.port q).trans (honly.port q), fun x => (hframe.tile x).trans ?_, hstray ▸ hframe, fun hq => ?_⟩
      · rw [htile]
        split
        · next hx => rw [← hx]; rfl
        · rfl
      · obtain ⟨hslots, hwait, herror⟩ := finish_of_still hq honly hstates
        refine ⟨hslots, hwait, fun x hx => ?_, ?_⟩
        · rw [herror, htile, if_neg (Ne.symm hx)]
        · rw [herror, htile, if_pos rfl]
    · rw [if_neg h] at hstray ⊢
      rw [if_neg h]
      rw [hstray] at hframe ⊢
      obtain hstill := fun hq => finish_of_still (u := s) hq (.refl s) fun _ => rfl
      exact ⟨funext hframe.port, hframe.tile, hframe, fun hq =>
        ⟨(hstill hq).1, (hstill hq).2.1, fun x _ => (hstill hq).2.2 x, (hstill hq).2.2 _⟩⟩

end Sys2Proof.Machine
end

section
/-! Tile parts judged, and the failures of one event (R30, R31, R35, R36, R94). -/

namespace Sys2Proof.Machine

theorem lowHalf_toNat (w : Word) : (lowHalf w).toNat = w.toNat % 2 ^ 16 := by
  simp [lowHalf]

theorem highHalf_toNat (w : Word) : (highHalf w).toNat = w.toNat / 2 ^ 16 := by
  unfold highHalf
  have hw := w.isLt
  rw [BitVec.toNat_setWidth, BitVec.toNat_ushiftRight, Nat.shiftRight_eq_div_pow]
  omega

theorem operandsFit_iff {e : TileEntry} {st : Step} : operandsFit e st = true ↔ OperandsFit e st := by
  unfold operandsFit OperandsFit
  cases hk : st.kind
  case window =>
    cases e.geometry <;> simp [lowHalf_toNat, highHalf_toNat, and_assoc]
  case band =>
    by_cases hx : st.x = 0#32
    · simp [hx]
    · cases e.geometry <;> simp [hx, lowHalf_toNat, highHalf_toNat]
  case rollArea =>
    cases e.geometry <;> simp [lowHalf_toNat]
  case rollTo =>
    cases e.roll <;> simp [lowHalf_toNat]
  all_goals simp

theorem StepKind.allowedOnFaulted_iff {k : StepKind} :
    k.allowedOnFaulted = true ↔ k = .sleep ∨ k = .readId ∨ k = .readState := by
  cases k <;> decide

section
variable {e : TileEntry} {st : Step}

theorem entryCheck_absent (h : e.state = .absent) : entryCheck e st = some .noTile := if_pos h

theorem entryCheck_lost (h : e.state = .lost) : entryCheck e st = some .tileLost := by
  unfold entryCheck
  rw [if_neg (by rw [h]; decide)]
  exact if_pos h

theorem entryCheck_faulted (h : e.state = .faulted) (hk : st.kind.allowedOnFaulted = false) :
    entryCheck e st = some .tileFault := by
  unfold entryCheck
  rw [if_neg (by rw [h]; decide), if_neg (by rw [h]; decide)]
  exact if_pos ⟨h, hk⟩

theorem entryCheck_present (habsent : e.state ≠ .absent) (hlost : e.state ≠ .lost)
    (hfault : e.state = .faulted → st.kind.allowedOnFaulted = true) :
    entryCheck e st = if operandsFit e st = false then some .badOperand else none := by
  unfold entryCheck
  rw [if_neg habsent, if_neg hlost]
  exact if_neg fun h => absurd ((hfault h.1).symm.trans h.2) (by decide)

end

section
variable {s : State} {st : Step} {x : TileNum}

theorem State.powerInFlight_iff : s.powerInFlight x = true ↔
    ∃ e ∈ (s.port (portOf x)).inFlight, e.tile = x ∧ (e.kind = .wake ∨ e.kind = .sleep) := by
  have hpower (k : PacketKind) : k.isPower = true ↔ k = .wake ∨ k = .sleep := by cases k <;> decide
  unfold State.powerInFlight
  simp only [List.any_eq_true, Bool.and_eq_true, decide_eq_true_iff, hpower]

theorem StepKind.isPower_iff {k : StepKind} : k.isPower = true ↔ k = .wake ∨ k = .sleep := by cases k <;> decide

theorem State.judge_of_check {c : ErrorCode} (h : entryCheck (s.tile x) st = some c) : s.judge st x = .fail c := by
  unfold State.judge
  rw [h]

theorem State.judge_of_none (h : entryCheck (s.tile x) st = none) : s.judge st x =
    if st.kind.isPower && s.powerInFlight x then .waits else disposition st.kind (s.tile x).state := by
  unfold State.judge
  rw [h]

end

theorem State.job_of_mapSlot {s t : State} {i : SlotNum} {f : Job → Job} (h : t.slot i = (s.slot i).mapJob f) {j : Job}
    (hj : s.job i = some j) : t.job i = some (f j) := by
  unfold State.job
  rw [h, State.slot_of_job hj]
  rfl

theorem State.job_resolveSlot {s : State} {i : SlotNum} {j : Job} (hj : s.job i = some j) :
    (s.resolveSlot i).job i = some (j.resolve (s.hasInFlight i)) :=
  State.job_of_mapSlot ((s.slot_resolveSlot i i).trans (if_pos rfl)) hj

theorem disposition_query {k : StepKind} (ts : TileState) (h : k.isQuery = true) : disposition k ts = .candidate := by
  cases k with
  | readId => rfl
  | readState => rfl
  | _ => cases h

theorem disposition_setting {k : StepKind} (h : k.isDisplay = true ∨ k.isConfig = true) :
    disposition k .asleep = .candidate ∧ disposition k .waking = .waits ∧ disposition k .awake = .candidate ∧
      disposition k .dozing = .waits := by
  cases k
  case put | get | wake | sleep | readId | readState | wait | pause | mark => exact absurd h (by decide)
  all_goals exact ⟨rfl, rfl, rfl, rfl⟩

theorem disposition_stream {k : StepKind} (h : k.isStream = true) :
    disposition k .asleep = .fail .notAwake ∧ disposition k .waking = .waits ∧ disposition k .awake = .candidate ∧
      disposition k .dozing = .fail .notAwake := by
  cases k
  case put | get => exact ⟨rfl, rfl, rfl, rfl⟩
  all_goals cases h

/-- Settles O29. -/
theorem partsJudgedAndFailuresRecorded : Obligations.PartsJudgedAndFailuresRecorded := by
  unfold Obligations.PartsJudgedAndFailuresRecorded
  refine ⟨⟨fun _ => disposition_query, fun _ => disposition_setting, fun _ => disposition_stream, rfl, rfl, rfl, rfl, rfl, rfl,
    rfl, rfl, rfl⟩, ?_, ?_, fun s i j st x code hj hrun hst hlow => ?_⟩
  · intro e st tolerates
    have htol : tolerates ↔ st.kind.allowedOnFaulted = true := StepKind.allowedOnFaulted_iff.symm
    refine ⟨entryCheck_absent, entryCheck_lost, fun h hk => ?_, fun habsent hlost hfault => ?_⟩
    · exact entryCheck_faulted h (Bool.eq_false_iff.2 fun ht => hk (htol.2 ht))
    · rw [entryCheck_present habsent hlost fun h => htol.1 (hfault h), ← operandsFit_iff]
      refine ⟨fun h => if_neg (by rw [h]; decide), fun h => if_pos (Bool.eq_false_iff.2 h)⟩
  · intro s st x held
    refine ⟨fun c => State.judge_of_check, fun hnone => ?_⟩
    have hheld : held ↔ (st.kind.isPower && s.powerInFlight x) = true := by
      rw [Bool.and_eq_true, StepKind.isPower_iff, State.powerInFlight_iff]
    rw [State.judge_of_none hnone]
    exact ⟨fun h => if_pos (hheld.1 h), fun h => if_neg fun h' => h (hheld.2 h')⟩
  · obtain ⟨hmem, hall⟩ := lowestFailing_spec hlow
    have hres := State.job_resolveSlot hj
    refine ⟨hmem, hall, fun htol => ⟨_, hres, ?_⟩, fun htol => ⟨_, hres, ?_⟩⟩
    · obtain ⟨hphase, hfirst, -, htolerated⟩ := Job.resolve_drains hrun hlow ((Job.flag_of_step hst _).trans htol) (s.hasInFlight i)
      exact ⟨hphase, hfirst, htolerated⟩
    · rw [Job.resolve_tolerates hrun hlow ((Job.flag_of_step hst _).trans htol)]
      exact ⟨hrun, rfl, rfl⟩

end Sys2Proof.Machine
end

section
/-! SETTLE_TIMER_EXPIRY and REST_TIMER_EXPIRY (R32, R33, R88, R94, R96, R97). -/

namespace Sys2Proof.Machine

/-! ## One tile's parts judged again -/

section
variable {s u : State} {x : TileNum} {i : SlotNum} {j : Job} {st : Step} {q : TilePart}

theorem job_rejudgeChanged_one (hother : ∀ y, y ≠ x → (s.tile y).state = (u.tile y).state)
    (hx : (s.tile x).state ≠ (u.tile x).state) (hj : u.job i = some j) :
    (State.rejudgeChanged s u).job i = some (j.rejudge x fun st => u.judge st x) := by
  rw [State.rejudgeChanged_eq_rejudgeTile hother hx]
  exact State.job_of_mapSlot (u.slot_rejudgeTile x i) hj

theorem Job.rejudge_pending (hrun : j.phase = .running) (hst : j.step? = some st) (hq : j.part? x = some q)
    (hcond : q.cond = .waiting ∨ q.cond = .joined) (v : Step → Verdict) : j.rejudge x v =
      j.judged x (v st) fun j => j.setPart x fun q => { q with cond := .candidate, staging := stagingFor st.kind } := by
  unfold Job.rejudge
  rw [Phase.isRunning_iff.2 hrun, hst, hq]
  dsimp only
  rcases hcond with h | h
  all_goals rw [h]

theorem Job.rejudge_candidate (hrun : j.phase = .running) (hst : j.step? = some st) (hq : j.part? x = some q)
    (hcond : q.cond = .candidate) (v : Step → Verdict) : j.rejudge x v = j.judged x (v st) id := by
  unfold Job.rejudge
  rw [Phase.isRunning_iff.2 hrun, hst, hq]
  dsimp only
  rw [hcond]

theorem Job.completePart_pending (hq : j.part? x = some q) (hfail : q.cond.hasFailed = false) :
    j.completePart x = { j with parts := j.parts.filter fun q => decide (q.tile ≠ x) } := by
  unfold Job.completePart
  rw [hq]
  exact if_neg (by rw [hfail]; exact Bool.false_ne_true)

/-- A job with a part that has become a candidate stands at its step (R32). -/
theorem job_finish_of_candidate (hq : Quiet s) (hin : ∀ y, u.hasInFlight i y = s.hasInFlight i y) (hj : s.job i = some j)
    (hrun : j.phase = .running) (hst : j.step? = some st) (hengine : st.kind.isEngine = false) (hpart : j.part? x = some q)
    (g : Staging) (hv : (State.rejudgeChanged s u).job i =
      some (j.setPart x fun q => { q with cond := .candidate, staging := g })) :
    (finish s u).job i = some (j.setPart x fun q => { q with cond := .candidate, staging := g }) := by
  have hset : (j.setPart x fun q => { q with cond := .candidate, staging := g }).Settled (u.hasInFlight i) := by
    intro r hr hfail
    obtain ⟨r', hr', rfl⟩ := List.mem_map.1 hr
    by_cases h : r'.tile = x
    · rw [if_pos h] at hfail
      cases hfail
    · rw [if_neg h] at hfail ⊢
      rw [hin]
      exact hq.settled i j hj r' hr' hfail
  have hres := (job_resolved hv).trans (congrArg some (Job.resolve_eq_self hset))
  obtain ⟨hover, hat⟩ := Job.stepOver_of_parts (j := j.setPart x fun q => { q with cond := .candidate, staging := g })
    hst hengine hrun
  refine job_finish_of_not_over hres (hover.trans ?_) hat
  rw [List.isEmpty_eq_false_iff]
  exact fun h => List.ne_nil_of_mem (Job.mem_of_part? hpart).1 (List.map_eq_nil_iff.1 h)

end

/-! ## A tile that enters a state -/

theorem TileEntry.enter_lasts (now : Word) (e : TileEntry) {st : TileState} (h : st ≠ .absent) :
    (e.enter now st).geometry = e.geometry ∧ (e.enter now st).roll = e.roll ∧ (e.enter now st).shown = e.shown ∧
      (e.enter now st).lastPixelAck = e.lastPixelAck := by
  unfold TileEntry.enter
  cases st
  case absent => exact absurd rfl h
  all_goals
    dsimp only
    repeat' split
    all_goals exact ⟨rfl, rfl, rfl, rfl⟩

theorem TileEntry.enter_changedAt (now : Word) (e : TileEntry) {st : TileState} (h : e.state ≠ st) :
    (e.enter now st).changedAt = now := by
  unfold TileEntry.enter
  rw [if_neg h]
  cases st
  all_goals
    dsimp only
    repeat' split
    all_goals rfl

theorem TileEntry.enter_awake_readyDue (now : Word) (e : TileEntry) : (e.enter now .awake).readyDue = e.readyDue := by
  unfold TileEntry.enter
  dsimp only
  split <;> rfl

theorem TileEntry.enter_asleep_marks (now : Word) {e : TileEntry} (h : e.state = .dozing) :
    (e.enter now .asleep).wakeAck = none ∧ (e.enter now .asleep).settleDue = none ∧
      (e.enter now .asleep).readyDue = none ∧ (e.enter now .asleep).restDue = none := by
  unfold TileEntry.enter
  dsimp only
  rw [if_pos h]
  exact ⟨rfl, rfl, rfl, rfl⟩

section
variable {s : State} {x : TileNum} {st : TileState}

theorem State.tile_enterTile (s : State) (x : TileNum) (st : TileState) (u : TileNum) :
    (s.enterTile x st).tile u = if x = u then (s.tile x).enter s.now st else s.tile u := State.tile_modTile _ _ _ _

theorem State.tilesOnly_enterTile (s : State) (x : TileNum) (st : TileState) : TilesOnly s (s.enterTile x st) := .modTile s x _

theorem TilesOnly.hasInFlight {u : State} (h : TilesOnly s u) (i : SlotNum) (y : TileNum) :
    u.hasInFlight i y = s.hasInFlight i y := State.hasInFlight_of_ports h.ports i y

theorem TilesOnly.powerInFlight {u : State} (h : TilesOnly s u) (y : TileNum) : u.powerInFlight y = s.powerInFlight y := by
  unfold State.powerInFlight
  rw [h.port]

theorem TilesOnly.fatal {u : State} (h : TilesOnly s u) : u.fatal = s.fatal := State.fatal_of_body h.body

theorem TilesOnly.job {u : State} (h : TilesOnly s u) (i : SlotNum) : u.job i = s.job i := State.job_of_slots h.slots i

/-- What the whole of an event keeps whose own effect is one tile's change of state. -/
theorem finish_enterTile_rest (s : State) (x : TileNum) (st : TileState) :
    (∀ u, u ≠ x → ((finish s (s.enterTile x st)).tile u).eraseWork = (s.tile u).eraseWork) ∧
    (finish s (s.enterTile x st)).port = s.port ∧ (finish s (s.enterTile x st)).engine = s.engine ∧
    (finish s (s.enterTile x st)).walkerN = s.walkerN ∧ (finish s (s.enterTile x st)).walkerP = s.walkerP ∧
    ((finish s (s.enterTile x st)).tile x).eraseWork = ((s.tile x).enter s.now st).eraseWork := by
  have hframe : EventFrame (s.enterTile x st) (finish s (s.enterTile x st)) := finish_frame _ _
  refine ⟨fun u hu => ?_, funext hframe.port, hframe.engine, hframe.walkerN, hframe.walkerP, ?_⟩
  · rw [hframe.tile, State.tile_enterTile, if_neg (Ne.symm hu)]
  · rw [hframe.tile, State.tile_enterTile, if_pos rfl]

/-- The verdict on a part whose operands fit, of a tile in one of the four power states with no power packet in flight. -/
theorem State.judge_enterTile (hpower : s.powerInFlight x = false) {p : Step} (hfit : OperandsFit (s.tile x) p)
    (hst : st = .awake ∨ st = .asleep) : (s.enterTile x st).judge p x = disposition p.kind st := by
  have htile : (s.enterTile x st).tile x = (s.tile x).enter s.now st := (State.tile_enterTile _ _ _ _).trans (if_pos rfl)
  have hstate : ((s.enterTile x st).tile x).state = st := by rw [htile, TileEntry.enter_state]
  have hne : st ≠ .absent ∧ st ≠ .lost ∧ st ≠ .faulted := by rcases hst with rfl | rfl <;> decide
  obtain ⟨hgeo, hroll, -⟩ := TileEntry.enter_lasts s.now (s.tile x) hne.1
  have hfit' : operandsFit ((s.enterTile x st).tile x) p = true := by
    rw [← operandsFit_iff.2 hfit, htile]
    unfold operandsFit
    rw [hgeo, hroll]
  have hcheck : entryCheck ((s.enterTile x st).tile x) p = none := by
    rw [entryCheck_present (by rw [hstate]; exact hne.1) (by rw [hstate]; exact hne.2.1)
      (fun h => absurd (hstate.symm.trans h) hne.2.2)]
    exact if_neg (by rw [hfit']; decide)
  rw [State.judge_of_none hcheck, (State.tilesOnly_enterTile s x st).powerInFlight, hpower, Bool.and_false, hstate]
  exact if_neg Bool.false_ne_true

theorem job_rejudge_enterTile (hne : (s.tile x).state ≠ st) {i : SlotNum} {j : Job} (hj : s.job i = some j) :
    (State.rejudgeChanged s (s.enterTile x st)).job i = some (j.rejudge x fun p => (s.enterTile x st).judge p x) := by
  refine job_rejudgeChanged_one (fun y hy => ?_) ?_ hj
  · rw [State.tile_enterTile, if_neg (Ne.symm hy)]
  · rw [State.tile_enterTile, if_pos rfl, TileEntry.enter_state]
    exact hne

/-- A waiting part whose kind the new state takes becomes a candidate (R32, R94). -/
theorem job_finish_enterTile (hq : Quiet s) (hpower : s.powerInFlight x = false) (hne : (s.tile x).state ≠ st)
    (hst : st = .awake ∨ st = .asleep) {i : SlotNum} {j : Job} {p : Step} {q : TilePart} (hj : s.job i = some j)
    (hrun : j.phase = .running) (hp : j.step? = some p) (hpart : j.part? x = some q) (hwait : q.cond = .waiting)
    (hengine : p.kind.isEngine = false) (hfit : OperandsFit (s.tile x) p) (hcand : disposition p.kind st = .candidate) :
    (finish s (s.enterTile x st)).job i =
      some (j.setPart x fun q => { q with cond := .candidate, staging := stagingFor p.kind }) := by
  refine job_finish_of_candidate hq ((State.tilesOnly_enterTile s x st).hasInFlight i) hj hrun hp hengine hpart _ ?_
  rw [job_rejudge_enterTile hne hj, Job.rejudge_pending hrun hp hpart (.inl hwait)]
  rw [State.judge_enterTile hpower hfit hst, hcand]
  rfl

end

/-! ## The two timers -/

theorem State.pictureHeld_iff {s : State} {x : TileNum} : s.pictureHeld x = false ↔
    (s.port (portOf x)).state ≠ .enumerating ∨ (s.port (portOf x)).answered (positionOf x) = true := by
  unfold State.pictureHeld
  simp only [Bool.and_eq_false_iff, decide_eq_false_iff_not, Bool.not_eq_false']

theorem OperandsFit.wake {e : TileEntry} {st : Step} (h : st.kind = .wake) : OperandsFit e st := by
  unfold OperandsFit
  simp [h]

/-- Settles O40. -/
theorem powerTimersExpire : Obligations.PowerTimersExpire := by
  unfold Obligations.PowerTimersExpire
  intro s x due hlow free
  have hsettle : exec (.settleTimerExpiry x) s = .next (settleTimerExpiryEffect x s) := exec_of_high hlow rfl
  have hrest : exec (.restTimerExpiry x) s = .next (restTimerExpiryEffect x s) := exec_of_high hlow rfl
  refine ⟨fun hheld => ?_, fun hfree hreach hst hdue => ?_, fun hfree hreach hst hdue hchanged => ?_⟩
  · have hheld' : ¬ s.pictureHeld x = false := fun h => hheld (State.pictureHeld_iff.1 h)
    exact ⟨hsettle.trans (congrArg _ (if_neg fun h => hheld' h.2.2)), hrest.trans (congrArg _ (if_neg fun h => hheld' h.2.2.2))⟩
  · have heffect : settleTimerExpiryEffect x s = finish s (s.enterTile x .awake) :=
      if_pos ⟨hst, by rw [hdue]; exact hreach, State.pictureHeld_iff.2 hfree⟩
    rw [heffect] at hsettle
    have hne : (s.tile x).state ≠ .awake := by rw [hst]; decide
    obtain ⟨hother, hport, hengine, hN, hP, hwork⟩ := finish_enterTile_rest s x .awake
    obtain ⟨-, -, hshown, -⟩ := (s.tile x).enter_lasts s.now (st := .awake) (by decide)
    refine ⟨_, hsettle, (congrArg TileEntry.state hwork :).trans (TileEntry.enter_state _ _ _),
      (congrArg TileEntry.changedAt hwork :).trans (TileEntry.enter_changedAt _ _ hne),
      (congrArg TileEntry.readyDue hwork :).trans (TileEntry.enter_awake_readyDue _ _),
      (congrArg TileEntry.shown hwork :).trans hshown, fun hq hpower i j st q hj hrun hp hpart => ⟨fun hk hcond => ?_,
        fun hk hwake hcond hfit => ?_⟩, hother, hport, hengine, hN, hP⟩
    · refine partLeaves_finish hq (State.tilesOnly_enterTile s x .awake).fatal fun k hk' => ?_
      obtain rfl : j = k := Option.some.inj (hj.symm.trans hk')
      refine resolved_of_leaves hq (fun y _ => (State.tilesOnly_enterTile s x .awake).hasInFlight i y) hj ?_
      rw [job_rejudge_enterTile hne hj, Job.rejudge_pending hrun hp hpart hcond.symm]
      rw [State.judge_enterTile hpower (.wake hk) (.inl rfl), hk]
      refine congrArg some (Job.completePart_pending hpart ?_)
      rcases hcond with h | h
      all_goals
        rw [h]
        rfl
    · refine job_finish_enterTile hq hpower hne (.inl rfl) hj hrun hp hpart hcond hk hfit ?_
      revert hk hwake
      cases st.kind <;> decide
  · have heffect : restTimerExpiryEffect x s = finish s (s.enterTile x .asleep) :=
      if_pos ⟨hst, by rw [hdue]; exact hreach, hchanged, State.pictureHeld_iff.2 hfree⟩
    rw [heffect] at hrest
    have hne : (s.tile x).state ≠ .asleep := by rw [hst]; decide
    obtain ⟨hother, hport, hengine, hN, hP, hwork⟩ := finish_enterTile_rest s x .asleep
    obtain ⟨-, -, -, hack⟩ := (s.tile x).enter_lasts s.now (st := .asleep) (by decide)
    obtain ⟨hwake, hsettled, hready, hrested⟩ := TileEntry.enter_asleep_marks s.now hst
    refine ⟨_, hrest, (congrArg TileEntry.state hwork :).trans (TileEntry.enter_state _ _ _),
      (congrArg TileEntry.changedAt hwork :).trans (TileEntry.enter_changedAt _ _ hne),
      (congrArg TileEntry.wakeAck hwork :).trans hwake, (congrArg TileEntry.settleDue hwork :).trans hsettled,
      (congrArg TileEntry.readyDue hwork :).trans hready, (congrArg TileEntry.restDue hwork :).trans hrested,
      (congrArg TileEntry.lastPixelAck hwork :).trans hack,
      fun hq hpower i j st q hj hrun hp hpart hcond hfit hk hsleep hstream => ?_, hother, hport, hengine, hN, hP⟩
    have hstaging : stagingFor st.kind = .empty := if_neg fun h => by rw [h] at hstream; cases hstream
    have hjob := job_finish_enterTile hq hpower hne (.inr rfl) hj hrun hp hpart hcond hk hfit (by
      revert hk hsleep hstream
      cases st.kind <;> decide)
    rw [hstaging] at hjob
    refine ⟨hjob, fun hkind => ⟨_, st, { q with cond := .candidate, staging := .empty }, hjob, hrun, hp, hkind, ?_, rfl⟩⟩
    rw [Job.part?_setPart (f := fun q => { q with cond := .candidate, staging := .empty }) (fun _ => rfl), if_pos rfl, hpart]
    rfl

end Sys2Proof.Machine
end

section
/-! FAULT_NOTICE (R13, R16, R159, R160). -/

namespace Sys2Proof.Machine

/-! ## What a FAULTED tile takes -/

theorem entryCheck_faulted_allowed {e : TileEntry} {st : Step} (h : e.state = .faulted)
    (hk : st.kind.allowedOnFaulted = true) : entryCheck e st = none := by
  have hfit : operandsFit e st = true := by
    unfold operandsFit
    rcases StepKind.allowedOnFaulted_iff.1 hk with h | h | h
    all_goals
      rw [h]
  rw [entryCheck_present (by rw [h]; decide) (by rw [h]; decide) fun _ => hk]
  exact if_neg (by rw [hfit]; decide)

theorem disposition_faulted_allowed {k : StepKind} (hk : k.allowedOnFaulted = true) :
    disposition k .faulted = .candidate := by
  rcases StepKind.allowedOnFaulted_iff.1 hk with h | h | h
  all_goals
    rw [h]
    rfl

section
variable {s : State} {x : TileNum} {st : Step}

theorem State.judge_faulted (h : (s.tile x).state = .faulted) (hk : st.kind.allowedOnFaulted = false) :
    s.judge st x = .fail .tileFault := State.judge_of_check (entryCheck_faulted h hk)

theorem State.judge_faulted_allowed (h : (s.tile x).state = .faulted) (hk : st.kind.allowedOnFaulted = true) :
    s.judge st x = if st.kind.isPower && s.powerInFlight x then .waits else .candidate := by
  rw [State.judge_of_none (entryCheck_faulted_allowed h hk), h, disposition_faulted_allowed hk]

end

theorem TileState.marksWith_faulted : TileState.faulted.MarksWith (some .tileFault) := fun s x st code hst hcode _ => by
  cases hk : st.kind.allowedOnFaulted with
  | false =>
    rw [State.judge_faulted hst hk] at hcode
    rw [Verdict.fail.inj hcode]
  | true =>
    rw [State.judge_faulted_allowed hst hk] at hcode
    split at hcode <;> cases hcode

/-! ## The parts in flight (R160) -/

/-- A job's part on `x` with its packets in flight, where a FAULTED tile does not take its kind. -/
def Job.faultIssued (x : TileNum) (inFlight : Bool) (j : Job) : Job :=
  match j.step?, j.part? x with
  | some st, some q =>
    if q.cond = .issued ∧ st.kind.allowedOnFaulted = false ∧ inFlight = true then j.failPart x .tileFault else j
  | _, _ => j

section
variable (s : State) (x : TileNum)

theorem State.faultIssuedPart_cases (i : SlotNum) :
    s.faultIssuedPart x i = s.failPart i x .tileFault ∨ s.faultIssuedPart x i = s := by
  unfold State.faultIssuedPart
  repeat' split
  · exact .inr rfl
  · exact .inl rfl
  · exact .inr rfl
  · exact .inr rfl

theorem State.faultIssuedPart_frame (i : SlotNum) : JobFrame s (s.faultIssuedPart x i) := by
  rcases s.faultIssuedPart_cases x i with h | h
  · rw [h]
    exact s.failPart_frame i x _
  · rw [h]
    exact .refl s

theorem State.slot_faultIssuedPart (i k : SlotNum) : (s.faultIssuedPart x i).slot k =
    if i = k then (s.slot i).mapJob (Job.faultIssued x (s.hasInFlight i x)) else s.slot k := by
  cases hj : s.job i with
  | none =>
    have hself : s.faultIssuedPart x i = s := by
      unfold State.faultIssuedPart
      rw [hj]
    rw [hself]
    split
    · next h =>
      subst h
      exact (Slot.mapJob_eq_self fun j hj' => by rw [show s.job i = some j from hj'] at hj; cases hj).symm
    · rfl
  | some j =>
    rw [State.slot_of_job hj]
    show _ = if i = k then Slot.job (j.faultIssued x (s.hasInFlight i x)) else s.slot k
    unfold State.faultIssuedPart Job.faultIssued
    rw [hj]
    dsimp only
    cases j.step? with
    | none => exact s.slot_self hj
    | some st =>
      cases j.part? x with
      | none => exact s.slot_self hj
      | some q =>
        dsimp only
        by_cases h : q.cond = .issued ∧ st.kind.allowedOnFaulted = false ∧ s.hasInFlight i x = true
        · rw [if_pos h, if_pos h]
          exact s.slot_failPart_job hj x _
        · rw [if_neg h, if_neg h]
          exact s.slot_self hj

/-- The parts of all slots on `x` that fail at the notice by themselves. -/
def State.faultIssued (s : State) (x : TileNum) : State := allSlots.foldl (fun s i => s.faultIssuedPart x i) s

theorem State.faultIssued_frame : JobFrame s (s.faultIssued x) := JobFrame.foldl (fun s i => s.faultIssuedPart_frame x i) _ s

theorem State.slot_faultIssued (k : SlotNum) :
    (s.faultIssued x).slot k = (s.slot k).mapJob (Job.faultIssued x (s.hasInFlight k x)) := by
  refine State.slot_foldl (P := JobFrame s) (f := fun u i => u.faultIssuedPart x i)
    (F := fun i v => v.mapJob (Job.faultIssued x (s.hasInFlight i x))) (fun u i h => h.trans (u.faultIssuedPart_frame x i))
    (fun u i h k => ?_) (.refl s) k
  rw [State.slot_faultIssuedPart, h.hasInFlight]

/-- The notice's own values. -/
def State.noticed (s : State) (x : TileNum) (code : BitVec 4) : State :=
  s.modTile x fun e => { e with lastFault := code, shown := some false }

variable {s x}

theorem State.takeFault_again (h : (s.tile x).state = .faulted) (code : BitVec 4) : s.takeFault x code = s.noticed x code :=
  if_pos h

theorem State.takeFault_first (h : (s.tile x).state ≠ .faulted) (code : BitVec 4) :
    s.takeFault x code = ((s.noticed x code).enterTile x .faulted).faultIssued x := if_neg h

theorem JobFrame.state {s t : State} (h : JobFrame s t) (u : TileNum) : (t.tile u).state = (s.tile u).state :=
  (congrArg TileEntry.state (h.tile u) :)

theorem State.noticed_tile (s : State) (x : TileNum) (code : BitVec 4) (u : TileNum) : (s.noticed x code).tile u =
    if x = u then { s.tile x with lastFault := code, shown := some false } else s.tile u := State.tile_modTile _ _ _ _

theorem TileEntry.enter_faulted (now : Word) (e : TileEntry) : (e.enter now .faulted).lastFault = e.lastFault ∧
    (e.enter now .faulted).shown = e.shown ∧ (e.enter now .faulted).credits = e.credits := by
  unfold TileEntry.enter
  dsimp only
  split <;> exact ⟨rfl, rfl, rfl⟩

/-- What a notice taken leaves of tiles, and besides tiles and jobs. -/
theorem State.takeFault_spec (s : State) (x : TileNum) (code : BitVec 4) :
    (s.takeFault x code).ports = s.ports ∧ (s.takeFault x code).body = s.body ∧
    (∀ u, u ≠ x → ((s.takeFault x code).tile u).eraseWork = (s.tile u).eraseWork) ∧
    ((s.takeFault x code).tile x).lastFault = code ∧ ((s.takeFault x code).tile x).shown = some false ∧
    ((s.takeFault x code).tile x).state = .faulted ∧ ((s.takeFault x code).tile x).changedAt =
      (if (s.tile x).state = .faulted then (s.tile x).changedAt else s.now) ∧
    ((s.takeFault x code).tile x).credits = (s.tile x).credits := by
  refine ⟨State.ports_takeFault s x code, State.body_takeFault s x code, ?_⟩
  by_cases h : (s.tile x).state = .faulted
  · rw [State.takeFault_again h, if_pos h]
    refine ⟨fun u hu => by rw [State.noticed_tile, if_neg (Ne.symm hu)], ?_⟩
    rw [State.noticed_tile, if_pos rfl]
    exact ⟨rfl, rfl, h, rfl, rfl⟩
  · rw [State.takeFault_first h, if_neg h]
    have hframe := ((s.noticed x code).enterTile x .faulted).faultIssued_frame x
    have hx : ((s.noticed x code).enterTile x .faulted).tile x =
        ({ s.tile x with lastFault := code, shown := some false } : TileEntry).enter s.now .faulted := by
      rw [State.tile_enterTile, if_pos rfl, State.noticed_tile, if_pos rfl]
      rfl
    have hother (u : TileNum) (hu : u ≠ x) : ((s.noticed x code).enterTile x .faulted).tile u = s.tile u := by
      rw [State.tile_enterTile, if_neg (Ne.symm hu), State.noticed_tile, if_neg (Ne.symm hu)]
    have hwork := hframe.tile x
    have hworkOther (u : TileNum) (hu : u ≠ x) := (hframe.tile u).trans (congrArg TileEntry.eraseWork (hother u hu))
    rw [hx] at hwork
    generalize ((s.noticed x code).enterTile x .faulted).faultIssued x = w at hwork hworkOther ⊢
    obtain ⟨hfault, hshown, hcredits⟩ :=
      ({ s.tile x with lastFault := code, shown := some false } : TileEntry).enter_faulted s.now
    have hchanged := TileEntry.enter_changedAt s.now ({ s.tile x with lastFault := code, shown := some false } : TileEntry) h
    refine ⟨hworkOther, (congrArg TileEntry.lastFault hwork :).trans hfault, (congrArg TileEntry.shown hwork :).trans hshown,
      (congrArg TileEntry.state hwork :).trans (TileEntry.enter_state _ _ _), (congrArg TileEntry.changedAt hwork :).trans hchanged,
      (congrArg TileEntry.credits hwork :).trans hcredits⟩

/-! ## The part that fails -/

/-- The tile's last error is TILE_FAULT, or the job in slot `i` is as it was. -/
def State.FaultMarked (x : TileNum) (i : SlotNum) (j : Job) (u : State) : Prop :=
  (u.tile x).state = .faulted ∧ ((u.tile x).lastError = some .tileFault ∨ u.job i = some j)

end

section
variable {s u : State} {x : TileNum} {i : SlotNum} {j : Job} {q : TilePart} {st : Step}

theorem State.FaultMarked.stands (h : u.FaultMarked x i j) (hne : u.job i ≠ some j) :
    u.StandsAt .faulted x (some .tileFault) := ⟨h.1, h.2.resolve_right hne⟩

theorem State.FaultMarked.of_stands (h : u.StandsAt .faulted x (some .tileFault)) : u.FaultMarked x i j := ⟨h.1, .inl h.2⟩

/-- The failure of the job's part with TILE_FAULT, or no change. -/
theorem State.FaultMarked.fails {t : State} (hpart : j.part? x = some q) (hfail : q.cond.hasFailed = false)
    (h : u.FaultMarked x i j) (ht : t = u ∨ t = u.failPart i x .tileFault) : t.FaultMarked x i j := by
  rcases ht with rfl | rfl
  · exact h
  · rcases h.2 with herror | hjob
    · exact .of_stands (State.StandsAt.failPart ⟨h.1, herror⟩ i fun _ => rfl)
    · have hcan : u.CanFail i x := ⟨j, q, hjob, hpart, hfail⟩
      refine ⟨((u.failPart_frame i x _).state x).trans h.1, .inl ?_⟩
      rw [State.tile_failPart hcan]
      exact TileEntry.lastError_failed rfl _ _

theorem State.FaultMarked.faultIssuedPart (hpart : j.part? x = some q) (hfail : q.cond.hasFailed = false)
    (h : u.FaultMarked x i j) (k : SlotNum) : (u.faultIssuedPart x k).FaultMarked x i j := by
  by_cases hk : k = i
  · subst hk
    exact h.fails hpart hfail (u.faultIssuedPart_cases x k).symm
  · rcases h.2 with herror | hjob
    · refine .of_stands ?_
      rcases u.faultIssuedPart_cases x k with ht | ht
      · rw [ht]
        exact State.StandsAt.failPart ⟨h.1, herror⟩ k fun _ => rfl
      · rw [ht]
        exact ⟨h.1, herror⟩
    · refine ⟨((u.faultIssuedPart_frame x k).state x).trans h.1, .inr ?_⟩
      exact (State.job_of_slot ((u.slot_faultIssuedPart x k i).trans (if_neg hk))).trans hjob

theorem State.FaultMarked.rejudgePart (hrun : j.phase = .running) (hst : j.step? = some st)
    (hk : st.kind.allowedOnFaulted = false) (hpart : j.part? x = some q) (hfail : q.cond.hasFailed = false)
    (h : u.FaultMarked x i j) (k : SlotNum) : (u.rejudgePart k x).FaultMarked x i j := by
  rcases h.2 with herror | hjob
  · exact .of_stands (State.StandsAt.rejudgePart TileState.marksWith_faulted ⟨h.1, herror⟩ k x)
  · by_cases hki : k = i
    · subst hki
      refine h.fails hpart hfail ?_
      unfold State.rejudgePart
      rw [hjob]
      dsimp only
      rw [Phase.isRunning_iff.2 hrun, hst, hpart]
      dsimp only
      rw [State.judge_faulted h.1 hk]
      dsimp only
      repeat' split
      all_goals first
        | exact .inl rfl
        | exact .inr rfl
    · refine ⟨((u.rejudgePart_frame k x).state x).trans h.1, .inr ?_⟩
      exact (State.job_of_slot ((u.slot_rejudgePart k i x).trans (if_neg hki))).trans hjob

end

/-- A part of a kind that a FAULTED tile does not take fails with the notice (R160). -/
theorem job_rejudge_takeFault {s : State} {x : TileNum} {code : BitVec 4} (hne : (s.tile x).state ≠ .faulted) {i : SlotNum}
    {j : Job} (hj : s.job i = some j) : (State.rejudgeChanged s (s.takeFault x code)).job i =
      some ((j.faultIssued x (s.hasInFlight i x)).rejudge x fun st => (s.takeFault x code).judge st x) := by
  obtain ⟨-, -, hother, -, -, hfaulted, -⟩ := s.takeFault_spec x code
  refine job_rejudgeChanged_one (fun y hy => (congrArg TileEntry.state (hother y hy) :).symm) (by rw [hfaulted]; exact hne) ?_
  have honly : TilesOnly s ((s.noticed x code).enterTile x .faulted) := rfl
  rw [State.takeFault_first hne]
  have hslot := State.slot_faultIssued ((s.noticed x code).enterTile x .faulted) x i
  rw [honly.hasInFlight] at hslot
  exact State.job_of_mapSlot hslot ((honly.job i).trans hj)

section
variable {s : State} {x : TileNum} {code : BitVec 4} {i : SlotNum} {j : Job} {q : TilePart} {st : Step}

theorem Job.faultIssued_of_not (hst : j.step? = some st) (hpart : j.part? x = some q) {b : Bool}
    (h : ¬ (q.cond = .issued ∧ st.kind.allowedOnFaulted = false ∧ b = true)) : j.faultIssued x b = j := by
  unfold Job.faultIssued
  rw [hst, hpart]
  exact if_neg h

theorem Job.faultIssued_of (hst : j.step? = some st) (hpart : j.part? x = some q) (hcond : q.cond = .issued)
    (hk : st.kind.allowedOnFaulted = false) : j.faultIssued x true = j.failPart x .tileFault := by
  unfold Job.faultIssued
  rw [hst, hpart]
  exact if_pos ⟨hcond, hk, rfl⟩

theorem Job.rejudge_issued (hrun : j.phase = .running) (hst : j.step? = some st) (hpart : j.part? x = some q)
    (hcond : q.cond = .issued) (hstream : st.kind.isStream = false) (v : Step → Verdict) : j.rejudge x v = j := by
  unfold Job.rejudge
  rw [Phase.isRunning_iff.2 hrun, hst, hpart]
  dsimp only
  rw [hcond]
  exact if_neg (by rw [hstream]; exact Bool.false_ne_true)

theorem Quiet.not_withdrawn (hq : Quiet s) (hj : s.job i = some j) (hrun : j.phase = .running) (hmem : q ∈ j.parts) :
    q.cond ≠ .withdrawn := fun h => by
  have := hq.2.2.2.1 i j hj q hmem h
  rw [hrun] at this
  cases this

/-- The failure of a part whose kind a FAULTED tile does not take (R160). -/
theorem job_takeFault_fails (hq : Quiet s) (hne : (s.tile x).state ≠ .faulted) (hj : s.job i = some j) (hrun : j.phase = .running)
    (hst : j.step? = some st) (hk : st.kind.allowedOnFaulted = false) (hpart : j.part? x = some q)
    (hfail : q.cond.hasFailed = false) (hissued : q.cond = .issued → s.hasInFlight i x = true) :
    (State.rejudgeChanged s (s.takeFault x code)).job i = some (j.failPart x .tileFault) := by
  have hjudge : (s.takeFault x code).judge st x = .fail .tileFault := State.judge_faulted (s.takeFault_spec x code).2.2.2.2.2.1 hk
  have hatRest : (j.failPart x .tileFault).AtRestOn x := fun _ r hr => (Job.failsOn_failPart hpart hfail _).part? hr
  have hnot (h : q.cond ≠ .issued) : j.faultIssued x (s.hasInFlight i x) = j :=
    Job.faultIssued_of_not hst hpart fun h' => h h'.1
  rw [job_rejudge_takeFault hne hj]
  refine congrArg some ?_
  cases hc : q.cond with
  | candidate =>
    rw [hnot (by rw [hc]; exact PartCond.noConfusion), Job.rejudge_candidate hrun hst hpart hc, hjudge]
    rfl
  | waiting =>
    rw [hnot (by rw [hc]; exact PartCond.noConfusion), Job.rejudge_pending hrun hst hpart (.inl hc),
      hjudge]
    rfl
  | joined =>
    rw [hnot (by rw [hc]; exact PartCond.noConfusion), Job.rejudge_pending hrun hst hpart (.inr hc),
      hjudge]
    rfl
  | issued => rw [hissued hc, Job.faultIssued_of hst hpart hc hk, hatRest.rejudge_eq_self]
  | withdrawn => exact absurd hc (hq.not_withdrawn hj hrun (Job.mem_of_part? hpart).1)
  | failing c => rw [hc] at hfail; cases hfail
  | draining => rw [hc] at hfail; cases hfail

/-- The tile's last error is then TILE_FAULT, whatever else fails on it (R16, R160). -/
theorem lastError_takeFault (hq : Quiet s) (hne : (s.tile x).state ≠ .faulted) (hj : s.job i = some j) (hrun : j.phase = .running)
    (hst : j.step? = some st) (hk : st.kind.allowedOnFaulted = false) (hpart : j.part? x = some q)
    (hfail : q.cond.hasFailed = false) (hissued : q.cond = .issued → s.hasInFlight i x = true) :
    ((finish s (s.takeFault x code)).tile x).lastError = some .tileFault := by
  have hjob := job_takeFault_fails (code := code) hq hne hj hrun hst hk hpart hfail hissued
  obtain ⟨-, -, hother, -, -, hfaulted, -⟩ := s.takeFault_spec x code
  have honly : TilesOnly s ((s.noticed x code).enterTile x .faulted) := rfl
  have hstart : ((s.noticed x code).enterTile x .faulted).FaultMarked x i j :=
    ⟨by rw [State.tile_enterTile, if_pos rfl, TileEntry.enter_state], .inr ((honly.job i).trans hj)⟩
  have htaken : (s.takeFault x code).FaultMarked x i j := by
    rw [State.takeFault_first hne]
    exact foldl_preserves (P := State.FaultMarked x i j) (f := fun s i => s.faultIssuedPart x i)
      (fun _ k h => h.faultIssuedPart hpart hfail k) _ hstart
  have hjudged : (State.rejudgeChanged s (s.takeFault x code)).FaultMarked x i j := by
    rw [State.rejudgeChanged_eq_rejudgeTile (fun y hy => (congrArg TileEntry.state (hother y hy) :).symm)
      (by rw [hfaulted]; exact hne)]
    exact foldl_preserves (P := State.FaultMarked x i j) (f := fun s i => s.rejudgePart i x)
      (fun _ k h => h.rejudgePart hrun hst hk hpart hfail k) _ htaken
  refine lastError_finish_of_stands TileState.marksWith_faulted (hjudged.stands fun h => ?_)
  have heq : j.failPart x .tileFault = j := Option.some.inj (hjob.symm.trans h)
  have hfailed := (Job.failsOn_failPart hpart hfail .tileFault).part? (q := q) (by rw [heq]; exact hpart)
  rw [hfail] at hfailed
  cases hfailed

/-- A part of a kind that a FAULTED tile takes stands, while issued or a candidate (R160). -/
theorem job_finish_takeFault_stands (hq : Quiet s) (hne : (s.tile x).state ≠ .faulted) (hj : s.job i = some j)
    (hrun : j.phase = .running) (hst : j.step? = some st) (hk : st.kind.allowedOnFaulted = true) (hpart : j.part? x = some q)
    (hpower : s.powerInFlight x = false) (hcond : q.cond = .candidate ∨ q.cond = .issued) :
    (finish s (s.takeFault x code)).job i = some j := by
  obtain ⟨hports, -, -, -, -, hfaulted, -⟩ := s.takeFault_spec x code
  have hflight : (s.takeFault x code).powerInFlight x = false := by
    rw [← hpower]
    unfold State.powerInFlight
    rw [State.port_of_ports hports]
  have hjudge : (s.takeFault x code).judge st x = .candidate := by
    rw [State.judge_faulted_allowed hfaulted hk, hflight, Bool.and_false]
    rfl
  have hkinds : st.kind.isStream = false ∧ st.kind.isEngine = false := by
    rcases StepKind.allowedOnFaulted_iff.1 hk with h | h | h
    all_goals
      rw [h]
      decide
  have hv : (State.rejudgeChanged s (s.takeFault x code)).job i = some j := by
    rw [job_rejudge_takeFault hne hj, Job.faultIssued_of_not hst hpart fun h => absurd (hk.symm.trans h.2.1) Bool.noConfusion]
    refine congrArg some ?_
    rcases hcond with h | h
    · rw [Job.rejudge_candidate hrun hst hpart h, hjudge]
      rfl
    · exact Job.rejudge_issued hrun hst hpart h hkinds.1 _
  have hres : (resolved s (s.takeFault x code)).job i = some j := by
    refine (job_resolved hv).trans (congrArg some (Job.resolve_eq_self fun r hr hfail => ?_))
    rw [State.hasInFlight_of_ports hports]
    exact hq.settled i j hj r hr hfail
  obtain ⟨hover, hat⟩ := Job.stepOver_of_parts hst hkinds.2 hrun
  refine job_finish_of_not_over hres (hover.trans ?_) hat
  rw [List.isEmpty_eq_false_iff]
  exact List.ne_nil_of_mem (Job.mem_of_part? hpart).1

end

/-- Settles O58. -/
theorem faultNotices : Obligations.FaultNotices := by
  unfold Obligations.FaultNotices
  intro s p d code hlow
  have hexec : exec (.faultNotice p d code) s = .next (faultNoticeEffect p d code s) := exec_of_high hlow rfl
  refine ⟨fun hpres hanswered => ?_, fun hnot => hexec.trans (congrArg _ (if_neg ?_))⟩
  · have heffect : faultNoticeEffect p d code s = finish s (s.takeFault (tileOf p d) code) :=
      if_pos (by rw [hpres, hanswered]; rfl)
    rw [heffect] at hexec
    generalize tileOf p d = x at *
    have hframe : EventFrame (s.takeFault x code) (finish s (s.takeFault x code)) := finish_frame _ _
    obtain ⟨hports, hbody, hother, hfault, hshown, hstate, hchanged, hcredits⟩ := s.takeFault_spec x code
    have hfails {i : SlotNum} {j : Job} {st : Step} {q : TilePart} (hq : Quiet s) (hne : (s.tile x).state ≠ .faulted)
        (hj : s.job i = some j) (hrun : j.phase = .running) (hst : j.step? = some st) (hpart : j.part? x = some q)
        (hfail : q.cond.hasFailed = false) (hissued : q.cond = .issued → s.hasInFlight i x = true)
        (hk : st.kind.allowedOnFaulted = false) : PartFails s (finish s (s.takeFault x code)) i x .tileFault ∧
          ((finish s (s.takeFault x code)).tile x).lastError = some .tileFault := by
      refine ⟨partFails_finish hq (State.fatal_of_body hbody) (fun y _ => State.hasInFlight_of_ports hports i y)
        fun k r hk' _ hr hrfail => ?_, lastError_takeFault hq hne hj hrun hst hk hpart hfail hissued⟩
      obtain rfl : j = k := Option.some.inj (hj.symm.trans hk')
      exact ⟨j.outstanding, job_takeFault_fails hq hne hj hrun hst hk hpart hfail hissued⟩
    have hstands {i : SlotNum} {j : Job} {st : Step} {q : TilePart} (hq : Quiet s) (hne : (s.tile x).state ≠ .faulted)
        (hj : s.job i = some j) (hrun : j.phase = .running) (hst : j.step? = some st) (hpart : j.part? x = some q)
        (hk : st.kind.allowedOnFaulted = true) (hpower : s.powerInFlight x = false)
        (hcond : q.cond = .candidate ∨ q.cond = .issued) : (finish s (s.takeFault x code)).job i = some j :=
      job_finish_takeFault_stands hq hne hj hrun hst hk hpart hpower hcond
    refine ⟨_, hexec, ?_⟩
    generalize finish s (s.takeFault x code) = t at *
    have hwork := hframe.tile x
    generalize s.takeFault x code = u at *
    refine ⟨(congrArg TileEntry.lastFault hwork :).trans hfault, (congrArg TileEntry.shown hwork :).trans hshown,
      (congrArg TileEntry.state hwork :).trans hstate, (congrArg TileEntry.changedAt hwork :).trans hchanged,
      (congrArg TileEntry.credits hwork :).trans hcredits, fun hq hne i j st q hj hrun hst hpart hfail hissued =>
        ⟨fun _ hsleep hreadId hreadState => ?_, fun hk hpower hcond => ?_⟩, fun y hy => (hframe.tile y).trans (hother y hy),
      funext fun r => (hframe.port r).trans (State.port_of_ports hports r), hframe.engine.trans (State.engine_of_body hbody),
      hframe.walkerN.trans (State.walkerN_of_body hbody), hframe.walkerP.trans (State.walkerP_of_body hbody)⟩
    · refine hfails hq hne hj hrun hst hpart hfail hissued (Bool.eq_false_iff.2 fun h => ?_)
      rcases StepKind.allowedOnFaulted_iff.1 h with h | h | h
      · exact hsleep h
      · exact hreadId h
      · exact hreadState h
    · exact hstands hq hne hj hrun hst hpart (StepKind.allowedOnFaulted_iff.2 hk) hpower hcond
  · rw [Bool.and_eq_true]
    rcases hnot with h | h
    · exact fun h' => absurd (h.symm.trans h'.1) (by decide)
    · exact fun h' => absurd (h.symm.trans h'.2) (by decide)

end Sys2Proof.Machine
end

section
/-! REPLY_DEADLINE_EXPIRY (R16, R35, R36, R147, R155, R157). -/

namespace Sys2Proof.Machine

/-! ## Entries ended with their tags quarantined -/

/-- The entries end, each with its tag quarantined. -/
def State.endEntries (s : State) (p : PortId) (l : List Entry) : State := l.foldl (fun s e => s.endEntry p e true) s

/-- A job with fewer transactions outstanding. -/
def Job.less (n : Nat) (j : Job) : Job := { j with outstanding := j.outstanding - n }

theorem Job.less_less (m n : Nat) (j : Job) : (j.less m).less n = j.less (m + n) := by
  unfold Job.less
  rw [Nat.sub_sub]

section
variable (p : PortId) (l : List Entry) (s : State)

theorem State.port_endEntries : (s.endEntries p l).port p = l.foldl Port.cut (s.port p) := by
  unfold State.endEntries
  induction l generalizing s with
  | nil => rfl
  | cons e l ih => rw [List.foldl_cons, ih, List.foldl_cons, show (s.endEntry p e true).port p = (s.port p).cut e from
      s.endEntry_port p e true]

theorem State.port_endEntries_ne {q : PortId} (h : q ≠ p) : (s.endEntries p l).port q = s.port q :=
  foldl_keeps (fun s => s.port q) (fun s e => s.endEntry_port_ne p e true h) l s

theorem State.body_endEntries : (s.endEntries p l).body = s.body :=
  foldl_keeps State.body (fun s e => State.body_endEntry s p e true) l s

theorem State.lasting_endEntries (u : TileNum) : ((s.endEntries p l).tile u).lasting = (s.tile u).lasting :=
  foldl_keeps (fun s => (s.tile u).lasting) (fun s e => s.lasting_endEntry p e true u) l s

theorem State.tile_endEntries_ne {u : TileNum} (h : ∀ e ∈ l, e.tile ≠ u) : (s.endEntries p l).tile u = s.tile u := by
  unfold State.endEntries
  induction l generalizing s with
  | nil => rfl
  | cons e l ih =>
    rw [List.forall_mem_cons] at h
    rw [List.foldl_cons, ih _ h.2, State.endEntry_tile, if_neg h.1]

theorem State.slot_endEntries (k : SlotNum) : (s.endEntries p l).slot k =
    (s.slot k).mapJob (Job.less (l.filter fun e => decide (e.owner.slot? = some k)).length) := by
  unfold State.endEntries
  induction l generalizing s with
  | nil => exact (Slot.mapJob_id _).symm
  | cons e l ih =>
    rw [List.foldl_cons, ih, State.slot_endEntry, List.filter_cons]
    by_cases h : e.owner.slot? = some k
    · rw [if_pos h, if_pos (decide_eq_true h), Slot.mapJob_mapJob, List.length_cons]
      refine Slot.mapJob_congr fun j _ => ?_
      exact (Job.less_less 1 _ j).trans (by rw [Nat.add_comm])
    · rw [if_neg h, if_neg (by rw [decide_eq_true_iff]; exact h)]

end

/-- With no tag held twice the entries of a tile leave with their tags, and no others. -/
theorem filter_tags_eq_filter_tile {l : List Entry} (h : (l.map fun e => e.tag).Nodup) (x : TileNum) :
    l.filter (fun f : Entry => decide (∀ e ∈ l.filter (fun e : Entry => decide (e.tile = x)), f.tag ≠ e.tag)) =
      l.filter fun f : Entry => decide (f.tile ≠ x) := by
  refine List.filter_congr fun f hf => decide_eq_decide.2 (Iff.intro (fun hall hx => ?_) fun hx e he htag => ?_)
  · exact hall f (List.mem_filter.2 ⟨hf, decide_eq_true hx⟩) rfl
  · obtain ⟨he, hex⟩ := List.mem_filter.1 he
    exact hx ((List.inj_on_of_nodup_map h hf he htag) ▸ of_decide_eq_true hex)

/-! ## The owner told of a failure -/

section
variable (s : State) (e : Entry) (c : ErrorCode)

theorem State.slot_tellOwner_failure (k : SlotNum) : (s.tellOwner e (some c)).slot k =
    if e.owner.slot? = some k then (s.slot k).mapJob (Job.failPart e.tile c) else s.slot k := by
  unfold State.tellOwner
  cases h : e.owner.slot? with
  | none => exact (if_neg (by simp)).symm
  | some i =>
    dsimp only
    rw [State.slot_failPart]
    by_cases hik : i = k
    · subst hik
      rw [if_pos rfl, if_pos rfl]
    · rw [if_neg hik, if_neg fun h => hik (Option.some.inj h)]

end

/-- A failed part stays failed with its first code, however often its owner is told. -/
theorem State.job_tellOwners {x : TileNum} {c : ErrorCode} {i : SlotNum} {k : Job} (hk : k.FailsOn x c) {l : List Entry}
    (hl : ∀ f ∈ l, f.tile = x) (c' : ErrorCode) {s : State} (hjob : s.job i = some k) :
    (l.foldl (fun s f => s.tellOwner f (some c')) s).job i = some k := by
  induction l generalizing s with
  | nil => exact hjob
  | cons f l ih =>
    rw [List.forall_mem_cons] at hl
    refine ih hl.2 ?_
    have hslot := s.slot_tellOwner_failure f c' i
    split at hslot
    · refine (State.job_of_mapSlot hslot hjob).trans (congrArg some ?_)
      rw [hl.1]
      exact Job.failPart_eq_self (fun q hq => hk.part? hq) c'
    · exact (State.job_of_slot hslot).trans hjob

/-! ## The expiry -/

section
variable (s : State) (p : PortId) (e : Entry)

/-- The entries of a tile. -/
def Port.entriesOf (v : Port) (x : TileNum) : List Entry := v.inFlight.filter fun f => decide (f.tile = x)

/-- The tile's entries ended, and the tile LOST. -/
def State.tileTimedOut (s : State) (p : PortId) (x : TileNum) : State := (s.endTileEntries p x).enterTile x .lost

theorem State.endTileEntries_eq (x : TileNum) : s.endTileEntries p x =
    (s.endEntries p ((s.port p).entriesOf x)).modTile x fun r => { r with credits := 0, configInFlight := false } := rfl

theorem State.tileTimedOut_only (x : TileNum) :
    TilesOnly (s.endEntries p ((s.port p).entriesOf x)) (s.tileTimedOut p x) :=
  (TilesOnly.modTile _ x _).trans (.modTile _ x _)

theorem State.tile_tileTimedOut_ne {x u : TileNum} (h : u ≠ x) : (s.tileTimedOut p x).tile u = s.tile u := by
  have hl : ∀ f ∈ (s.port p).entriesOf x, f.tile ≠ u := fun f hf hfu =>
    h (hfu.symm.trans (of_decide_eq_true (List.mem_filter.1 hf).2))
  unfold State.tileTimedOut
  rw [State.tile_enterTile, if_neg (Ne.symm h), State.endTileEntries_eq, State.tile_modTile, if_neg (Ne.symm h),
    State.tile_endEntries_ne p _ s hl]

theorem State.tile_tileTimedOut (x : TileNum) : ((s.tileTimedOut p x).tile x).state = .lost ∧
    ((s.tileTimedOut p x).tile x).Bare ∧ ((s.tileTimedOut p x).tile x).identity = (s.tile x).identity ∧
    ((s.tileTimedOut p x).tile x).window = (s.tile x).window := by
  have hlasting := s.lasting_endEntries p ((s.port p).entriesOf x) x
  unfold State.tileTimedOut
  rw [State.tile_enterTile, if_pos rfl, State.endTileEntries_eq, State.tile_modTile, if_pos rfl]
  generalize (s.endEntries p ((s.port p).entriesOf x)).tile x = r at hlasting
  obtain ⟨hstate, hid, hwin, hcredits, hconfig, -⟩ :=
    ({ r with credits := 0, configInFlight := false } : TileEntry).enter_lost
      (State.now ((s.endEntries p ((s.port p).entriesOf x)).modTile x fun r => { r with credits := 0, configInFlight := false }))
  exact ⟨hstate, ⟨hcredits, hconfig⟩, hid.trans (congrArg TileEntry.identity hlasting :),
    hwin.trans (congrArg TileEntry.window hlasting :)⟩

theorem State.slot_tileTimedOut (x : TileNum) (k : SlotNum) : (s.tileTimedOut p x).slot k = (s.slot k).mapJob
    (Job.less (((s.port p).entriesOf x).filter fun e => decide (e.owner.slot? = some k)).length) :=
  (State.slot_of_slots (s.tileTimedOut_only p x).slots k).trans (s.slot_endEntries p _ k)

/-- The other entries to the expired entry's tile. -/
def Port.othersOf (v : Port) (e : Entry) : List Entry :=
  v.inFlight.filter fun f => decide (f.tile = e.tile) && decide (f.tag ≠ e.tag)

theorem State.timeoutTile_eq : s.timeoutTile p e = ((s.port p).othersOf e).foldl (fun s f => s.tellOwner f (some .tileLost))
    ((s.tileTimedOut p e.tile).tellOwner e (some .timeout)) := rfl

theorem State.timeoutTile_frame : JobFrame (s.tileTimedOut p e.tile) (s.timeoutTile p e) := by
  rw [State.timeoutTile_eq]
  exact (State.tellOwner_frame _ e _).trans (JobFrame.foldl (fun s f => s.tellOwner_frame f _) _ _)

/-- The state as the expiry leaves it. -/
def State.expired (s : State) (p : PortId) (e : Entry) : State :=
  commit s ((settle s (s.timeoutTile p e)).setError e.tile .timeout)

theorem State.expired_frame : EventFrame (s.timeoutTile p e) (s.expired p e) :=
  (EventFrame.ofJob ((settle_frame s _).trans (State.setError_frame _ e.tile .timeout))).trans (commit_frame s _)

theorem State.slot_expired (k : SlotNum) : (s.expired p e).slot k = (finish s (s.timeoutTile p e)).slot k := by
  unfold State.expired finish
  rw [State.slot_commit, State.slot_commit]
  generalize settle s (s.timeoutTile p e) = v
  exact State.slot_modTile v e.tile _ k

theorem State.lastError_expired : ((s.expired p e).tile e.tile).lastError = some .timeout := by
  unfold State.expired
  rw [State.tile_commit, State.tile_setError, if_pos rfl]

theorem State.port_expired_ne {q : PortId} (h : q ≠ p) : (s.expired p e).port q = s.port q := by
  rw [(s.expired_frame p e).port, (s.timeoutTile_frame p e).port, (s.tileTimedOut_only p e.tile).port,
    State.port_endEntries_ne _ _ _ h]

theorem State.port_expired (hnodup : ((s.port p).inFlight.map fun e => e.tag).Nodup) : (s.expired p e).port p = { s.port p with
    inFlight := (s.port p).inFlight.filter (fun f => decide (f.tile ≠ e.tile)),
    quarantined := quarantineTags (s.port p).quarantined ((s.port p).entriesOf e.tile),
    cutWrites := (s.port p).cutWrites ++ ((s.port p).entriesOf e.tile).flatMap Entry.writeUnderWay } := by
  rw [(s.expired_frame p e).port, (s.timeoutTile_frame p e).port, (s.tileTimedOut_only p e.tile).port, State.port_endEntries,
    Port.foldl_cut]
  unfold Port.entriesOf
  rw [filter_tags_eq_filter_tile hnodup]

theorem State.tile_expired (u : TileNum) :
    ((s.expired p e).tile u).eraseWork = ((s.tileTimedOut p e.tile).tile u).eraseWork :=
  ((s.expired_frame p e).tile u).trans ((s.timeoutTile_frame p e).tile u)

theorem State.hasInFlight_timeoutTile (hnodup : ((s.port p).inFlight.map fun e => e.tag).Nodup) (i : SlotNum) {y : TileNum}
    (hy : y ≠ e.tile) : (s.timeoutTile p e).hasInFlight i y = s.hasInFlight i y := by
  have hport := s.port_expired p e hnodup
  rw [(s.expired_frame p e).port] at hport
  unfold State.hasInFlight
  by_cases hp : portOf y = p
  · rw [hp, hport]
    dsimp only
    rw [List.any_filter]
    congr 1
    funext f
    by_cases hf : f.tile = y
    · simp [hf, hy]
    · simp [hf]
  · rw [(s.timeoutTile_frame p e).port, (s.tileTimedOut_only p e.tile).port, State.port_endEntries_ne _ _ _ hp]

variable {s p e}

/-- The expired entry's own part fails with TIMEOUT, at this event alone (R155). -/
theorem State.job_timeoutTile {i : SlotNum} {j : Job} {q : TilePart} (hj : s.job i = some j) (hown : e.owner.slot? = some i)
    (hpart : j.part? e.tile = some q) (hfail : q.cond.hasFailed = false) :
    ∃ n, (State.rejudgeChanged s (s.timeoutTile p e)).job i =
      some ((({ j with outstanding := n } : Job)).failPart e.tile .timeout) := by
  have hstart := State.job_of_mapSlot (s.slot_tileTimedOut p e.tile i) hj
  generalize (((s.port p).entriesOf e.tile).filter fun e => decide (e.owner.slot? = some i)).length = n at hstart
  have hfails : ((j.less n).failPart e.tile .timeout).FailsOn e.tile .timeout :=
    Job.failsOn_failPart (j := j.less n) hpart hfail _
  have htold : ((s.tileTimedOut p e.tile).tellOwner e (some .timeout)).job i = some ((j.less n).failPart e.tile .timeout) :=
    State.job_of_mapSlot ((State.slot_tellOwner_failure _ e _ i).trans (if_pos hown)) hstart
  have htaken : (s.timeoutTile p e).job i = some ((j.less n).failPart e.tile .timeout) := by
    rw [State.timeoutTile_eq]
    exact State.job_tellOwners hfails (fun f hf => by
      have := (List.mem_filter.1 hf).2
      rw [Bool.and_eq_true, decide_eq_true_iff] at this
      exact this.1) _ htold
  obtain ⟨k, hk, hkeep⟩ := job_rejudgeChanged_keeps (before := s)
    (P := fun k => k = (j.less n).failPart e.tile .timeout) htaken rfl
    fun m y v hy hm => by
      subst hm
      by_cases hye : y = e.tile
      · subst hye
        exact Job.AtRestOn.rejudge_eq_self (fun _ r hr => hfails.part? hr) v
      · have hstate : ((s.timeoutTile p e).tile y).state = (s.tile y).state := by
          rw [JobFrame.state (s.timeoutTile_frame p e), State.tile_tileTimedOut_ne _ _ hye]
        exact absurd hstate.symm hy
  exact ⟨j.outstanding - n, hk.trans (congrArg some hkeep)⟩

end

theorem PartFails.congr {s t t' : State} {i : SlotNum} {x : TileNum} {c : ErrorCode} (h : PartFails s t i x c)
    (hjob : t'.job i = t.job i) : PartFails s t' i x c := by
  unfold PartFails
  rw [hjob]
  exact h

theorem PartLeaves.congr {s t t' : State} {i : SlotNum} {x : TileNum} {n : Nat} (h : PartLeaves s t i x n)
    (hjob : t'.job i = t.job i) : PartLeaves s t' i x n := by
  unfold PartLeaves
  rw [hjob]
  exact h

theorem Entry.mem_writeUnderWay {e : Entry} {w : DestWrite} (h : e.phase = .writing w) : ⟨e.tag, w⟩ ∈ e.writeUnderWay := by
  unfold Entry.writeUnderWay
  rw [h]
  exact List.mem_singleton_self _

/-- Settles O57. -/
theorem deadlinesExpire : Obligations.DeadlinesExpire := by
  unfold Obligations.DeadlinesExpire
  intro s p tag e hlow hnodup hfind
  have hexec : exec (.replyDeadlineExpiry p tag) s = .next (replyDeadlineExpiryEffect p tag s) := exec_of_high hlow rfl
  have heffect : replyDeadlineExpiryEffect p tag s = s.expired p e := by
    unfold replyDeadlineExpiryEffect
    rw [hfind]
    rfl
  rw [heffect] at hexec
  have hframe := s.expired_frame p e
  have hbody := State.body_timeoutTile s p e
  have hport := s.port_expired p e hnodup
  have hwork := s.tile_expired p e
  obtain ⟨hlost, hbare, hid, hwin⟩ := s.tile_tileTimedOut p e.tile
  have hother (u : TileNum) (hu : u ≠ e.tile) : ((s.expired p e).tile u).eraseWork = (s.tile u).eraseWork :=
    (hwork u).trans (congrArg TileEntry.eraseWork (s.tile_tileTimedOut_ne p hu))
  have hmem {f : Entry} (hf : f ∈ (s.port p).inFlight) (hx : f.tile = e.tile) : f ∈ (s.port p).entriesOf e.tile :=
    List.mem_filter.2 ⟨hf, decide_eq_true hx⟩
  refine ⟨_, hexec, by rw [hport], hother, fun hq i hown => ?_, fun hfatal i j hj => ?_, fun f hf hx => ?_,
    fun f w hf hx hphase => ?_, by rw [hport], fun q hq => s.port_expired_ne p e hq, ?_, s.lastError_expired p e, ?_, ?_, ?_, ?_,
    fun u hu => (congrArg TileEntry.state (hother u hu) :), hframe.engine.trans (State.engine_of_body hbody),
    hframe.wakeHistory.trans (State.wakeHistory_of_body hbody)⟩
  · refine (partFails_finish hq (State.fatal_of_body hbody) (fun y hy => s.hasInFlight_timeoutTile p e hnodup i hy)
      fun j q hj _ hpart hfail => State.job_timeoutTile hj hown hpart hfail).congr ?_
    exact State.job_of_slot (s.slot_expired p e i)
  · obtain ⟨k, hk, hkidn⟩ := (s.timeoutTile_frame p e).taken
      ((State.fatal_of_body ((s.tileTimedOut_only p e.tile).body.trans (s.body_endEntries p _))).trans hfatal)
      (State.job_of_mapSlot (s.slot_tileTimedOut p e.tile i) hj)
    obtain ⟨j', hj', hidn⟩ := hframe.taken ((State.fatal_of_body hbody).trans hfatal) hk
    refine ⟨j', hj', (congrArg Job.outstanding (hidn.trans hkidn) :).trans ?_⟩
    unfold Port.entriesOf
    rw [List.filter_filter]
    show j.outstanding - _ = j.outstanding - _
    simp only [Bool.and_comm]
  · rw [hport]
    exact (getLsbD_quarantineTags _ _).2 (.inr ⟨f, hmem hf hx, rfl⟩)
  · rw [hport]
    exact List.mem_append_right _ (List.mem_flatMap.2 ⟨f, hmem hf hx, Entry.mem_writeUnderWay hphase⟩)
  · exact (congrArg TileEntry.state (hwork e.tile) :).trans hlost
  · exact (congrArg TileEntry.credits (hwork e.tile) :).trans hbare.1
  · exact (congrArg TileEntry.configInFlight (hwork e.tile) :).trans hbare.2
  · exact (congrArg TileEntry.identity (hwork e.tile) :).trans hid
  · exact (congrArg TileEntry.window (hwork e.tile) :).trans hwin

end Sys2Proof.Machine
end

section
/-! The wake waiting list in rank order, what its examination presents, and the timebase and wake history rows (R75, R87 to
R89, R177). Ranks are compared in the lexicographic order, of which the model's Boolean comparisons are the strict one. -/

namespace Sys2Proof.Machine

/-! ## Ranks -/

theorem rankLt_iff {a b : Nat × Nat} : rankLt a b = true ↔ toLex a < toLex b := by
  unfold rankLt
  rw [Prod.Lex.toLex_lt_toLex]
  simp

/-- A rank, then a tile number: the keys of R84 and R88 in one. -/
def rankKey (r : Nat × Nat) (x : TileNum) : (Nat ×ₗ Nat) ×ₗ TileNum := toLex (toLex r, x)

theorem rankKey_lt_iff {a b : Nat × Nat} {x y : TileNum} :
    (rankLt a b || (decide (a = b) && decide (x < y))) = true ↔ rankKey a x < rankKey b y := by
  unfold rankKey
  rw [Prod.Lex.toLex_lt_toLex, Bool.or_eq_true, rankLt_iff]
  simp

theorem rankKey_le_iff {a b : Nat × Nat} {x y : TileNum} :
    rankKey a x ≤ rankKey b y ↔ a.1 < b.1 ∨ (a.1 = b.1 ∧ a.2 < b.2) ∨ (a.1 = b.1 ∧ a.2 = b.2 ∧ x ≤ y) := by
  obtain ⟨a1, a2⟩ := a
  obtain ⟨b1, b2⟩ := b
  unfold rankKey
  rw [Prod.Lex.toLex_le_toLex, Prod.Lex.toLex_lt_toLex]
  simp [or_assoc, and_assoc]

/-! ## What Boolean tests of the model say -/

section
variable {s : State} {x : TileNum}

theorem TileState.present_iff {v : TileState} : v.present = true ↔ v ≠ .absent ∧ v ≠ .lost := by
  cases v <;> decide

theorem State.openFor_iff : s.openFor x = true ↔ s.OtherwiseIssuable x := by
  unfold State.openFor State.OtherwiseIssuable
  simp only [Bool.and_eq_true, Bool.or_eq_true, decide_eq_true_eq, Bool.not_eq_true', TileState.present_iff,
    Option.isSome_iff_ne_none, and_assoc]

theorem State.txFree_iff {p : PortId} : s.txFree p = true ↔ (s.port p).transmitting = none :=
  Option.isNone_iff_eq_none

theorem State.budgetOpen_iff : s.budgetOpen = true ↔ s.BudgetOpen := by
  unfold State.budgetOpen State.BudgetOpen
  rw [Bool.and_eq_true, decide_eq_true_eq]
  cases s.wakeHistory.getLast? with
  | none => simp
  | some m => simp [passed]

theorem State.wakeCandidate_iff {i : SlotNum} : s.wakeCandidate i x = true ↔ s.WantsWake i x := by
  unfold State.wakeCandidate State.WantsWake
  cases hj : s.job i with
  | none => simp
  | some j =>
    cases hst : j.step? <;> cases hq : j.part? x <;> simp [Phase.isRunning_iff, hst, hq, and_assoc]

end

/-! ## The owner of an entry -/

/-- The rank of the job in a slot, with a rank below every job's for a slot without one. -/
def State.slotRank (s : State) (i : SlotNum) : Nat × Nat :=
  match s.job i with
  | some j => j.rank
  | none => (3, 0)

section
variable {s : State}

theorem State.slotRank_of_job {i : SlotNum} {j : Job} (h : s.job i = some j) : s.slotRank i = j.rank := by
  unfold State.slotRank
  rw [h]

theorem State.WantsWake.job {i : SlotNum} {x : TileNum} (h : s.WantsWake i x) : ∃ j, s.job i = some j :=
  let ⟨j, _, _, hj, _⟩ := h
  ⟨j, hj⟩

theorem State.betterSlot_eq {a b : SlotNum} {ja jb : Job} (ha : s.job a = some ja) (hb : s.job b = some jb) :
    s.betterSlot a b = if toLex (s.slotRank b) < toLex (s.slotRank a) then b else a := by
  unfold State.betterSlot
  rw [s.slotRank_of_job ha, s.slotRank_of_job hb, ha, hb]
  exact if_congr rankLt_iff rfl rfl

theorem State.foldl_betterSlot {l : List SlotNum} (hl : ∀ k ∈ l, ∃ m, s.job k = some m) {i : SlotNum}
    (hi : ∃ j, s.job i = some j) :
    l.foldl s.betterSlot i ∈ i :: l ∧ ∀ k ∈ i :: l, toLex (s.slotRank (l.foldl s.betterSlot i)) ≤ toLex (s.slotRank k) := by
  induction l generalizing i with
  | nil => exact ⟨List.mem_singleton_self i, fun k hk => by rw [List.mem_singleton.1 hk]; exact le_rfl⟩
  | cons a l ih =>
    obtain ⟨ja, ha⟩ := hl a List.mem_cons_self
    obtain ⟨ji, hji⟩ := hi
    have heq := s.betterSlot_eq hji ha
    have hbetter : s.betterSlot i a = a ∨ s.betterSlot i a = i := by rw [heq]; split <;> simp
    have hjob : ∃ j, s.job (s.betterSlot i a) = some j := by
      rcases hbetter with h | h <;> rw [h]
      exacts [⟨ja, ha⟩, ⟨ji, hji⟩]
    obtain ⟨hmem, hbest⟩ := ih (fun k hk => hl k (List.mem_cons_of_mem a hk)) hjob
    have hfirst := hbest _ List.mem_cons_self
    have hle : toLex (s.slotRank (s.betterSlot i a)) ≤ toLex (s.slotRank i) ∧
        toLex (s.slotRank (s.betterSlot i a)) ≤ toLex (s.slotRank a) := by
      rw [heq]
      split
      · next h => exact ⟨h.le, le_rfl⟩
      · next h => exact ⟨le_rfl, not_lt.1 h⟩
    rw [List.foldl_cons]
    refine ⟨?_, fun k hk => ?_⟩
    · rcases List.mem_cons.1 hmem with h | h
      · rcases hbetter with h' | h' <;> rw [h, h'] <;> simp
      · exact List.mem_cons_of_mem i (List.mem_cons_of_mem a h)
    · rcases List.mem_cons.1 hk with rfl | hk
      · exact hfirst.trans hle.1
      · rcases List.mem_cons.1 hk with rfl | hk
        · exact hfirst.trans hle.2
        · exact hbest k (List.mem_cons_of_mem _ hk)

theorem State.mem_wakers {i : SlotNum} {x : TileNum} :
    i ∈ allSlots.filter (fun i => s.wakeCandidate i x) ↔ s.WantsWake i x := by
  rw [List.mem_filter, State.wakeCandidate_iff]
  exact and_iff_right (mem_allSlots i)

theorem State.wakeOwner_eq_none {x : TileNum} : s.wakeOwner x = none ↔ ∀ i, ¬ s.WantsWake i x := by
  have hnil : (∀ i, ¬ s.WantsWake i x) ↔ allSlots.filter (fun i => s.wakeCandidate i x) = [] := by
    rw [List.eq_nil_iff_forall_not_mem]
    exact forall_congr' fun i => not_congr State.mem_wakers.symm
  rw [hnil]
  unfold State.wakeOwner
  cases allSlots.filter (fun i => s.wakeCandidate i x) <;> simp

/-- The owner wants the WAKE, and no job that wants it ranks above it (R88). -/
theorem State.wakeOwner_spec {x : TileNum} {i : SlotNum} (h : s.wakeOwner x = some i) :
    s.WantsWake i x ∧ ∀ k, s.WantsWake k x → toLex (s.slotRank i) ≤ toLex (s.slotRank k) := by
  have hmem : ∀ k, k ∈ allSlots.filter (fun i => s.wakeCandidate i x) ↔ s.WantsWake k x := fun k => State.mem_wakers
  unfold State.wakeOwner at h
  cases hl : allSlots.filter (fun i => s.wakeCandidate i x) with
  | nil => simp [hl] at h
  | cons a l =>
    rw [hl] at h hmem
    obtain rfl := Option.some.inj h
    have hjob : ∀ k ∈ a :: l, ∃ m, s.job k = some m := fun k hk => ((hmem k).1 hk).job
    obtain ⟨hin, hbest⟩ := State.foldl_betterSlot (fun k hk => hjob k (List.mem_cons_of_mem a hk))
      (hjob a List.mem_cons_self)
    exact ⟨(hmem _).1 hin, fun k hk => hbest k ((hmem k).2 hk)⟩

/-! ## The list in rank order -/

def State.entryKey (s : State) (e : WakeEntry) : (Nat ×ₗ Nat) ×ₗ TileNum := rankKey (s.slotRank e.owner) e.tile

theorem State.wakeBefore_iff {a b : WakeEntry} : s.wakeBefore a b = true ↔ s.entryKey a < s.entryKey b :=
  rankKey_lt_iff

theorem State.mem_insertWake {e f : WakeEntry} {l : List WakeEntry} : f ∈ s.insertWake e l ↔ f = e ∨ f ∈ l := by
  induction l with
  | nil => exact List.mem_cons
  | cons g l ih =>
    unfold State.insertWake
    split
    · exact List.mem_cons
    · rw [List.mem_cons, ih, List.mem_cons]
      tauto

/-- The list is in rank order. -/
def State.InRankOrder (s : State) (l : List WakeEntry) : Prop := l.Pairwise fun a b => s.entryKey a ≤ s.entryKey b

theorem State.inRankOrder_insertWake {e : WakeEntry} {l : List WakeEntry} (h : s.InRankOrder l) :
    s.InRankOrder (s.insertWake e l) := by
  induction l with
  | nil => exact List.pairwise_singleton _ e
  | cons g l ih =>
    obtain ⟨hg, hl⟩ := List.pairwise_cons.1 h
    unfold State.insertWake
    split
    · next hlt =>
      have heg : s.entryKey e < s.entryKey g := State.wakeBefore_iff.1 hlt
      refine List.pairwise_cons.2 ⟨fun f hf => ?_, h⟩
      rcases List.mem_cons.1 hf with rfl | hf
      · exact heg.le
      · exact heg.le.trans (hg f hf)
    · next hlt =>
      have hge : s.entryKey g ≤ s.entryKey e := not_lt.1 fun h' => hlt (State.wakeBefore_iff.2 h')
      refine List.pairwise_cons.2 ⟨fun f hf => ?_, ih hl⟩
      rcases State.mem_insertWake.1 hf with rfl | hf
      · exact hge
      · exact hg f hf

/-- The entries of the tiles of `ts`, as the model collects them. -/
def State.wakesOf (s : State) (ts : List TileNum) : List WakeEntry :=
  ts.foldr (fun t l => match s.wakeOwner t with | some i => s.insertWake ⟨t, i⟩ l | none => l) []

theorem State.wakesOf_spec (ts : List TileNum) :
    s.InRankOrder (s.wakesOf ts) ∧ ∀ e, e ∈ s.wakesOf ts ↔ e.tile ∈ ts ∧ s.wakeOwner e.tile = some e.owner := by
  induction ts with
  | nil => exact ⟨List.Pairwise.nil, fun e => by simp [State.wakesOf]⟩
  | cons x ts ih =>
    obtain ⟨hsorted, hmem⟩ := ih
    have hcons : s.wakesOf (x :: ts) =
        match s.wakeOwner x with | some i => s.insertWake ⟨x, i⟩ (s.wakesOf ts) | none => s.wakesOf ts := rfl
    rw [hcons]
    cases hown : s.wakeOwner x with
    | none =>
      refine ⟨hsorted, fun e => ?_⟩
      rw [hmem, List.mem_cons, or_and_right]
      exact ⟨Or.inr, fun h => h.resolve_left fun ⟨hx, he⟩ => by rw [hx, hown] at he; cases he⟩
    | some i =>
      refine ⟨s.inRankOrder_insertWake hsorted, fun e => ?_⟩
      dsimp only
      rw [State.mem_insertWake, hmem, List.mem_cons, or_and_right]
      refine or_congr_left ⟨fun h => by subst h; exact ⟨rfl, hown⟩, fun ⟨hx, he⟩ => ?_⟩
      rw [hx, hown] at he
      cases e
      cases hx
      cases he
      rfl

theorem State.inRankOrder_wakeList : s.InRankOrder s.wakeList := (s.wakesOf_spec allTiles).1

theorem State.mem_wakeList {e : WakeEntry} : e ∈ s.wakeList ↔ s.wakeOwner e.tile = some e.owner :=
  ((s.wakesOf_spec allTiles).2 e).trans (and_iff_right (mem_allTiles _))

/-! ## The examination (R89) -/

theorem State.wakeNotAfter_of_key {i k : SlotNum} {x y : TileNum}
    (h : rankKey (s.slotRank i) x ≤ rankKey (s.slotRank k) y) : s.WakeNotAfter i x k y := by
  intro j hj m hm
  rw [s.slotRank_of_job hj, s.slotRank_of_job hm] at h
  exact rankKey_le_iff.1 h

/-- The key of a tile's entry is no greater than that of any job that wants the WAKE. -/
theorem State.entryKey_le {e : WakeEntry} (h : s.wakeOwner e.tile = some e.owner) {k : SlotNum}
    (hk : s.WantsWake k e.tile) : s.entryKey e ≤ rankKey (s.slotRank k) e.tile :=
  Prod.Lex.toLex_mono (show (toLex (s.slotRank e.owner), e.tile) ≤ (toLex (s.slotRank k), e.tile) from
    Prod.mk_le_mk.2 ⟨(State.wakeOwner_spec h).2 k hk, le_rfl⟩)

/-- A tile that some job wants awake has its entry on the list. -/
theorem State.WantsWake.entry {k : SlotNum} {y : TileNum} (h : s.WantsWake k y) :
    ∃ i, (⟨y, i⟩ : WakeEntry) ∈ s.wakeList := by
  cases hown : s.wakeOwner y with
  | none => exact absurd h (State.wakeOwner_eq_none.1 hown k)
  | some i => exact ⟨i, State.mem_wakeList.2 hown⟩

/-- The entry's WAKE can go now: it is otherwise issuable and its port's transmitter is free (R89). -/
def State.canGo (s : State) (e : WakeEntry) : Bool := s.openFor e.tile && s.txFree (portOf e.tile)

theorem State.canGo_iff {e : WakeEntry} :
    s.canGo e = true ↔ s.OtherwiseIssuable e.tile ∧ (s.port (portOf e.tile)).transmitting = none := by
  unfold State.canGo
  rw [Bool.and_eq_true, State.openFor_iff, State.txFree_iff]

theorem State.examination_of_open (h : s.budgetOpen = true) :
    s.examination = (s.wakeList.find? s.canGo).map fun e => e.tile := by
  unfold State.examination
  rw [if_pos h]
  rfl

theorem State.examined_examination (s : State) : Examined s s.examination := by
  cases hopen : s.budgetOpen with
  | false =>
    have hnone : s.examination = none := by unfold State.examination; rw [if_neg (by rw [hopen]; nofun)]
    rw [hnone]
    exact ⟨nofun, fun _ h => absurd (State.budgetOpen_iff.2 h) (by rw [hopen]; nofun)⟩
  | true =>
    rw [State.examination_of_open hopen]
    refine ⟨fun x hx => ?_, fun hnone _ k y hk hissue htx => ?_⟩
    · obtain ⟨e, hfind, rfl⟩ := Option.map_eq_some_iff.1 hx
      obtain ⟨hgo, before, after, hsplit, hskipped⟩ := List.find?_eq_some_iff_append.1 hfind
      obtain ⟨hissue, htx⟩ := State.canGo_iff.1 hgo
      have hown := State.mem_wakeList.1 (List.mem_of_find?_eq_some hfind)
      refine ⟨State.budgetOpen_iff.1 hopen, hissue, htx, e.owner, (State.wakeOwner_spec hown).1,
        fun k y hk hissue' htx' => State.wakeNotAfter_of_key ?_⟩
      obtain ⟨i, hi⟩ := hk.entry
      refine le_trans ?_ (State.entryKey_le (State.mem_wakeList.1 hi) hk)
      have hsorted := s.inRankOrder_wakeList
      rw [hsplit] at hi hsorted
      rcases List.mem_append.1 hi with hi | hi
      · have hgo' : s.canGo ⟨y, i⟩ = true := State.canGo_iff.2 ⟨hissue', htx'⟩
        have hskip := hskipped _ hi
        rw [hgo'] at hskip
        cases hskip
      · rcases List.mem_cons.1 hi with hi | hi
        · rw [hi]
          exact le_rfl
        · exact (List.pairwise_cons.1 (List.pairwise_append.1 hsorted).2.1).1 _ hi
    · obtain ⟨i, hi⟩ := hk.entry
      have hno := List.find?_eq_none.1 (Option.map_eq_none_iff.1 hnone) _ hi
      exact hno (State.canGo_iff.2 ⟨hissue, htx⟩)

theorem State.examined_examineWakes (s : State) : Examined s.examineWakes s.examineWakes.wakePresented :=
  s.examined_examination

end

/-! ## The timebase and the wake history -/

/-- Settles O39. -/
theorem ticksAdvance : Obligations.TicksAdvance := by
  unfold Obligations.TicksAdvance
  refine ⟨fun s hlow => ?_, fun s m rest hlow hhist => ⟨fun hold => ?_, fun hyoung => ?_⟩⟩
  · refine ⟨timebaseTickEffect s, exec_of_high hlow rfl, rfl, State.examined_examineWakes _, fun x hx => ?_⟩
    obtain ⟨⟨hlimit, hgap⟩, hissue, htx, -⟩ := (State.examined_examineWakes _).1 x hx
    obtain ⟨-, hup, -, -, -, hcredits, -⟩ := hissue
    exact ⟨hlimit, hgap, htx, hup, hcredits⟩
  · have heff : wakeHistoryAgeOutEffect s = ({ s with wakeHistory := rest } : State).examineWakes := by
      unfold wakeHistoryAgeOutEffect
      rw [hhist]
      exact if_pos (decide_eq_true hold)
    refine ⟨({ s with wakeHistory := rest } : State).examineWakes, ?_, rfl, State.examined_examineWakes _, rfl⟩
    rw [← heff]
    exact exec_of_high hlow rfl
  · have heff : wakeHistoryAgeOutEffect s = s := by
      unfold wakeHistoryAgeOutEffect
      rw [hhist]
      exact if_neg (by unfold passed; rw [decide_eq_true_eq]; omega)
    exact (exec_of_high hlow rfl).trans (congrArg Host.Outcome.next heff)

end Sys2Proof.Machine
end

section
/-! What the arbiter picks: the candidates of a port, the gates of R71 as the statements write them, and the rank of R84 (R68
to R78, R84, R128). -/

namespace Sys2Proof.Machine

/-! ## The candidates of a port -/

section
variable {s : State} {p : PortId} {c : Cand}

theorem State.offered_of_mem (h : c ∈ s.candidates p) : s.Offered p c := by
  rcases State.mem_candidates h with ⟨i, h⟩ | h
  · obtain ⟨j, st, q, hj, hrun, hst, hq, hcand, rfl, hport⟩ := State.mem_jobCandidates h
    refine ⟨hport, nofun, fun k hk => ?_⟩
    obtain rfl := Option.some.inj hk
    refine ⟨j, st, hj, Phase.isRunning_iff.1 hrun, hst, rfl, rfl, fun hp => ?_, fun hn => ?_, q, hq, rfl, hcand⟩
    · unfold Job.rank
      rw [hp]
    · unfold Job.rank
      rw [hn]
  · obtain ⟨hslot, hkind, hcls, hmem, harmed⟩ := State.mem_offers h
    refine ⟨mem_portTiles.1 hmem, fun _ => ⟨hkind, hcls, harmed⟩, fun i hi => ?_⟩
    rw [hslot] at hi
    cases hi

/-- A tile part on the wake waiting list is a candidate of its port. -/
theorem State.WantsWake.mem_candidates {i : SlotNum} {x : TileNum} {j : Job} (h : s.WantsWake i x)
    (hj : s.job i = some j) : (⟨some i, x, .wake, j.rank.1, j.order⟩ : Cand) ∈ s.candidates (portOf x) := by
  obtain ⟨m, st, q, hm, hrun, hst, hkind, hpart, hcond⟩ := h
  obtain rfl := Option.some.inj (hj.symm.trans hm)
  obtain ⟨hq, hx⟩ := Job.mem_of_part? hpart
  have hmem : (⟨some i, x, .wake, j.rank.1, j.order⟩ : Cand) ∈ s.jobCandidates (portOf x) i := by
    unfold State.jobCandidates
    rw [hm]
    dsimp only
    rw [Phase.isRunning_iff.2 hrun, hst]
    refine List.mem_map.2 ⟨q, List.mem_filter.2 ⟨hq, ?_⟩, ?_⟩
    · rw [hcond, hx]
      simp
    · rw [hx, hkind]
  exact List.mem_append_left _ (List.mem_flatten.2 ⟨_, List.mem_map.2 ⟨i, mem_allSlots i, rfl⟩, hmem⟩)

end

/-! ## The gates -/

section
variable {s : State} {x : TileNum} {c : Cand}

theorem State.sleepInFlight_eq_false : s.sleepInFlight x = false ↔ s.NoSleepInFlight x := by
  unfold State.sleepInFlight State.NoSleepInFlight
  simp

theorem State.sleepGates_iff : s.sleepGates x = true ↔ s.SleepGatesOpen x := by
  unfold State.sleepGates State.SleepGatesOpen State.minAwakeGate State.holdGate
  simp only [Bool.and_eq_true, decide_eq_true_eq, and_assoc]
  refine and_congr_right fun _ => and_congr ?_ ?_
  · cases (s.tile x).wakeAck with
    | none => simp
    | some m =>
      simp only [passed, Option.mem_def, Option.some.injEq, forall_eq', Bool.or_eq_true, decide_eq_true_eq]
      tauto
  · cases (s.tile x).lastPixelAck with
    | none => simp
    | some m => simp [passed]

theorem State.chainOf_eq_priority {i : SlotNum} :
    s.chainOf i = some .priority ↔ ∃ j ∈ s.job i, j.chain = .priority := by
  unfold State.chainOf
  simp

theorem State.priorityStreamOpen_eq_false : s.priorityStreamOpen x = false ↔
    ∀ r ∈ (s.tile x).stream, ∀ j ∈ s.job r.owner, j.chain ≠ .priority := by
  unfold State.priorityStreamOpen
  cases (s.tile x).stream with
  | none => simp
  | some r => simp [State.chainOf_eq_priority]

theorem State.yields_eq_false : s.yields x = false ↔
    (∀ d ∈ s.candidates (portOf x), d.tile = x → d.cls = 0 → StepKind.isStream d.kind = true) ∧
    ∀ e ∈ (s.port (portOf x)).inFlight, e.tile = x → e.kind.isConfig = true →
      ∀ k ∈ e.owner.slot?, ∀ m ∈ s.job k, m.chain ≠ .priority := by
  unfold State.yields
  rw [Bool.or_eq_false_iff, List.any_eq_false, List.any_eq_false]
  refine and_congr (forall₂_congr fun d _ => by simp) (forall₂_congr fun e _ => ?_)
  cases e.owner.slot? with
  | none => simp
  | some k => simp [State.chainOf_eq_priority]

theorem State.ownStream_free {i : SlotNum} :
    ((s.tile x).stream.isNone || (s.ownStream i x).isSome) = true ↔ ∀ r ∈ (s.tile x).stream, r.owner = i := by
  unfold State.ownStream
  cases (s.tile x).stream with
  | none => simp
  | some r => by_cases h : r.owner = i <;> simp [h]

theorem State.streamGates_iff {i : SlotNum} : s.streamGates i c = true ↔ s.StreamGatesOpen i c := by
  unfold State.streamGates State.StreamGatesOpen
  rw [Bool.and_eq_true, Bool.and_eq_true, Bool.and_eq_true, State.ownStream_free, Bool.not_eq_true',
    Bool.not_eq_true', State.sleepInFlight_eq_false, decide_eq_true_eq, Bool.and_eq_false_iff, decide_eq_false_iff_not,
    State.yields_eq_false, and_assoc, and_assoc, ← imp_iff_not_or]

theorem State.staged_isSome {i : SlotNum} : (s.staged i x).isSome = true ↔
    ∃ j q ws, s.job i = some j ∧ j.part? x = some q ∧ q.staging = .staged ws := by
  unfold State.staged
  cases hj : s.job i with
  | none => simp
  | some j =>
    cases hq : j.part? x with
    | none => simp [hq]
    | some q => cases hg : q.staging <;> simp [hq, hg]

theorem State.readyGate_iff : s.readyGate x = true ↔
    ∃ due, (s.tile x).readyDue = some due ∧ ((s.tile x).readyOpen = true ∨ reached s.now due = true) := by
  unfold State.readyGate
  dsimp only
  cases (s.tile x).readyDue <;> simp

theorem State.sleepInFlight_eq_true : s.sleepInFlight x = true ↔ ¬ s.NoSleepInFlight x := by
  rw [← State.sleepInFlight_eq_false, Bool.not_eq_false]

theorem State.onFrameStep_iff {i : SlotNum} :
    s.onFrameStep i = true ↔ ∃ j st, s.job i = some j ∧ j.step? = some st ∧ st.onFrame = true := by
  unfold State.onFrameStep
  cases hj : s.job i with
  | none => simp
  | some j => cases hst : j.step? <;> simp [hst]

theorem State.held_iff : s.heldBehindSleep c = true ↔ s.HeldBehindSleep c := by
  cases hslot : c.slot with
  | none => simp [State.heldBehindSleep, State.HeldBehindSleep, hslot]
  | some i =>
    rw [State.heldBehindSleep_iff hslot, State.sleepInFlight_eq_true, State.onFrameStep_iff]
    unfold State.HeldBehindSleep
    constructor
    · exact fun ⟨⟨hdisplay, j, st, h⟩, hsleep, hwaits⟩ => ⟨hwaits, hdisplay, ⟨i, j, st, hslot, h⟩, hsleep⟩
    · intro ⟨hwaits, hdisplay, ⟨k, j, st, hk, h⟩, hsleep⟩
      obtain rfl := Option.some.inj (hslot.symm.trans hk)
      exact ⟨⟨hdisplay, j, st, h⟩, hsleep, hwaits⟩

/-- The gates of a job's entry, but for a WAKE's (R71). -/
theorem State.kindGates_iff {i : SlotNum} (hslot : c.slot = some i) (hwake : c.kind ≠ .wake) : s.kindGates c = true ↔
    (c.kind = .sleep → s.SleepGatesOpen c.tile) ∧
    (c.kind = .window ∨ c.kind = .band ∨ c.kind = .rollArea → (s.tile c.tile).credits = 0) ∧
    (c.kind = .put → s.StreamGatesOpen i c ∧
      ∃ j q ws, s.job i = some j ∧ j.part? c.tile = some q ∧ q.staging = .staged ws) ∧
    (c.kind = .get → s.StreamGatesOpen i c ∧
      ∃ due, (s.tile c.tile).readyDue = some due ∧ ((s.tile c.tile).readyOpen = true ∨ reached s.now due = true)) := by
  rw [← State.sleepGates_iff, ← State.streamGates_iff, ← State.staged_isSome, ← State.readyGate_iff]
  unfold State.kindGates
  rw [hslot]
  cases hkind : c.kind <;> simp
  exact absurd hkind hwake

/-- The gates of a job's WAKE (R71, R89). -/
theorem State.kindGates_wake {i : SlotNum} (hslot : c.slot = some i) (hwake : c.kind = .wake) : s.kindGates c = true ↔
    s.wakePresented = some c.tile ∧ s.BudgetOpen ∧ s.wakeOwner c.tile = some i := by
  rw [← State.budgetOpen_iff]
  unfold State.kindGates
  rw [hslot, hwake]
  simp [and_assoc]

/-- The gates of an auto-sleep's SLEEP (R70, R71). -/
theorem State.kindGates_offer (hslot : c.slot = none) :
    s.kindGates c = true ↔ s.SleepGatesOpen c.tile ∧ (s.tile c.tile).stream = none := by
  rw [← State.sleepGates_iff]
  unfold State.kindGates
  rw [hslot]
  simp

theorem State.issuable_iff : s.issuable c = true ↔ s.OtherwiseIssuable c.tile ∧
    (c.cls ≠ 0 → ∀ r ∈ (s.tile c.tile).stream, ∀ j ∈ s.job r.owner, j.chain ≠ .priority) ∧ s.kindGates c = true := by
  unfold State.issuable
  rw [Bool.and_eq_true, Bool.and_eq_true, State.openFor_iff, Bool.or_eq_true, decide_eq_true_eq, Bool.not_eq_true',
    State.priorityStreamOpen_eq_false, and_assoc, or_iff_not_imp_left]

end

/-! ## Issuable, by the model and by the statement -/

section
variable {s : State} {p : PortId} {c : Cand}

theorem State.mayIssue_of_issuable (h : s.issuable c = true) : s.MayIssue c := by
  obtain ⟨hopen, hbar, hgates⟩ := State.issuable_iff.1 h
  refine ⟨hopen, hbar, fun hslot => (State.kindGates_offer hslot).1 hgates, fun i hslot => ?_⟩
  by_cases hwake : c.kind = .wake
  · obtain ⟨hpresented, hbudget, hown⟩ := (State.kindGates_wake hslot hwake).1 hgates
    obtain ⟨hwants, hbest⟩ := State.wakeOwner_spec hown
    refine ⟨fun _ => ⟨hpresented, hbudget, hwants, fun k hk => State.wakeNotAfter_of_key ?_⟩, ?_⟩
    · exact Prod.Lex.toLex_mono (Prod.mk_le_mk.2 ⟨hbest k hk, le_rfl⟩)
    · rw [hwake]
      simp
  · exact ⟨fun h => absurd h hwake, (State.kindGates_iff hslot hwake).1 hgates⟩

/-- Two candidates that rank alike and have the same tile and kind. -/
def Cand.Alike (c d : Cand) : Prop := c.tile = d.tile ∧ c.kind = d.kind ∧ c.cls = d.cls ∧ c.order = d.order

/-- A candidate that may issue by the statement is issuable itself, or, of two WAKEs of one rank for one tile, the other is:
the entry has one owner. -/
theorem State.exists_issuable (hc : c ∈ s.candidates p) (h : s.MayIssue c) (hheld : ¬ s.HeldBehindSleep c) :
    ∃ d ∈ s.candidates p, d.Alike c ∧ s.issuable d = true ∧ s.heldBehindSleep d = false := by
  obtain ⟨hopen, hbar, hoffer, hjob⟩ := h
  have hself : s.kindGates c = true →
      ∃ d ∈ s.candidates p, d.Alike c ∧ s.issuable d = true ∧ s.heldBehindSleep d = false := fun hgates =>
    ⟨c, hc, ⟨rfl, rfl, rfl, rfl⟩, State.issuable_iff.2 ⟨hopen, hbar, hgates⟩,
      Bool.eq_false_iff.2 fun h => hheld (State.held_iff.1 h)⟩
  cases hslot : c.slot with
  | none => exact hself ((State.kindGates_offer hslot).2 (hoffer hslot))
  | some i =>
    obtain ⟨hwakes, hgates⟩ := hjob i hslot
    by_cases hwake : c.kind = .wake
    · obtain ⟨hpresented, hbudget, hwants, hbest⟩ := hwakes hwake
      obtain ⟨hport, -, hoffered⟩ := State.offered_of_mem hc
      obtain ⟨j, st, hj, -, -, -, horder, hprio, hnormal, -⟩ := hoffered i hslot
      cases hown : s.wakeOwner c.tile with
      | none => exact absurd hwants (State.wakeOwner_eq_none.1 hown i)
      | some k =>
        obtain ⟨hwants', hbest'⟩ := State.wakeOwner_spec hown
        obtain ⟨m, hm⟩ := hwants'.job
        have hrank : m.rank = j.rank := by
          have hle := hbest' i hwants
          rw [s.slotRank_of_job hm, s.slotRank_of_job hj] at hle
          refine toLex_inj.1 (le_antisymm hle ?_)
          have hkey := rankKey_le_iff.2 (hbest k hwants' j hj m hm)
          have hfst := (Prod.Lex.le_iff.1 hkey)
          exact hfst.elim le_of_lt fun h => h.1.le
        have hcls : j.rank.1 = c.cls := by
          unfold Job.rank
          cases hchain : j.chain with
          | priority => exact (hprio hchain).symm
          | normal => exact (hnormal hchain).symm
        have hmem := hwants'.mem_candidates hm
        rw [hport] at hmem
        have horder' : m.order = c.order := (congrArg Prod.snd hrank).trans horder.symm
        have hcls' : m.rank.1 = c.cls := (congrArg Prod.fst hrank).trans hcls
        refine ⟨_, hmem, ⟨rfl, hwake.symm, hcls', horder'⟩, State.issuable_iff.2 ⟨hopen, ?_, ?_⟩, ?_⟩
        · exact fun h => hbar (hcls' ▸ h)
        · exact (State.kindGates_wake rfl rfl).2 ⟨hpresented, hbudget, hown⟩
        · rfl
    · exact hself ((State.kindGates_iff hslot hwake).2 hgates)

/-! ## The rank of R84 -/

def Cand.key (c : Cand) : (Nat ×ₗ Nat) ×ₗ TileNum := rankKey c.rank c.tile

theorem Cand.before_iff {c d : Cand} : c.before d = true ↔ c.key < d.key := rankKey_lt_iff

theorem Cand.notAfter_of_key {c d : Cand} (h : c.key ≤ d.key) : c.notAfter d := by
  have h := rankKey_le_iff.1 h
  unfold Cand.rank at h
  unfold Cand.notAfter
  have htile : c.tile ≤ d.tile ↔ c.tile.val ≤ d.tile.val := Iff.rfl
  rw [htile] at h ⊢
  by_cases hc : c.kind = .wake <;> by_cases hd : d.kind = .wake <;>
    simp [hc, hd] at h ⊢ <;> omega

theorem Cand.notAfter_of_alike {c d e : Cand} (h : c.notAfter d) (hde : d.Alike e) : c.notAfter e := by
  obtain ⟨htile, hkind, hcls, horder⟩ := hde
  unfold Cand.notAfter at h ⊢
  rwa [← htile, ← hkind, ← hcls, ← horder]

theorem bestCand_cons (a : Cand) (l : List Cand) :
    bestCand (a :: l) = match bestCand l with | none => some a | some d => if d.before a then some d else some a := rfl

theorem bestCand_eq_none {l : List Cand} (h : bestCand l = none) : l = [] := by
  cases l with
  | nil => rfl
  | cons a l =>
    rw [bestCand_cons] at h
    split at h
    · cases h
    · split at h <;> cases h

theorem bestCand_key_le {l : List Cand} (h : bestCand l = some c) : ∀ d ∈ l, c.key ≤ d.key := by
  induction l generalizing c with
  | nil => nofun
  | cons a l ih =>
    intro d hd
    rw [bestCand_cons] at h
    cases hl : bestCand l with
    | none =>
      rw [bestCand_eq_none hl] at hd
      rw [hl] at h
      rw [List.mem_singleton.1 hd, Option.some.inj h]
    | some b =>
      rw [hl] at h
      dsimp only at h
      split at h
      · next hlt =>
        obtain rfl := Option.some.inj h
        rcases List.mem_cons.1 hd with rfl | hd
        · exact (Cand.before_iff.1 hlt).le
        · exact ih hl d hd
      · next hlt =>
        obtain rfl := Option.some.inj h
        rcases List.mem_cons.1 hd with rfl | hd
        · exact le_rfl
        · exact (not_lt.1 fun h => hlt (Cand.before_iff.2 h)).trans (ih hl d hd)

/-- A candidate that may issue and is not held is among those the arbiter chooses from, or one alike is. -/
theorem State.exists_choice (hc : c ∈ s.candidates p) (h : s.MayIssue c) (hheld : ¬ s.HeldBehindSleep c) :
    ∃ d ∈ (s.candidates p).filter (fun c => s.issuable c && !s.heldBehindSleep c), d.Alike c := by
  obtain ⟨d, hd, halike, hissue, hfree⟩ := State.exists_issuable hc h hheld
  exact ⟨d, List.mem_filter.2 ⟨hd, by rw [hissue, hfree]; rfl⟩, halike⟩

theorem StepKind.isConfig_iff {k : StepKind} : k.isConfig = true ↔ k = .window ∨ k = .band ∨ k = .rollArea := by
  cases k <;> decide

theorem StepKind.isStream_iff {k : StepKind} : k.isStream = true ↔ k = .put ∨ k = .get := by cases k <;> decide

end

/-- Settles O35. -/
theorem onlyIssuableEntriesGo : Obligations.OnlyIssuableEntriesGo := by
  unfold Obligations.OnlyIssuableEntriesGo
  refine ⟨fun s p c hpick => ?_, fun s p hnone d hd hmay => ?_, fun s p c hpick => ?_⟩
  · obtain ⟨hmem, hissue, hfree⟩ := State.arbiterPick_spec hpick
    refine ⟨hmem, State.offered_of_mem hmem, State.mayIssue_of_issuable hissue,
      fun h => Bool.eq_false_iff.1 hfree (State.held_iff.2 h), fun d hd hmay hheld => ?_⟩
    obtain ⟨d', hd', halike⟩ := State.exists_choice hd hmay hheld
    exact Cand.notAfter_of_alike (Cand.notAfter_of_key (bestCand_key_le hpick d' hd')) halike
  · by_contra hheld
    obtain ⟨d', hd', -⟩ := State.exists_choice hd hmay hheld
    rw [bestCand_eq_none hnone] at hd'
    cases hd'
  · obtain ⟨hmem, hissue, -⟩ := State.arbiterPick_spec hpick
    obtain ⟨hport, hoffer, -⟩ := State.offered_of_mem hmem
    obtain ⟨⟨hengine, hup, habsent, hlost, htag, hcredits, hconfig⟩, -, hauto, hjob⟩ := State.mayIssue_of_issuable hissue
    refine ⟨hmem, hengine, hup, habsent, hlost, hport ▸ htag, hcredits, hconfig, fun hslot hwake => ?_, fun hkind => ?_,
      fun hstream hslot => ?_⟩
    · obtain ⟨i, hi⟩ := Option.isSome_iff_exists.1 hslot
      obtain ⟨hpresented, ⟨hlimit, hgap⟩, -⟩ := (hjob i hi).1 hwake
      exact ⟨hpresented, hlimit, hgap⟩
    · cases hslot : c.slot with
      | none => exact (hauto hslot).1.1
      | some i =>
        obtain ⟨-, hsleep, hsettled, -⟩ := hjob i hslot
        rcases hkind with hkind | hkind
        · exact (hsleep hkind).1
        · exact hsettled (StepKind.isConfig_iff.1 hkind)
    · obtain ⟨i, hi⟩ := Option.isSome_iff_exists.1 hslot
      obtain ⟨-, -, -, hput, hget⟩ := hjob i hi
      have hgates : s.StreamGatesOpen i c :=
        (StepKind.isStream_iff.1 hstream).elim (fun h => (hput h).1) fun h => (hget h).1
      obtain ⟨hawake, hsleep, -⟩ := hgates
      exact ⟨hawake, State.sleepInFlight_eq_false.2 hsleep⟩

end Sys2Proof.Machine
end

section
/-! The end of a transmission and of a staging read (R16, R35, R36, R82, R109). -/

namespace Sys2Proof.Machine

/-! ## The end of an event after which no step is over -/

section
variable {before s : State}

theorem settle_of_no_ready (h : (resolved before s).readySlots = []) : settle before s = (resolved before s).closeStreams := by
  rw [settle_eq]
  exact State.advance_eq_self ((State.readySlots_of_slots (State.slots_closeStreams _)).trans h) _

theorem slot_finish_of_no_ready (h : (resolved before s).readySlots = []) (k : SlotNum) :
    (finish before s).slot k = (resolved before s).slot k := by
  unfold finish
  rw [State.slot_commit, settle_of_no_ready h]
  exact State.slot_of_slots (State.slots_closeStreams _) k

theorem lastError_finish_of_no_ready (h : (resolved before s).readySlots = []) (x : TileNum) :
    ((finish before s).tile x).lastError = ((State.rejudgeChanged before s).tile x).lastError := by
  unfold finish
  rw [State.tile_commit, settle_of_no_ready h, State.tile_closeStreams, tile_resolved]
  rcases State.closedEntry_cases (resolved before s) x ((State.rejudgeChanged before s).tile x) with h | h <;> rw [h]

theorem State.readySlots_eq_nil (h : ∀ i j, s.job i = some j → j.stepOver = false) : s.readySlots = [] :=
  List.eq_nil_iff_forall_not_mem.2 fun i hi => by
    obtain ⟨j, hj, hover⟩ := State.mem_readySlots.1 hi
    rw [h i j hj] at hover
    cases hover

theorem State.stepOver_of_ready (h : s.readySlots = []) {i : SlotNum} {j : Job} (hj : s.job i = some j) :
    j.stepOver = false :=
  Bool.eq_false_iff.2 fun hover => by
    have hmem := State.mem_readySlots.2 ⟨j, hj, hover⟩
    rw [h] at hmem
    cases hmem

/-- The failures that a TOLERANT step counts stay counted, whatever goes on after (R35). -/
theorem tolerated_finish {i : SlotNum} {k : Job} {x : TileNum} {c : ErrorCode} (hfatal : s.fatal = false)
    (hjob : (State.rejudgeChanged before s).job i = some k) (hrun : k.phase = .running)
    (hlow : lowestFailing k.parts = some (x, c)) (htol : k.flag Step.tolerant = true) {j₀ : Job} (hj₀ : s.job i = some j₀) :
    ∃ j', (finish before s).job i = some j' ∧ min 255 (k.tolerated + 1) ≤ j'.tolerated := by
  have hres := Job.resolve_tolerates hrun hlow htol (s.hasInFlight i)
  obtain ⟨⟨q, hq, -, hc⟩, -⟩ := lowestFailing_spec hlow
  have hcount := countFailing_pos hq hc
  obtain ⟨j', hj', -⟩ := (finish_frame before s).taken hfatal hj₀
  have hmoves : Moves (resolved before s) (finish before s) := by
    unfold finish
    rw [settle_eq]
    exact ((Moves.of_slots (State.slots_closeStreams _)).trans (moves_advance _ _)).trans (.of_slots (slots_commit _ _))
  obtain ⟨k', hk', hahead⟩ := hmoves i j' hj'
  obtain rfl := Option.some.inj ((job_resolved hjob).symm.trans hk')
  have hle := hahead.ahead.tolerated
  rw [hres] at hle
  refine ⟨j', hj', ?_⟩
  have : min 255 (min 255 (k.tolerated + countFailing k.parts)) ≤ min 255 j'.tolerated := hle
  omega

end

/-! ## A tile part fails, and no tile changes its state -/

theorem Job.atRestOn_failPart (x : TileNum) (c : ErrorCode) (j : Job) : (j.failPart x c).AtRestOn x := by
  intro _ q hq
  unfold Job.failPart at hq
  split at hq
  · next hnone => rw [hnone] at hq; cases hq
  · next r hr =>
    split at hq
    · next hfail =>
      obtain rfl := Option.some.inj (hr.symm.trans hq)
      exact hfail
    · rw [Job.part?_setPart (f := fun q => { q with cond := .failing c, staging := .empty }) (fun _ => rfl), if_pos rfl,
        hr] at hq
      rw [← Option.some.inj hq]
      rfl

theorem Job.atRestOn_completePart (x : TileNum) (j : Job) : (j.completePart x).AtRestOn x := by
  intro _ q hq
  unfold Job.completePart at hq
  split at hq
  · next hnone => rw [hnone] at hq; cases hq
  · next r hr =>
    split at hq
    · next hfail =>
      obtain rfl := Option.some.inj (hr.symm.trans hq)
      exact hfail
    · obtain ⟨hmem, htile⟩ := Job.mem_of_part? hq
      exact absurd htile (of_decide_eq_true (List.mem_filter.1 hmem).2)

theorem Job.staging_resolve_drains {k : Job} {x : TileNum} {c : ErrorCode} (hrun : k.phase = .running)
    (hlow : lowestFailing k.parts = some (x, c)) (htol : k.flag Step.tolerant = false) (f : TileNum → Bool) :
    ∀ q ∈ (k.resolve f).parts, q.staging = .empty := by
  unfold Job.resolve Job.countFailures
  rw [hrun, hlow, htol]
  exact Job.staging_tidy_withdrawn rfl

section
variable {s before : State} {i : SlotNum} {x : TileNum} {c : ErrorCode} {j : Job} {q : TilePart}

theorem State.state_failPart (u : TileNum) : ((s.failPart i x c).tile u).state = (s.tile u).state :=
  (State.failPart_frame s i x c).state u

theorem rejudgeChanged_failPart (hstates : ∀ u, (before.tile u).state = (s.tile u).state) :
    State.rejudgeChanged before (s.failPart i x c) = s.failPart i x c :=
  State.rejudgeChanged_eq_self fun u => (hstates u).trans (State.state_failPart u).symm

theorem State.job_failPart (hj : s.job i = some j) : (s.failPart i x c).job i = some (j.failPart x c) :=
  State.job_of_mapSlot ((State.slot_failPart s i i x c).trans (if_pos rfl)) hj

theorem slot_resolved_failPart_ne (hq : Quiet s) (hstates : ∀ u, (before.tile u).state = (s.tile u).state) {k : SlotNum}
    (hne : k ≠ i) : (resolved before (s.failPart i x c)).slot k = s.slot k := by
  unfold resolved
  rw [rejudgeChanged_failPart hstates, State.slot_resolveAll, State.slot_failPart, if_neg hne.symm]
  refine Slot.mapJob_eq_self fun m hm => Job.resolve_eq_self ?_
  rw [funext fun y => (State.failPart_frame s i x c).hasInFlight k y]
  exact hq.settled k m hm

/-- A part of a step that is not TOLERANT fails: its job drains, and nothing else goes on (R36). -/
theorem no_ready_failPart (hq : Quiet s) (hstates : ∀ u, (before.tile u).state = (s.tile u).state) (hj : s.job i = some j)
    (hrun : j.phase = .running) (hpart : j.part? x = some q) (hfail : q.cond.hasFailed = false)
    (htol : j.flag Step.tolerant = false) : (resolved before (s.failPart i x c)).readySlots = [] := by
  refine State.readySlots_eq_nil fun k m hm => ?_
  by_cases hk : k = i
  · subst hk
    have hjob := job_resolved (s := before) (u := s.failPart k x c) (k := j.failPart x c)
      (by rw [rejudgeChanged_failPart hstates]; exact State.job_failPart hj)
    obtain rfl := Option.some.inj (hjob.symm.trans hm)
    have hframe := Job.frame_failPart x c j
    refine (Job.stepOver_of_not_running ?_).1
    rw [(Job.resolve_drains ((Job.phase_of_frame hframe).trans hrun)
      (Job.lowestFailing_failPart (hq.settled k j hj) hpart hfail c) ?_ _).1]
    · nofun
    · unfold Job.flag at htol ⊢
      rw [Job.step?_of_frame hframe]
      exact htol
  · have hslot := slot_resolved_failPart_ne (c := c) (x := x) hq hstates hk
    exact State.stepOver_of_ready hq.ready ((State.job_of_slot hslot).symm.trans hm)

end

/-! ## The staging read -/

section
variable {s : State} {i : SlotNum} {x : TileNum} {g : Staging} {j : Job} {q : TilePart}

/-- The staging of a part whose read is over. -/
def TilePart.readOver (g : Staging) (q : TilePart) : TilePart := if q.staging = .reading then { q with staging := g } else q

theorem State.endStagingRead_eq (hj : s.job i = some j) :
    s.endStagingRead i x g = s.setSlot i (.job (j.setPart x (TilePart.readOver g))) := by
  unfold State.endStagingRead State.modJob
  rw [hj]
  rfl

theorem State.endStagingRead_frame : JobFrame s (s.endStagingRead i x g) :=
  JobFrame.modJob s i fun _ _ => ⟨rfl, fun _ => rfl⟩

theorem TilePart.cond_readOver : (q.readOver g).cond = q.cond := by
  unfold TilePart.readOver
  split <;> rfl

theorem TilePart.tile_readOver : (q.readOver g).tile = q.tile := by
  unfold TilePart.readOver
  split <;> rfl

theorem Job.part?_readOver (hpart : j.part? x = some q) : (j.setPart x (TilePart.readOver g)).part? x = some (q.readOver g) := by
  rw [Job.part?_setPart (fun _ => TilePart.tile_readOver), if_pos rfl, hpart]
  rfl

/-- A part's failure empties its staging, so what its read left there does not matter. -/
theorem Job.failPart_readOver (hpart : j.part? x = some q) (hfail : q.cond.hasFailed = false) (c : ErrorCode) :
    (j.setPart x (TilePart.readOver g)).failPart x c = j.failPart x c := by
  rw [Job.failPart_part x c hpart hfail, Job.failPart_part x c (Job.part?_readOver hpart)
    (by rw [TilePart.cond_readOver]; exact hfail)]
  unfold Job.setPart
  refine congrArg (fun ps => { j with parts := ps }) ?_
  rw [List.map_map]
  refine List.map_congr_left fun r _ => ?_
  by_cases hr : r.tile = x
  · simp only [Function.comp, if_pos hr, TilePart.tile_readOver]
  · simp only [Function.comp, if_neg hr]

theorem State.failPart_eq_setSlot (hj : s.job i = some j) (hpart : j.part? x = some q) (hfail : q.cond.hasFailed = false)
    (c : ErrorCode) :
    s.failPart i x c = ((s.markError x c).modTile x (TileEntry.failStream i)).setSlot i (.job (j.failPart x c)) := by
  have hjob : ((s.markError x c).modTile x (TileEntry.failStream i)).job i = some j :=
    (State.job_of_slot (State.slot_markError s x c i)).trans hj
  unfold State.failPart
  rw [hj, Job.failPart_part x c hpart hfail, Option.bind_some, hpart]
  dsimp only
  rw [hfail, if_neg Bool.false_ne_true]
  unfold State.modJob
  rw [hjob]

theorem State.setSlot_twice (v w : Slot) : (s.setSlot i v).setSlot i w = s.setSlot i w := by
  unfold State.setSlot
  dsimp only
  rw [Vector.set_set]

theorem State.failPart_endStagingRead (hj : s.job i = some j) (hpart : j.part? x = some q) (hfail : q.cond.hasFailed = false)
    (c : ErrorCode) : (s.endStagingRead i x g).failPart i x c = s.failPart i x c := by
  rw [State.endStagingRead_eq hj, State.failPart_eq_setSlot hj hpart hfail]
  rw [State.failPart_eq_setSlot (j := j.setPart x (TilePart.readOver g)) (q := q.readOver g)
    ((State.job_setSlot s i i _).trans (if_pos rfl))
    (Job.part?_readOver hpart) (by rw [TilePart.cond_readOver]; exact hfail), Job.failPart_readOver hpart hfail]
  have hcomm (v : Slot) : (((s.setSlot i v).markError x c).modTile x (TileEntry.failStream i)) =
      ((s.markError x c).modTile x (TileEntry.failStream i)).setSlot i v := by
    unfold State.markError
    split <;> rfl
  rw [hcomm, State.setSlot_twice]

theorem State.readStopped_iff : s.readStopped i x = true ↔ ∃ v ∈ s.stoppedReads, v.slot = i ∧ v.tile = x := by
  unfold State.readStopped
  simp

theorem State.stagingReadEnds_busError {st : Step} (hj : s.job i = some j) (hst : j.step? = some st)
    (hpart : j.part? x = some q) (hreading : q.staging = .reading) : s.stagingReadEnds i x .busError =
      finish (s.endStagingRead i x .empty) ((s.endStagingRead i x .empty).failPart i x .busError) := by
  unfold State.stagingReadEnds
  rw [hj, Option.bind_some, Option.bind_some, hst, hpart]
  exact if_pos hreading

theorem State.stagingReadEnds_bytes {st : Step} (hj : s.job i = some j) (hst : j.step? = some st)
    (hpart : j.part? x = some q) (hreading : q.staging = .reading) (bs : List Byte) : s.stagingReadEnds i x (.bytes bs) =
      s.endStagingRead i x (.staged (wordsAt bs 0 (s.nextSegmentWords i x st))) := by
  unfold State.stagingReadEnds
  rw [hj, Option.bind_some, Option.bind_some, hst, hpart]
  exact if_pos hreading

/-- What may fail besides on the tile, seen from the part that has failed. -/
theorem State.follows_failPart (hj : s.job i = some j) (c : ErrorCode) : s.Follows (s.failPart i x c) x (some i) := by
  intro k m hm
  by_cases hk : k = i
  · subst hk
    obtain rfl := Option.some.inj ((State.job_failPart hj).symm.trans hm)
    exact ⟨j, hj, Job.frame_failPart x c j, fun y hy => Job.partTiles_failPart x c j ▸ hy, fun _ => Job.atRestOn_failPart x c j⟩
  · have hslot : (s.failPart i x c).slot k = s.slot k := (State.slot_failPart s i k x c).trans (if_neg (Ne.symm hk))
    exact ⟨m, (State.job_of_slot hslot).symm.trans hm, rfl, fun _ h => h, fun h => absurd (Option.some.inj h).symm hk⟩

end

/-! ## The end of an event in which no tile's record changes -/

theorem State.noteRecordChanges_eq_self {before s : State} (h : ∀ x, (before.tile x).view = (s.tile x).view) :
    State.noteRecordChanges before s = s := by
  unfold State.noteRecordChanges
  induction allTiles with
  | nil => rfl
  | cons t l ih => rw [List.foldl_cons, if_pos (h t), ih]

theorem State.notice_commit {before s : State} (h : ∀ x, (before.tile x).view = (s.tile x).view) :
    (commit before s).notice = s.notice := by
  unfold commit
  rw [State.noteRecordChanges_eq_self (s := State.keepStoppedReads before s) h]
  dsimp only
  split <;> rfl

section
variable {s : State} {i : SlotNum} {x : TileNum} {j : Job} {st : Step} {q : TilePart} {c : ErrorCode}

/-- What the failure of one tile part leaves, its job's step not TOLERANT (R36). -/
theorem failPart_finish_drains (hq : Quiet s) {before : State} (hstates : ∀ u, (before.tile u).state = (s.tile u).state)
    (hj : s.job i = some j) (hrun : j.phase = .running) (hpart : j.part? x = some q) (hfail : q.cond.hasFailed = false)
    (htol : j.flag Step.tolerant = false) (hmarks : c.marksTile = true) :
    ((finish before (s.failPart i x c)).tile x).lastError = some c ∧
      (∀ k, k ≠ i → (finish before (s.failPart i x c)).slot k = s.slot k) ∧
      ∃ j', (finish before (s.failPart i x c)).job i = some j' ∧ j'.phase = .draining ∧
        j'.firstFailure = some ⟨c, j.current, some x⟩ ∧ j'.stepsDone = j.stepsDone ∧ ∀ q' ∈ j'.parts, q'.staging = .empty := by
  have hready := no_ready_failPart (c := c) hq hstates hj hrun hpart hfail htol
  have hrejudge := rejudgeChanged_failPart (i := i) (x := x) (c := c) hstates
  have hframe := Job.frame_failPart x c j
  have hlow := Job.lowestFailing_failPart (hq.settled i j hj) hpart hfail c
  have hrun' := (Job.phase_of_frame hframe).trans hrun
  have htol' : (j.failPart x c).flag Step.tolerant = false := by
    unfold Job.flag at htol ⊢
    rw [Job.step?_of_frame hframe]
    exact htol
  refine ⟨?_, fun k hk => (slot_finish_of_no_ready hready k).trans (slot_resolved_failPart_ne hq hstates hk), _,
    (State.job_of_slot (slot_finish_of_no_ready hready i)).trans (job_resolved (k := j.failPart x c) ?_), ?_⟩
  · rw [lastError_finish_of_no_ready hready, hrejudge, State.tile_failPart ⟨j, q, hj, hpart, hfail⟩]
    exact TileEntry.lastError_failed hmarks i _
  · rw [hrejudge]
    exact State.job_failPart hj
  · obtain ⟨hphase, hfirst, hdone, -⟩ := Job.resolve_drains hrun' hlow htol' ((s.failPart i x c).hasInFlight i)
    refine ⟨hphase, hfirst.trans ?_, hdone.trans (Job.stepsDone_of_frame hframe), Job.staging_resolve_drains hrun' hlow htol' _⟩
    rw [Job.current_of_frame hframe]

/-- What the failure of one tile part leaves of a TOLERANT step (R35). -/
theorem failPart_finish_tolerates (hq : Quiet s) {before : State} (hstates : ∀ u, (before.tile u).state = (s.tile u).state)
    (hj : s.job i = some j) (hrun : j.phase = .running) (hpart : j.part? x = some q) (hfail : q.cond.hasFailed = false)
    (htol : j.flag Step.tolerant = true) (hmarks : c.marksTile = true) :
    (s.Undisturbed x (some i) → ((finish before (s.failPart i x c)).tile x).lastError = some c) ∧
      ∃ j', (finish before (s.failPart i x c)).job i = some j' ∧ min 255 (j.tolerated + 1) ≤ j'.tolerated := by
  have hframe := Job.frame_failPart x c j
  refine ⟨fun hun => ?_, ?_⟩
  · rw [lastError_finish_of_follows before (State.follows_failPart hj c) hun,
      State.tile_failPart ⟨j, q, hj, hpart, hfail⟩]
    exact TileEntry.lastError_failed hmarks i _
  · have hrejudge : (State.rejudgeChanged before (s.failPart i x c)).job i = some (j.failPart x c) := by
      rw [rejudgeChanged_failPart hstates]
      exact State.job_failPart hj
    have hfatal : (s.failPart i x c).fatal = false :=
      hq.fatal hj hrun (State.fatal_of_body (State.failPart_frame s i x c).body)
    rw [← Job.tolerated_of_frame hframe]
    refine tolerated_finish hfatal hrejudge ((Job.phase_of_frame hframe).trans hrun)
      (Job.lowestFailing_failPart (hq.settled i j hj) hpart hfail c) ?_ (State.job_failPart hj)
    unfold Job.flag at htol ⊢
    rw [Job.step?_of_frame hframe]
    exact htol

end

/-- Settles O37. -/
theorem transmissionsAndStagingReadsEnd : Obligations.TransmissionsAndStagingReadsEnd := by
  unfold Obligations.TransmissionsAndStagingReadsEnd
  refine ⟨fun s p k hlow hbusy => ?_, fun s i x r hlow hcut hstopped => ?_,
    fun s i x j st q hlow hcut hlive hj hst hpart hreading => ?_⟩
  · have hexec : exec (.transmissionEnd p) s = .next (transmissionEndEffect p s) := exec_of_high hlow rfl
    have heffect : transmissionEndEffect p s = commit s (s.modPort p fun v => { v with transmitting := none }) := by
      unfold transmissionEndEffect
      refine if_neg fun h => ?_
      rw [State.txFree_iff, hbusy] at h
      cases h
    rw [heffect] at hexec
    refine ⟨_, hexec, ?_⟩
    have htiles := State.tiles_modPort s p fun v => { v with transmitting := none }
    have hnotice := State.notice_modPort s p fun v => { v with transmitting := none }
    have hself := State.port_modPort s p fun v => { v with transmitting := none }
    have hother := fun q (h : q ≠ p) => State.port_modPort_ne s (fun v => { v with transmitting := none }) h
    have hslots : (s.modPort p fun v => { v with transmitting := none }).slots = s.slots := by simp
    have hengine : (s.modPort p fun v => { v with transmitting := none }).engine = s.engine := by simp
    have hwalkerN : (s.modPort p fun v => { v with transmitting := none }).walkerN = s.walkerN := by simp
    have hwalkerP : (s.modPort p fun v => { v with transmitting := none }).walkerP = s.walkerP := by simp
    have hhistory : (s.modPort p fun v => { v with transmitting := none }).wakeHistory = s.wakeHistory := by simp
    generalize s.modPort p (fun v => { v with transmitting := none }) = u at *
    have hframe := commit_frame s u
    have hports (q : PortId) : (commit s u).port q = u.port q := hframe.port q
    have hviews (x : TileNum) : (s.tile x).view = (u.tile x).view :=
      congrArg TileEntry.view (State.tile_of_tiles htiles x).symm
    exact ⟨(hports p).trans hself, fun q hq => (hports q).trans (hother q hq), (tiles_commit s u).trans htiles,
      (slots_commit s u).trans hslots, hframe.engine.trans hengine, hframe.walkerN.trans hwalkerN,
      hframe.walkerP.trans hwalkerP, (State.notice_commit hviews).trans hnotice, hframe.wakeHistory.trans hhistory⟩
  · have hexec : exec (.stagingReadDone i x r) s = .next (stagingReadDoneEffect i x r s) := endOfAccess_of_live hlow hcut _
    rw [hexec]
    refine congrArg Host.Outcome.next (if_pos (State.readStopped_iff.2 hstopped))
  · have heffect (r : ReadResult) : exec (.stagingReadDone i x r) s = .next (s.stagingReadEnds i x r) := by
      refine (endOfAccess_of_live hlow hcut _).trans (congrArg Host.Outcome.next (if_neg fun h => ?_))
      obtain ⟨v, hv, hat⟩ := State.readStopped_iff.1 h
      exact hlive v hv hat
    refine ⟨fun bs => ?_, ?_⟩
    · rw [heffect, State.stagingReadEnds_bytes hj hst hpart hreading, State.endStagingRead_eq hj]
      rfl
    · rw [heffect, State.stagingReadEnds_busError hj hst hpart hreading]
      have hstates (u : TileNum) : ((s.endStagingRead i x .empty).tile u).state = (s.tile u).state :=
        State.endStagingRead_frame.state u
      have hover := State.endStagingRead_frame (s := s) (i := i) (x := x) (g := .empty)
      cases hfail : q.cond.hasFailed with
      | true =>
        have hnot : ¬ (s.endStagingRead i x .empty).CanFail i x := by
          rintro ⟨k, r, hk, hr, hr'⟩
          rw [State.endStagingRead_eq hj, State.job_setSlot, if_pos rfl] at hk
          obtain rfl := Option.some.inj hk
          rw [Job.part?_readOver hpart] at hr
          obtain rfl := Option.some.inj hr
          rw [TilePart.cond_readOver, hfail] at hr'
          cases hr'
        have hnot' : ¬ s.CanFail i x := by
          rintro ⟨k, r, hk, hr, hr'⟩
          obtain rfl := Option.some.inj (hj.symm.trans hk)
          obtain rfl := Option.some.inj (hpart.symm.trans hr)
          rw [hfail] at hr'
          cases hr'
        rw [State.failPart_eq_self hnot, State.failPart_eq_self hnot']
        exact ⟨_, rfl, (EventFrame.ofJob hover).trans (finish_frame _ _), nofun, nofun⟩
      | false =>
        rw [State.failPart_endStagingRead hj hpart hfail]
        generalize s.endStagingRead i x .empty = before at *
        refine ⟨_, rfl, finish_frame _ _, fun _ => ⟨?_, _,
          { q with cond := .failing .busError, staging := .empty }, State.job_failPart hj, ?_, rfl, rfl⟩, fun _ hrun hq =>
          ⟨fun htol => ?_, fun htol => ?_⟩⟩
        · rw [State.tile_failPart ⟨j, q, hj, hpart, hfail⟩]
          exact TileEntry.lastError_failed rfl i _
        · rw [Job.failPart_part x _ hpart hfail, Job.part?_setPart (f := fun q =>
            { q with cond := .failing .busError, staging := .empty }) (fun _ => rfl), if_pos rfl, hpart]
          rfl
        · exact failPart_finish_drains hq hstates hj hrun hpart hfail ((Job.flag_of_step hst _).trans htol) rfl
        · exact failPart_finish_tolerates hq hstates hj hrun hpart hfail ((Job.flag_of_step hst _).trans htol) rfl

end Sys2Proof.Machine
end

section
/-! A segment of a stream that goes on need not leave its job's tile parts as they were: with the last packet of the stream a
second tile part for the same tile, one that drains, leaves as well (R34). Two scenes show it, for a PUT segment's ACK and for
a GET segment's destination write; they refute the statements that say the job is otherwise unchanged. -/

namespace Sys2Proof.Machine

/-- A step of 16 pixels on tile 0. -/
def streamStep (k : StepKind) : Step :=
  { kind := k, onFrame := false, sleepAfter := false, tolerant := false, pass := false, tiles := 1, x := 0, y := 16 }

/-- A RUNNING job at a stream step, with two tile parts for tile 0: one that still sends, and one that drains. -/
def twofoldJob (k : StepKind) : Job :=
  { runningJob 1 [streamStep k] none with
    tiles := 1, outstanding := 1, parts := [⟨0, .candidate, .empty⟩, ⟨0, .draining, .empty⟩] }

/-- The one packet in flight, of 8 pixels. -/
def segmentEntry (k : PacketKind) (ph : EntryPhase) : Entry :=
  { tag := 0, tile := 0, owner := .job 0 0, kind := k, issueTime := 0, deadline := none, phase := ph, x := 0, y := 0,
    first := 0, pixels := 8, format := .rgb16 }

def halfSentStream (k : StreamKind) : Stream :=
  { owner := 0, kind := k, sent := 8, acked := 0, broken := false, failed := false }

def twofoldScene (k : StepKind) (sk : StreamKind) (e : Entry) : State :=
  ((({ State.reset with engine := .running } : State).setSlot 0 (.job (twofoldJob k))).setPort .A
    { Port.reset with state := .up, inFlight := [e] }).setTile 0
    { TileEntry.reset with state := .awake, credits := 1, stream := some (halfSentStream sk) }

def putScene : State := twofoldScene .put .put (segmentEntry .pixStart .awaiting)

def emptyWrite : DestWrite := { addr := 0, bytes := [], report := none }

def getScene : State := twofoldScene .get .get (segmentEntry .pixRead (.writing emptyWrite))

/-- In both scenes the stream goes on: its part is still a candidate of the RUNNING job. -/
theorem twofoldScene_facts {k : StepKind} {sk : StreamKind} {e : Entry} :
    (twofoldScene k sk e).job 0 = some (twofoldJob k) ∧ (twofoldJob k).part? 0 = some ⟨0, .candidate, .empty⟩ ∧
    (twofoldJob k).step? = some (streamStep k) ∧ ((twofoldScene k sk e).tile 0).stream = some (halfSentStream sk) :=
  ⟨rfl, rfl, rfl, rfl⟩

theorem ownPartSound_twofoldScene {k : StepKind} {sk : StreamKind} {e : Entry} (hown : e.owner = .job 0 0) (htile : e.tile = 0)
    (hkind : (streamStep k).kind.isStream = true) (h : e.kind.isPixelWrite = true ∨ e.kind = .pixRead) :
    (twofoldScene k sk e).OwnPartSound e := by
  intro i hi j hj q hq
  rw [hown] at hi
  obtain rfl : (0 : SlotNum) = i := Option.some.inj hi
  obtain rfl : twofoldJob k = j := Option.some.inj hj
  rw [htile] at hq
  obtain rfl : (⟨0, .candidate, .empty⟩ : TilePart) = q := Option.some.inj hq
  exact ⟨streamStep k, rfl, rfl, nofun, fun hs => absurd (hs.symm.trans hkind) (by decide), fun _ => h⟩

/-- A success of the segment as the statements have it would leave both tile parts. -/
theorem two_parts_of_segmentSucceeds {k : StepKind} {sk : StreamKind} {e : Entry} {t : State} (htile : e.tile = 0)
    (hkind : k.isStream = true) (h : SegmentSucceeds (twofoldScene k sk e) t e 0) :
    (t.job 0).map (fun j => j.parts.length) = some 2 := by
  obtain ⟨hj, hq, hst, hstream⟩ := twofoldScene_facts (k := k) (sk := sk) (e := e)
  unfold SegmentSucceeds at h
  rw [htile] at h
  have hjob := (h _ hj _ hq _ hst hkind _ hstream rfl).2.2.2 ⟨rfl, .inl rfl⟩
  rw [hjob]
  rfl

theorem quiet_putScene : Quiet putScene := by
  unfold Quiet
  decide +kernel

theorem quiet_getScene : Quiet getScene := by
  unfold Quiet
  decide +kernel

theorem one_part_after_ack : ((ackReceivedEffect .A 0 0 .ok putScene).job 0).map (fun j => j.parts.length) = some 1 := by
  decide +kernel

theorem one_part_after_write :
    ((destinationWriteDoneEffect .A 0 true getScene).job 0).map (fun j => j.parts.length) = some 1 := by
  decide +kernel

/-- Refutes O53: the ACK of the segment, the last packet in flight, takes the draining part off the pending ones though the
stream goes on. -/
theorem not_acksConfirmMirrors : ¬ Obligations.AcksConfirmMirrors := by
  unfold Obligations.AcksConfirmMirrors
  intro h
  obtain ⟨t, hexec, hrest⟩ := h putScene .A 0 0 .ok (segmentEntry .pixStart .awaiting) rfl (by decide) rfl rfl nofun nofun
  have ht : t = ackReceivedEffect .A 0 0 .ok putScene := (Host.Outcome.next.inj ((exec_of_high rfl rfl).symm.trans hexec)).symm
  obtain ⟨-, -, -, -, -, -, -, -, -, -, -, -, -, -, -, -, howner, -⟩ := hrest
  have hsegment := (howner quiet_putScene (ownPartSound_twofoldScene rfl rfl rfl (.inl rfl)) 0 rfl).1 rfl
  have htwo := two_parts_of_segmentSucceeds rfl rfl hsegment
  rw [ht, one_part_after_ack] at htwo
  cases htwo

/-- Refutes O56: the same of a GET segment's destination write. -/
theorem not_destinationWritesEnd : ¬ Obligations.DestinationWritesEnd := by
  unfold Obligations.DestinationWritesEnd
  intro h
  obtain ⟨t, hexec, -, -, -, -, howner⟩ := h.2 getScene .A 0 true (segmentEntry .pixRead (.writing emptyWrite)) emptyWrite rfl
    (by decide) (by decide +kernel) nofun rfl
  have hlive : getScene.accessCut (.destination .A 0) = false := by decide +kernel
  have ht : t = destinationWriteDoneEffect .A 0 true getScene :=
    (Host.Outcome.next.inj ((endOfAccess_of_live rfl hlive _).symm.trans hexec)).symm
  have hsegment := (howner quiet_getScene rfl (ownPartSound_twofoldScene rfl rfl rfl (.inr rfl)) rfl (.inl rfl) 0 _ _ rfl rfl
    rfl).1 rfl rfl
  have htwo := two_parts_of_segmentSucceeds rfl rfl hsegment
  rw [ht, one_part_after_write] at htwo
  cases htwo

end Sys2Proof.Machine
end

section
/-! A transaction that ends with a reply: what every such end does to its port, its tile and its owner, and what the owner's
tile part becomes (R33 to R37, R72, R73, R85, R147, R151). -/

namespace Sys2Proof.Machine

/-! ## The power parts that wait are judged again (R94) -/

section
variable {s : State} {x : TileNum}

/-- The job has a power tile part that waits for `x`, as the end of a power packet looks for one. -/
def Job.powerWaits (x : TileNum) (j : Job) : Bool :=
  match j.step?, j.part? x with
  | some st, some q => st.kind.isPower && decide (q.cond = .waiting)
  | _, _ => false

def State.powerWaits (s : State) (x : TileNum) (i : SlotNum) : Bool :=
  match s.job i with
  | some j => j.powerWaits x
  | none => false

theorem State.rejudgePowerWaits_eq (s : State) (x : TileNum) : s.rejudgePowerWaits x =
    allSlots.foldl (fun s i => if s.powerWaits x i then s.rejudgePart i x else s) s := by
  unfold State.rejudgePowerWaits
  refine congrFun (congrFun (congrArg List.foldl (funext fun u => funext fun i => ?_)) s) allSlots
  split
  · next hj =>
    have hw : u.powerWaits x i = false := by unfold State.powerWaits; rw [hj]
    rw [hw]
    rfl
  · next j hj =>
    have hw : u.powerWaits x i = j.powerWaits x := by unfold State.powerWaits; rw [hj]
    rw [hw]
    split
    · next st q hst hq =>
      have hj' : j.powerWaits x = (st.kind.isPower && decide (q.cond = .waiting)) := by unfold Job.powerWaits; rw [hst, hq]
      rw [hj']
      simp
    · next hnone =>
      have hj' : j.powerWaits x = false := by
        unfold Job.powerWaits
        split
        · next st q hst hq => exact absurd hq (hnone st q hst)
        · rfl
      rw [hj']
      rfl

theorem Job.powerWaits_eq_false {j : Job} (h : ∀ q, j.part? x = some q → q.cond ≠ .waiting) : j.powerWaits x = false := by
  unfold Job.powerWaits
  cases j.step? with
  | none => rfl
  | some st =>
    cases hq : j.part? x with
    | none => rfl
    | some q => simp [h q hq]

/-- A job without such a part is left as it is. -/
theorem State.job_rejudgePowerWaits {i : SlotNum} {j : Job} (hj : s.job i = some j) (h : j.powerWaits x = false) :
    (s.rejudgePowerWaits x).job i = some j := by
  rw [State.rejudgePowerWaits_eq]
  refine foldl_preserves (P := fun u => u.job i = some j) (fun u k hu => ?_) _ hj
  split
  · next hw =>
    by_cases hk : k = i
    · subst hk
      unfold State.powerWaits at hw
      rw [hu] at hw
      exact absurd (h.symm.trans hw) Bool.false_ne_true
    · exact (State.job_of_slot ((u.slot_rejudgePart k i x).trans (if_neg hk))).trans hu
  · exact hu

theorem State.rejudgePowerWaits_eq_self (h : ∀ i j, s.job i = some j → j.phase = .running → j.powerWaits x = false) :
    s.rejudgePowerWaits x = s := by
  rw [State.rejudgePowerWaits_eq]
  refine foldl_preserves (P := fun u => u = s) (fun u k hu => ?_) _ rfl
  subst hu
  split
  · next hw =>
    refine State.rejudgePart_eq_self (h := fun j hj hrun => ?_)
    unfold State.powerWaits at hw
    rw [hj] at hw
    exact absurd ((h k j hj (Phase.isRunning_iff.1 hrun)).symm.trans hw) Bool.false_ne_true
  · rfl

end

/-! ## The end of the entry -/

section
variable {s u : State} {p : PortId} {e : Entry}

theorem hasInFlight_of_port {s t : State} {x : TileNum} (h : t.port (portOf x) = s.port (portOf x)) (i : SlotNum) :
    t.hasInFlight i x = s.hasInFlight i x := by
  unfold State.hasInFlight
  rw [h]

theorem State.hasInFlight_replied (hnodup : ((s.port p).inFlight.map fun e => e.tag).Nodup) (hmem : e ∈ (s.port p).inFlight)
    (i : SlotNum) {y : TileNum} (hy : y ≠ e.tile) : (s.replied p e).hasInFlight i y = s.hasInFlight i y := by
  by_cases hport : portOf y = p
  · unfold State.hasInFlight
    rw [hport, State.port_replied, Bool.eq_iff_iff, List.any_eq_true, List.any_eq_true]
    refine exists_congr fun f => ⟨fun ⟨hf, h⟩ => ⟨(List.mem_filter.1 hf).1, h⟩, fun ⟨hf, h⟩ => ⟨?_, h⟩⟩
    refine List.mem_filter.2 ⟨hf, decide_eq_true fun htag => hy ?_⟩
    rw [Bool.and_eq_true, decide_eq_true_eq] at h
    rw [← h.1, List.inj_on_of_nodup_map hnodup hf hmem htag]
  · exact hasInFlight_of_port (State.port_replied_ne hport) i

theorem State.hasInFlight_replied_last {i : SlotNum} (hport : portOf e.tile = p) (h : ¬ s.HasMore e i e.tile) :
    (s.replied p e).hasInFlight i e.tile = false := by
  unfold State.hasInFlight
  rw [hport, State.port_replied, List.any_eq_false]
  intro f hf hmine
  obtain ⟨hf, htag⟩ := List.mem_filter.1 hf
  rw [Bool.and_eq_true, decide_eq_true_eq, decide_eq_true_eq] at hmine
  exact h ⟨f, by rw [hport]; exact hf, of_decide_eq_true htag, hmine⟩

theorem State.job_replied {i : SlotNum} {j : Job} (hown : e.owner.slot? = some i) (hj : s.job i = some j) :
    (s.replied p e).job i = some { j with outstanding := j.outstanding - 1 } :=
  State.job_of_mapSlot ((State.slot_replied i).trans (if_pos hown)) hj

theorem State.lasting_replied (x : TileNum) : ((s.replied p e).tile x).lasting = (s.tile x).lasting := by
  rw [State.tile_replied]
  split <;> rfl

/-- Whatever work on the tile and the jobs follows the end of the entry, the transaction has ended. -/
theorem transactionEnded_finish (h : TileFrame e.tile (s.replied p e) u) :
    TransactionEnded s (finish s u) p e e.writeUnderWay := by
  have hframe := finish_frame s u
  have hbody : (finish s u).body = s.body := hframe.body.trans (h.body.trans State.body_replied)
  have hport (q : PortId) : (finish s u).port q = (s.replied p e).port q := (hframe.port q).trans (h.port q)
  have htile := State.tile_replied (s := s) (p := p) (e := e) e.tile
  rw [if_pos rfl] at htile
  refine ⟨(hport p).trans State.port_replied, fun q hq => (hport q).trans (State.port_replied_ne hq), ?_, ?_,
    fun x hx => ?_, fun hfatal i j hown hj => ?_, State.engine_of_body hbody, State.fault_of_body hbody,
    State.walkerN_of_body hbody, State.walkerP_of_body hbody, State.now_of_body hbody, State.settings_of_body hbody,
    State.wakeHistory_of_body hbody⟩
  · exact (congrArg TileEntry.credits (hframe.tile e.tile) :).trans (h.credits.trans (congrArg TileEntry.credits htile))
  · refine (congrArg TileEntry.configInFlight (hframe.tile e.tile) :).trans
      ((h.config.trans (congrArg TileEntry.configInFlight htile)).trans ?_)
    cases e.kind.isConfig <;> rfl
  · rw [hframe.tile x, h.other x hx, State.tile_replied, if_neg hx.symm]
  · have hslot : (u.slot i).erase = ((s.replied p e).slot i).erase :=
      h.slot ((State.fatal_of_body State.body_replied).trans hfatal) i
    have hfatal' : u.fatal = false := (State.fatal_of_body (h.body.trans State.body_replied)).trans hfatal
    obtain ⟨j', hj', hidn⟩ := Slot.job_of_erase ((hframe.slot hfatal' i).trans hslot) (State.job_replied hown hj)
    exact ⟨j', hj', (congrArg Job.outstanding hidn :)⟩

end
end Sys2Proof.Machine
end

section
/-! What the owner's tile part becomes when its transaction ends with a reply, and the end by an ACK (R16, R33 to R37, R85, R92,
R150, R151). -/

namespace Sys2Proof.Machine

/-! ## A part that leaves, or fails, with the end of its entry -/

theorem job_rejudgeChanged_of_rest {before u : State} {x : TileNum} {i : SlotNum} {j : Job}
    (hstates : ∀ y, y ≠ x → (before.tile y).state = (u.tile y).state) (hj : u.job i = some j) (hrest : j.AtRestOn x) :
    (State.rejudgeChanged before u).job i = some j := by
  obtain ⟨k, hk, rfl⟩ := job_rejudgeChanged_keeps (before := before) (P := fun k => k = j) hj rfl fun k y v hy hk => by
    subst hk
    by_cases hx : y = x
    · subst hx
      exact hrest.rejudge_eq_self v
    · exact absurd (hstates y hx) hy
  exact hk

theorem Job.resolve_drops {j : Job} {f g : TileNum → Bool} {x : TileNum} {n : Nat} (hset : j.Settled f)
    (hg : ∀ y, y ≠ x → g y = f y) (hx : g x = false) (hall : ∀ q ∈ j.parts, q.tile = x → q.cond.hasFailed = true) :
    ({ j with outstanding := n } : Job).resolve g =
      { j with parts := j.parts.filter fun q => decide (q.tile ≠ x), outstanding := n } := by
  have hlow : lowestFailing j.parts = none := lowestFailing_eq_none hset.not_failing
  have hcount : ({ j with outstanding := n } : Job).countFailures g = { j with outstanding := n } := by
    unfold Job.countFailures
    rw [hlow]
    cases j.phase.isRunning <;> rfl
  unfold Job.resolve
  rw [hcount]
  unfold Job.tidy
  refine congrArg (fun ps => ({ j with parts := ps, outstanding := n } : Job)) ?_
  rw [← List.filterMap_eq_filter]
  refine List.filterMap_congr fun q hq => ?_
  by_cases hqx : q.tile = x
  · unfold settlePart
    rw [hqx, if_pos (hall q hq hqx), hx]
    simp [Option.guard, hqx]
  · have hguard : Option.guard (fun r : TilePart => decide (r.tile ≠ x)) q = some q := by simp [Option.guard, hqx]
    rw [hguard]
    unfold settlePart
    split
    · next hfail =>
      obtain ⟨hcond, hstaging, hflight⟩ := hset q hq hfail
      rw [if_pos ((hg _ hqx).trans hflight), ← hcond, ← hstaging]
    · rfl

section
variable {s u : State} {p : PortId} {e : Entry} {i : SlotNum}

/-- `u` is the state in which the entry `e`, one of port `p` with a tag of its own, has ended, and its tile and the jobs have
been worked on. -/
structure Replied (s : State) (p : PortId) (e : Entry) (u : State) : Prop where
  frame : TileFrame e.tile (s.replied p e) u
  nodup : ((s.port p).inFlight.map fun e => e.tag).Nodup
  mem : e ∈ (s.port p).inFlight

theorem Replied.body (h : Replied s p e u) : u.body = s.body := h.frame.body.trans State.body_replied

theorem Replied.fatal (h : Replied s p e u) : u.fatal = s.fatal := State.fatal_of_body h.body

theorem Replied.states (h : Replied s p e u) (y : TileNum) (hy : y ≠ e.tile) : (s.tile y).state = (u.tile y).state := by
  have hwork := h.frame.other y hy
  exact (State.state_replied (p := p) (e := e) y).symm.trans (congrArg TileEntry.state hwork :).symm

theorem Replied.hasInFlight (h : Replied s p e u) (i : SlotNum) (y : TileNum) (hy : y ≠ e.tile) :
    u.hasInFlight i y = s.hasInFlight i y :=
  (hasInFlight_of_port (h.frame.port _) i).trans (State.hasInFlight_replied h.nodup h.mem i hy)

theorem Replied.hasInFlight_last (h : Replied s p e u) (hport : portOf e.tile = p) (hmore : ¬ s.HasMore e i e.tile) :
    u.hasInFlight i e.tile = false :=
  (hasInFlight_of_port (h.frame.port _) i).trans (State.hasInFlight_replied_last hport hmore)

theorem Replied.partLeaves (h : Replied s p e u) (hq : Quiet s) (hjob : ∀ j, s.job i = some j → u.job i =
    some { j with parts := j.parts.filter fun q => decide (q.tile ≠ e.tile), outstanding := j.outstanding - 1 }) :
    PartLeaves s (finish s u) i e.tile 1 := by
  refine partLeaves_finish hq h.fatal fun j hj => resolved_of_leaves hq (h.hasInFlight i) hj ?_
  refine job_rejudgeChanged_of_rest h.states (hjob j hj) (.of_none ?_)
  exact List.find?_eq_none.2 fun q hq => by simpa using (List.mem_filter.1 hq).2

/-- A part that has failed before leaves with its last transaction (R34). -/
theorem Replied.partLeaves_failed (h : Replied s p e u) (hq : Quiet s) (hport : portOf e.tile = p)
    (hmore : ¬ s.HasMore e i e.tile) (hall : ∀ j, s.job i = some j → ∀ q ∈ j.parts, q.tile = e.tile → q.cond.hasFailed = true)
    (hjob : ∀ j, s.job i = some j → u.job i = some { j with outstanding := j.outstanding - 1 }) :
    PartLeaves s (finish s u) i e.tile 1 := by
  refine partLeaves_finish hq h.fatal fun j hj => ?_
  have hrest : ({ j with outstanding := j.outstanding - 1 } : Job).AtRestOn e.tile := fun _ q hpart =>
    have ⟨hmem, htile⟩ := Job.mem_of_part? hpart
    hall j hj q hmem htile
  rw [job_resolved (job_rejudgeChanged_of_rest h.states (hjob j hj) hrest)]
  exact congrArg some (Job.resolve_drops (hq.settled i j hj) (h.hasInFlight i) (h.hasInFlight_last hport hmore) (hall j hj))

theorem Replied.partFails (h : Replied s p e u) (hq : Quiet s) {c : ErrorCode} (hjob : ∀ j, s.job i = some j → u.job i =
    some (({ j with outstanding := j.outstanding - 1 } : Job).failPart e.tile c)) : PartFails s (finish s u) i e.tile c := by
  refine partFails_finish hq h.fatal (h.hasInFlight i) fun j q hj _ _ _ => ⟨j.outstanding - 1, ?_⟩
  exact job_rejudgeChanged_of_rest h.states (hjob j hj) (Job.atRestOn_failPart _ _ _)

end
end Sys2Proof.Machine
end

section
/-! The end of a transaction by an ACK: the tile takes the reply, the power parts that wait are judged again, and the owner is
told (R16, R33 to R37, R85, R92, R94, R150, R151). -/

namespace Sys2Proof.Machine

/-- The entry has ended and its tile has taken the reply (R151, step 2). -/
def State.ackApplied (s : State) (p : PortId) (e : Entry) (failure : Option ErrorCode) (nochange : Bool) : State :=
  match failure with
  | some c => (s.replied p e).setError e.tile c
  | none => (s.replied p e).applyAck e nochange

/-- And the power parts that wait have been judged again: what is left is to tell the owner. -/
def State.ackWorked (s : State) (p : PortId) (e : Entry) (failure : Option ErrorCode) (nochange : Bool) : State :=
  if e.kind.isPower then (s.ackApplied p e failure nochange).rejudgePowerWaits e.tile else s.ackApplied p e failure nochange

section
variable {s : State} {p : PortId} {e : Entry} {failure : Option ErrorCode} {n : Bool} {i : SlotNum} {j : Job}

theorem State.endWithAck_eq :
    (s.keepOlderWrite p e).endWithAck p e failure n = (s.ackWorked p e failure n).tellOwner e failure := rfl

theorem State.ackApplied_frame : TileFrame e.tile (s.replied p e) (s.ackApplied p e failure n) := by
  unfold State.ackApplied
  cases failure with
  | some c => exact TileFrame.ofJob ((s.replied p e).setError_frame e.tile c)
  | none => exact (s.replied p e).applyAck_frame e n

theorem State.ackWorked_job_frame : JobFrame (s.ackApplied p e failure n) (s.ackWorked p e failure n) := by
  unfold State.ackWorked
  split
  · exact State.rejudgePowerWaits_frame _ _
  · exact JobFrame.refl _

theorem State.ackWorked_frame : TileFrame e.tile (s.replied p e) (s.ackWorked p e failure n) :=
  State.ackApplied_frame.trans (TileFrame.ofJob State.ackWorked_job_frame)

theorem State.ackTold_frame : TileFrame e.tile (s.replied p e) ((s.ackWorked p e failure n).tellOwner e failure) :=
  State.ackWorked_frame.trans (TileFrame.ofJob (State.tellOwner_frame _ e failure))

theorem State.ackTold_job_frame : JobFrame (s.ackApplied p e failure n) ((s.ackWorked p e failure n).tellOwner e failure) :=
  State.ackWorked_job_frame.trans (State.tellOwner_frame _ e failure)

theorem replied_ackTold (hnodup : ((s.port p).inFlight.map fun e => e.tag).Nodup) (hmem : e ∈ (s.port p).inFlight) :
    Replied s p e ((s.ackWorked p e failure n).tellOwner e failure) :=
  ⟨State.ackTold_frame, hnodup, hmem⟩

/-! ## The owner's job before it is told -/

theorem State.job_windowChanged (s : State) (x : TileNum) (i : SlotNum) : (s.windowChanged x (some i)).job i = s.job i := by
  unfold State.windowChanged
  split
  · split
    · rfl
    · next hne => exact State.job_of_slot ((s.slot_failPart _ i x _).trans (if_neg fun h => hne (congrArg some h.symm)))
  · rfl

theorem State.job_applyAck (hown : e.owner.slot? = some i) : (s.applyAck e n).job i = s.job i := by
  unfold State.applyAck
  cases e.kind
  case window => rw [hown]; exact State.job_windowChanged _ _ i
  all_goals rfl

theorem State.job_ackApplied (hown : e.owner.slot? = some i) (hj : s.job i = some j) :
    (s.ackApplied p e failure n).job i = some { j with outstanding := j.outstanding - 1 } := by
  refine Eq.trans ?_ (State.job_replied (p := p) hown hj)
  unfold State.ackApplied
  cases failure with
  | some c => rfl
  | none => exact State.job_applyAck hown

theorem State.job_ackWorked (hown : e.owner.slot? = some i) (hj : s.job i = some j) (hwait : j.powerWaits e.tile = false) :
    (s.ackWorked p e failure n).job i = some { j with outstanding := j.outstanding - 1 } := by
  unfold State.ackWorked
  split
  · exact State.job_rejudgePowerWaits (State.job_ackApplied hown hj) hwait
  · exact State.job_ackApplied hown hj

/-- A failure of the owner's part, once the owner is told. -/
theorem State.job_ackFailed {c : ErrorCode} (hown : e.owner.slot? = some i) (hj : s.job i = some j)
    (hwait : j.powerWaits e.tile = false) : ((s.ackWorked p e (some c) n).tellOwner e (some c)).job i =
      some (({ j with outstanding := j.outstanding - 1 } : Job).failPart e.tile c) :=
  State.job_of_mapSlot ((State.slot_tellOwner_failure _ e c i).trans (if_pos hown)) (State.job_ackWorked hown hj hwait)

/-! ## The tile -/

theorem lasting_ackFailed {c : ErrorCode} (before : State) : ((finish before
    ((s.ackWorked p e (some c) n).tellOwner e (some c))).tile e.tile).lasting = (s.tile e.tile).lasting := by
  have hframe := (EventFrame.ofJob (State.ackTold_job_frame (s := s) (p := p) (e := e) (failure := some c) (n := n))).trans
    (finish_frame before _)
  refine (hframe.lasting _).trans (Eq.trans ?_ (State.lasting_replied (p := p) (e := e) e.tile))
  exact TileEntry.lasting_of_eraseWork (((s.replied p e).setError_frame e.tile c).tile e.tile)

end

/-! ## What the owner's part is, when the premises hold -/

section
variable {s : State} {p : PortId} {e : Entry} {n : Bool} {i : SlotNum} {j : Job} {q : TilePart} {c : ErrorCode}

theorem State.OwnPartSound.powerWaits (h : s.OwnPartSound e) (hown : e.owner.slot? = some i) (hj : s.job i = some j) :
    j.powerWaits e.tile = false :=
  Job.powerWaits_eq_false fun q hq =>
    have ⟨_, _, _, hwait, _⟩ := h i hown j hj q hq
    hwait

theorem State.Undisturbed.no_powerWaits (hun : s.Undisturbed e.tile e.owner.slot?) (hsound : s.OwnPartSound e) {k : SlotNum}
    {m : Job} (hm : s.job k = some m) (hrun : m.phase = .running) : m.powerWaits e.tile = false := by
  by_cases hown : e.owner.slot? = some k
  · exact hsound.powerWaits hown hm
  · refine Job.powerWaits_eq_false fun q hq => ?_
    obtain ⟨hmem, htile⟩ := Job.mem_of_part? hq
    exact absurd htile ((hun k m hm (Phase.isRunning_iff.2 hrun)).1 hown q hmem)

theorem Job.powerWaits_of_frame {j k : Job} {x : TileNum} (hframe : k.frame = j.frame) (hparts : k.parts = j.parts) :
    k.powerWaits x = j.powerWaits x := by
  unfold Job.powerWaits Job.part?
  rw [Job.step?_of_frame hframe, hparts]

/-- With no other work on the tile no power part waits there. -/
theorem State.ackWorked_eq_of_undisturbed (hun : s.Undisturbed e.tile e.owner.slot?) (hsound : s.OwnPartSound e) :
    s.ackWorked p e (some c) n = (s.replied p e).setError e.tile c := by
  unfold State.ackWorked
  split
  · refine State.rejudgePowerWaits_eq_self fun k m hm hrun => ?_
    obtain ⟨j, hj, hframe, hparts⟩ := State.job_of_replied (p := p) (e := e) hm
    rw [Job.powerWaits_of_frame hframe hparts]
    exact hun.no_powerWaits hsound hj ((Job.phase_of_frame hframe).symm.trans hrun)
  · rfl

theorem State.follows_ackFailed (u : State) (hu : u = ((s.replied p e).setError e.tile c).tellOwner e (some c)) :
    s.Follows u e.tile e.owner.slot? := by
  intro k m hm
  have hslot := State.slot_tellOwner_failure ((s.replied p e).setError e.tile c) e c k
  rw [← hu] at hslot
  unfold State.job at hm
  rw [hslot] at hm
  split at hm
  · rw [Slot.job?_mapJob, Option.map_eq_some_iff] at hm
    obtain ⟨m', hm', rfl⟩ := hm
    obtain ⟨j, hj, hframe, hparts⟩ := State.job_of_replied (p := p) (e := e) hm'
    refine ⟨j, hj, (Job.frame_failPart _ _ _).trans hframe, fun y hy => ?_, fun _ => Job.atRestOn_failPart _ _ _⟩
    rw [Job.partTiles_failPart] at hy
    unfold Job.partTiles at hy ⊢
    rwa [hparts] at hy
  · next hown =>
    obtain ⟨j, hj, hframe, hparts⟩ := State.job_of_replied (p := p) (e := e) hm
    refine ⟨j, hj, hframe, fun y hy => ?_, fun h => absurd h hown⟩
    unfold Job.partTiles at hy ⊢
    rwa [hparts] at hy

/-- The tile's last error after the failure of its owner's part (R16). -/
theorem lastError_ackFailed (before : State) (hmarks : c.marksTile = true) (hun : s.Undisturbed e.tile e.owner.slot?)
    (hsound : s.OwnPartSound e) :
    ((finish before ((s.ackWorked p e (some c) n).tellOwner e (some c))).tile e.tile).lastError = some c := by
  rw [State.ackWorked_eq_of_undisturbed hun hsound, lastError_finish_of_follows before (State.follows_ackFailed _ rfl) hun]
  have hset : (((s.replied p e).setError e.tile c).tile e.tile).lastError = some c := by
    rw [State.tile_setError, if_pos rfl]
  unfold State.tellOwner
  cases e.owner.slot? with
  | none => exact hset
  | some i =>
    dsimp only
    by_cases hcan : ((s.replied p e).setError e.tile c).CanFail i e.tile
    · rw [State.tile_failPart hcan]
      exact TileEntry.lastError_failed hmarks i _
    · rw [State.failPart_eq_self hcan]
      exact hset

/-- The end of a transaction by a reply that fails its owner's part, whole: what the statements ask of a REJECT, and of DATA of
the wrong kind or length (R151). -/
theorem ackFailed_partFails (hnodup : ((s.port p).inFlight.map fun e => e.tag).Nodup) (hmem : e ∈ (s.port p).inFlight)
    (hq : Quiet s) (hsound : s.OwnPartSound e) (hown : e.owner.slot? = some i) :
    PartFails s (finish s ((s.ackWorked p e (some c) n).tellOwner e (some c))) i e.tile c :=
  (replied_ackTold hnodup hmem).partFails hq fun _ hj => State.job_ackFailed hown hj (hsound.powerWaits hown hj)

end
end Sys2Proof.Machine
end

section
/-! An ACK with success: the owner's part completes, or waits for its tile to become AWAKE (R33, R92, R151). -/

namespace Sys2Proof.Machine

section
variable {s w : State} {p : PortId} {e : Entry} {n : Bool} {i : SlotNum} {j : Job} {q : TilePart} {st : Step} {x : TileNum}

/-! ## A part that completes -/

/-- Success of these kinds completes the owner's part (R33). -/
def PacketKind.completesPart (k : PacketKind) : Bool :=
  !k.isPixelWrite && decide (k ≠ .pixRead) && decide (k ≠ .wake)

theorem State.tellOwner_completes (hown : e.owner.slot? = some i) (hkind : e.kind.completesPart = true) :
    w.tellOwner e none = w.completePart i e.tile := by
  unfold State.tellOwner
  rw [hown]
  cases hk : e.kind
  case wake | pixStart | pixMore | pixSeek | pixRead => rw [hk] at hkind; cases hkind
  all_goals rfl

theorem State.job_completePart (hj : s.job i = some j) : (s.completePart i x).job i = some (j.completePart x) :=
  State.job_of_mapSlot ((State.slot_completePart s i i x).trans (if_pos rfl)) hj

theorem Job.completePart_part (hpart : j.part? x = some q) (hfail : q.cond.hasFailed = false) :
    j.completePart x = { j with parts := j.parts.filter fun q => decide (q.tile ≠ x) } := by
  unfold Job.completePart
  rw [hpart]
  dsimp only
  rw [hfail, if_neg Bool.false_ne_true]
  rfl

theorem Job.completePart_failed (h : ∀ q, j.part? x = some q → q.cond.hasFailed = true) : j.completePart x = j := by
  unfold Job.completePart
  split
  · rfl
  · next q hq => rw [h q hq, if_pos rfl]

/-! ## A WAKE's part waits for its tile -/

theorem State.wakeTold_eq (hj : w.job i = some j) (hrun : j.phase = .running) (hpart : j.part? x = some q)
    (hfail : q.cond.hasFailed = false) (hwaking : (w.tile x).state = .waking) :
    w.wakeTold i x = w.setSlot i (.job (j.setPart x fun q => { q with cond := .joined })) := by
  unfold State.wakeTold
  rw [hj]
  dsimp only
  rw [hpart]
  dsimp only
  rw [hfail, if_neg Bool.false_ne_true, Phase.isRunning_iff.2 hrun, if_pos rfl, hwaking]
  unfold State.modJob
  rw [hj]
  rfl

theorem State.wakeTold_failed (hj : w.job i = some j) (hfail : ∀ q, j.part? x = some q → q.cond.hasFailed = true) :
    w.wakeTold i x = w := by
  unfold State.wakeTold
  rw [hj]
  dsimp only
  split
  · rfl
  · next q hq => exact if_pos (hfail q hq)

theorem State.streamTold_failed (hj : w.job i = some j) (hfail : ∀ q, j.part? x = some q → q.cond.hasFailed = true) :
    w.streamTold i x = w := by
  unfold State.streamTold
  rw [hj]
  split
  · next j' r hj' hr =>
    obtain rfl := Option.some.inj hj'
    split
    · next sp q hst hq =>
      refine if_neg fun h => ?_
      have hf := hfail q hq
      rw [h.1] at hf
      cases hf
    · rfl
  · rfl

/-- A part that has failed is told nothing. -/
theorem State.job_tellOwner_failed (hown : e.owner.slot? = some i) (hj : w.job i = some j)
    (hfail : ∀ q, j.part? e.tile = some q → q.cond.hasFailed = true) (failure : Option ErrorCode) :
    (w.tellOwner e failure).job i = some j := by
  unfold State.tellOwner
  rw [hown]
  cases failure with
  | some c =>
    have hcan : ¬ w.CanFail i e.tile := by
      rintro ⟨k, q, hk, hq, hnot⟩
      obtain rfl := Option.some.inj (hj.symm.trans hk)
      rw [hfail q hq] at hnot
      cases hnot
    dsimp only
    rw [State.failPart_eq_self hcan]
    exact hj
  | none =>
    dsimp only
    split
    · rw [State.wakeTold_failed hj hfail]
      exact hj
    iterate 4
      · rw [State.streamTold_failed hj hfail]
        exact hj
    · rw [State.job_completePart hj, Job.completePart_failed hfail]

theorem TileEntry.wakeAcked_asleep {r : TileEntry} (h : r.state = .asleep) (now : Word) (set : Settings) (n : Bool) :
    r.wakeAcked now set n = ({ r.enter now .waking with
      wakeAck := some now, settleDue := some (plusMs now set.settleMs), readyDue := some (plusMs now set.readyMs),
      minAwakeOpen := false, readyOpen := false }).mismatch n := if_pos h

theorem TileEntry.eraseWork_mismatch (r : TileEntry) (b : Bool) : (r.mismatch b).eraseWork = r.eraseWork := by
  unfold TileEntry.mismatch
  split <;> rfl

theorem TileEntry.state_of_eraseWork {a b : TileEntry} (h : a.eraseWork = b.eraseWork) : a.state = b.state :=
  (congrArg TileEntry.state h :)

theorem State.tile_applyAck_wake (hkind : e.kind = .wake) :
    (s.applyAck e n).tile e.tile = (s.tile e.tile).wakeAcked s.now s.settings n := by
  unfold State.applyAck
  rw [hkind]
  exact State.tile_modTile_self _ _ _

theorem state_ackTold_wake (hkind : e.kind = .wake) (hasleep : (s.tile e.tile).state = .asleep) :
    ((s.ackWorked p e none n).tile e.tile).state = .waking := by
  rw [State.ackWorked_job_frame.state]
  have htile : (s.ackApplied p e none n).tile e.tile = _ := State.tile_applyAck_wake (s := s.replied p e) hkind
  rw [htile, TileEntry.wakeAcked_asleep ((State.state_replied _).trans hasleep),
    TileEntry.state_of_eraseWork (TileEntry.eraseWork_mismatch _ n)]
  exact TileEntry.enter_state ..

theorem Job.setPart_setPart (f g : TilePart → TilePart) (hf : ∀ q, (f q).tile = q.tile) :
    (j.setPart x f).setPart x g = j.setPart x fun q => g (f q) := by
  unfold Job.setPart
  refine congrArg (fun ps => { j with parts := ps }) ?_
  rw [List.map_map]
  refine List.map_congr_left fun r _ => ?_
  by_cases hr : r.tile = x
  · simp only [Function.comp, if_pos hr, hf]
  · simp only [Function.comp, if_neg hr]

/-- A joined part judged joined again is joined, with its staging empty. -/
theorem Job.rejudge_joined (hrun : j.phase = .running) (hst : j.step? = some st) (hpart : j.part? x = some q)
    {v : Step → Verdict} (hv : v st = .joined) : (j.setPart x fun q => { q with cond := .joined }).rejudge x v =
      j.setPart x fun q => { q with cond := .joined, staging := .empty } := by
  have hpart' : (j.setPart x fun q => { q with cond := .joined }).part? x = some { q with cond := .joined } := by
    rw [Job.part?_setPart (f := fun q => { q with cond := .joined }) (fun _ => rfl), if_pos rfl, hpart]
    rfl
  rw [Job.rejudge_pending (j := j.setPart x fun q => { q with cond := .joined }) hrun hst hpart' (.inr rfl), hv]
  exact Job.setPart_setPart (fun q => { q with cond := .joined }) (fun q => { q with cond := .joined, staging := .empty })
    fun _ => rfl

/-- A WAKE's part on a WAKING tile, with no power packet in flight, is judged joined (R94). -/
theorem State.judge_wake_waking (hkind : st.kind = .wake) (hwaking : (s.tile x).state = .waking)
    (hpower : s.powerInFlight x = false) : s.judge st x = .joined := by
  have hcheck : entryCheck (s.tile x) st = none := by
    rw [entryCheck_present (by rw [hwaking]; nofun) (by rw [hwaking]; nofun) (by rw [hwaking]; nofun),
      operandsFit_iff.2 (OperandsFit.wake hkind)]
    exact if_neg nofun
  rw [State.judge_of_none hcheck, hpower, Bool.and_false, if_neg Bool.false_ne_true, hkind, hwaking]
  rfl

theorem StepKind.wake_of_packet {k : StepKind} (h : k.packet = .wake) : k = .wake := by
  cases k <;> first | rfl | cases h

/-- The part's step is a WAKE when the entry is. -/
theorem State.OwnPartSound.wake (h : s.OwnPartSound e) (hkind : e.kind = .wake) (hown : e.owner.slot? = some i)
    (hj : s.job i = some j) (hpart : j.part? e.tile = some q) : ∃ st, j.step? = some st ∧ st.kind = .wake := by
  obtain ⟨st, hst, -, -, hsetting, hstream⟩ := h i hown j hj q hpart
  refine ⟨st, hst, ?_⟩
  cases hs : st.kind.isStream with
  | false => exact StepKind.wake_of_packet ((hsetting hs).trans hkind)
  | true => rcases hstream hs with h | h <;> rw [hkind] at h <;> cases h

/-- The owner of a WAKE acknowledged with success on an ASLEEP tile waits for it to become AWAKE (R33, R92). -/
theorem job_finish_wakeAcked (hnodup : ((s.port p).inFlight.map fun e => e.tag).Nodup) (hmem : e ∈ (s.port p).inFlight)
    (hport : portOf e.tile = p) (hq : Quiet s) (hsound : s.OwnPartSound e) (hkind : e.kind = .wake)
    (hasleep : (s.tile e.tile).state = .asleep) (hown : e.owner.slot? = some i) (hj : s.job i = some j)
    (hrun : j.phase = .running) (hpart : j.part? e.tile = some q)
    (hpower : ∀ f ∈ (s.port p).inFlight, f.tag ≠ e.tag → f.tile = e.tile → f.kind ≠ .wake ∧ f.kind ≠ .sleep) :
    (finish s ((s.ackWorked p e none n).tellOwner e none)).job i =
      some { j.setPart e.tile (fun q => { q with cond := .joined, staging := .empty }) with
        outstanding := j.outstanding - 1 } := by
  obtain ⟨st, hst, hwake⟩ := hsound.wake hkind hown hj hpart
  obtain ⟨-, -, hfail, -⟩ := hsound i hown j hj q hpart
  have hr : Replied s p e ((s.ackWorked p e none n).tellOwner e none) := replied_ackTold hnodup hmem
  have hwjob : (s.ackWorked p e none n).job i = some { j with outstanding := j.outstanding - 1 } :=
    State.job_ackWorked hown hj (hsound.powerWaits hown hj)
  have hwaking : ((s.ackWorked p e none n).tile e.tile).state = .waking := state_ackTold_wake hkind hasleep
  have htold : (s.ackWorked p e none n).tellOwner e none = (s.ackWorked p e none n).wakeTold i e.tile := by
    unfold State.tellOwner
    rw [hown, hkind]
  rw [State.wakeTold_eq hwjob hrun hpart hfail hwaking] at htold
  generalize (s.ackWorked p e none n).tellOwner e none = u at hr htold ⊢
  have hjob : u.job i = some (({ j with outstanding := j.outstanding - 1 } : Job).setPart e.tile fun q =>
      { q with cond := .joined }) := by
    rw [htold, State.job_setSlot, if_pos rfl]
    rfl
  have huwaking : (u.tile e.tile).state = .waking := by
    rw [htold]
    exact hwaking
  have hupower : u.powerInFlight e.tile = false := Bool.eq_false_iff.2 fun h => by
    obtain ⟨f, hf, htile, hk⟩ := State.powerInFlight_iff.1 h
    rw [hport, hr.frame.port, State.port_replied] at hf
    obtain ⟨hf, htag⟩ := List.mem_filter.1 hf
    obtain ⟨hnw, hns⟩ := hpower f hf (of_decide_eq_true htag) htile
    exact hk.elim hnw hns
  have hrejudge := job_rejudgeChanged_one hr.states (by rw [hasleep, huwaking]; nofun) hjob
  rw [Job.rejudge_joined (j := { j with outstanding := j.outstanding - 1 }) hrun hst hpart
    (State.judge_wake_waking hwake huwaking hupower)] at hrejudge
  have hset : (({ j with outstanding := j.outstanding - 1 } : Job).setPart e.tile fun q =>
      { q with cond := .joined, staging := .empty }).Settled (u.hasInFlight i) := by
    intro r hmem' hfail'
    obtain ⟨r', hr', rfl⟩ := List.mem_map.1 hmem'
    by_cases hx : r'.tile = e.tile
    · rw [if_pos hx] at hfail'
      cases hfail'
    · rw [if_neg hx] at hfail' ⊢
      obtain ⟨hcond, hstaging, hflight⟩ := hq.settled i j hj r' hr' hfail'
      exact ⟨hcond, hstaging, (hr.hasInFlight i _ hx).trans hflight⟩
  have hres := job_resolved hrejudge
  rw [Job.resolve_eq_self hset] at hres
  obtain ⟨hover, hengine⟩ := Job.stepOver_of_parts (j := ({ j with outstanding := j.outstanding - 1 } : Job).setPart e.tile
    fun q => { q with cond := .joined, staging := .empty }) hst (by rw [hwake]; rfl) hrun
  refine (job_finish_of_not_over hres (hover.trans ?_) hengine)
  rw [List.isEmpty_eq_false_iff]
  exact List.ne_nil_of_mem (List.mem_map_of_mem (Job.mem_of_part? hpart).1)

/-! ## The end by an ACK -/

/-- The owner's part completes with success (R33). -/
theorem ackTold_partLeaves (hnodup : ((s.port p).inFlight.map fun e => e.tag).Nodup) (hmem : e ∈ (s.port p).inFlight)
    (hq : Quiet s) (hsound : s.OwnPartSound e) (hkind : e.kind.completesPart = true) (hown : e.owner.slot? = some i)
    (hj : s.job i = some j) (hpart : j.part? e.tile = some q) (hfail : q.cond.hasFailed = false) :
    PartLeaves s (finish s ((s.ackWorked p e none n).tellOwner e none)) i e.tile 1 := by
  refine (replied_ackTold hnodup hmem).partLeaves hq fun m hm => ?_
  obtain rfl := Option.some.inj (hj.symm.trans hm)
  rw [State.tellOwner_completes hown hkind,
    State.job_completePart (State.job_ackWorked hown hj (hsound.powerWaits hown hj)),
    Job.completePart_part (j := { j with outstanding := j.outstanding - 1 }) hpart hfail]

/-- A part that has failed leaves with its last transaction, whatever the reply (R34). -/
theorem ackTold_partLeaves_failed {failure : Option ErrorCode} (hnodup : ((s.port p).inFlight.map fun e => e.tag).Nodup)
    (hmem : e ∈ (s.port p).inFlight) (hport : portOf e.tile = p) (hq : Quiet s) (hown : e.owner.slot? = some i)
    (hmore : ¬ s.HasMore e i e.tile)
    (hall : ∀ j, s.job i = some j → ∀ q ∈ j.parts, q.tile = e.tile → q.cond.hasFailed = true) :
    PartLeaves s (finish s ((s.ackWorked p e failure n).tellOwner e failure)) i e.tile 1 := by
  refine (replied_ackTold hnodup hmem).partLeaves_failed hq hport hmore hall fun j hj => ?_
  have hfail (q : TilePart) (hpart : j.part? e.tile = some q) : q.cond.hasFailed = true :=
    have ⟨hmem', htile⟩ := Job.mem_of_part? hpart
    hall j hj q hmem' htile
  refine State.job_tellOwner_failed hown (State.job_ackWorked hown hj (Job.powerWaits_eq_false fun q hpart hwait => ?_)) hfail failure
  have hf := hfail q hpart
  rw [hwait] at hf
  cases hf

theorem ackFailure_eq_some {k : PacketKind} {st : AckStatus} (h : st = .reject ∨ k.wantsData = true) :
    ackFailure k st = some .tileReject := by
  unfold ackFailure
  by_cases hk : k.wantsData = true
  · rw [if_pos hk]
  · rw [if_neg hk, h.resolve_right hk]

theorem ackFailure_eq_none {k : PacketKind} {st : AckStatus} (hst : st ≠ .reject) (hk : k.wantsData = false) :
    ackFailure k st = none := by
  unfold ackFailure
  rw [hk, if_neg Bool.false_ne_true]
  cases st with
  | reject => exact absurd rfl hst
  | ok => rfl
  | nochange => rfl

/-- What an ACK to a packet that is no PROBE leaves. -/
theorem ackReceivedEffect_eq {d : Position} {tag : Tag} {st : AckStatus} (hreceives : (s.port p).receives = true)
    (hmatch : (s.port p).matching tag (tileOf p d) = some e) (hkind : e.kind ≠ .probe) :
    ackReceivedEffect p d tag st s = finish s ((s.ackWorked p e (ackFailure e.kind st)
      (decide (st = .nochange))).tellOwner e (ackFailure e.kind st)) := by
  unfold ackReceivedEffect
  rw [if_pos hreceives, hmatch]
  exact if_neg hkind

end

/-- Settles O52. -/
theorem acksEndTransactions : Obligations.AcksEndTransactions := by
  unfold Obligations.AcksEndTransactions
  intro s p d tag st e hlow hnodup hreceives hmatch hkind
  obtain ⟨hmem, -, htile⟩ := Port.matching_spec hmatch
  have hport : portOf e.tile = p := by rw [htile, portOf_tileOf]
  have hexec : exec (.ackReceived p d tag st) s = .next (ackReceivedEffect p d tag st s) := exec_of_high hlow rfl
  rw [ackReceivedEffect_eq hreceives hmatch hkind] at hexec
  refine ⟨_, hexec, transactionEnded_finish State.ackTold_frame, fun hrej => ?_,
    fun hrej hq hun hsound => ?_, fun hq hsound i j q hown hj hpart =>
    ⟨fun hst hdata hpixel hwake hfail => ?_, fun hst hwake hasleep hrun _ hpower => ?_, fun hrej => ?_⟩,
    fun hq i j hown hj _ hall hmore => ?_⟩
  · rw [ackFailure_eq_some (.inl hrej)]
    exact lasting_ackFailed s
  · rw [ackFailure_eq_some hrej]
    exact lastError_ackFailed s rfl hun hsound
  · rw [ackFailure_eq_none hst hdata]
    refine ackTold_partLeaves hnodup hmem hq hsound ?_ hown hj hpart hfail
    have hread : e.kind ≠ .pixRead := fun h => by
      rw [h] at hdata
      cases hdata
    unfold PacketKind.completesPart
    rw [hpixel, decide_eq_true hwake, decide_eq_true hread]
    rfl
  · rw [ackFailure_eq_none hst (by rw [hwake]; rfl)]
    exact job_finish_wakeAcked hnodup hmem hport hq hsound hwake hasleep hown hj hrun hpart hpower
  · rw [ackFailure_eq_some hrej]
    exact ackFailed_partFails hnodup hmem hq hsound hown
  · refine ackTold_partLeaves_failed hnodup hmem hport hq hown hmore fun m hm => ?_
    obtain rfl := Option.some.inj (hj.symm.trans hm)
    exact hall

end Sys2Proof.Machine
end

section
/-! A WAKE or a SLEEP acknowledged with success moves its tile, and nothing but NOCHANGE sets the tile's last error (R16, R92,
R93). -/

namespace Sys2Proof.Machine

/-! ## The tile -/

section
variable {r : TileEntry}

theorem TileEntry.mismatch_fields (r : TileEntry) (b : Bool) : (r.mismatch b).state = r.state ∧
    (r.mismatch b).changedAt = r.changedAt ∧ (r.mismatch b).wakeAck = r.wakeAck ∧ (r.mismatch b).settleDue = r.settleDue ∧
    (r.mismatch b).readyDue = r.readyDue ∧ (r.mismatch b).restDue = r.restDue ∧ (r.mismatch b).shown = r.shown ∧
    (r.mismatch b).lastFault = r.lastFault ∧
    (r.mismatch b).lastError = if b = true then some .mirrorMismatch else r.lastError := by
  unfold TileEntry.mismatch
  split <;> exact ⟨rfl, rfl, rfl, rfl, rfl, rfl, rfl, rfl, rfl⟩

theorem TileEntry.enter_waking_dozing (now : Word) (r : TileEntry) : (r.enter now .waking).lastError = r.lastError ∧
    (r.enter now .dozing).lastError = r.lastError ∧ (r.enter now .dozing).shown = r.shown ∧
    (r.enter now .dozing).lastFault = r.lastFault := by
  unfold TileEntry.enter
  dsimp only
  refine ⟨?_, ?_, ?_, ?_⟩ <;> split <;> rfl

theorem TileEntry.sleepAcked_awake (h : r.state = .awake) (now : Word) (set : Settings) (n : Bool) : r.sleepAcked now set n =
    ({ r.enter now .dozing with restDue := some (plusMs now set.restMs) }).mismatch n := by
  unfold TileEntry.sleepAcked
  rw [h]

theorem TileEntry.sleepAcked_faulted (h : r.state = .faulted) (now : Word) (set : Settings) (n : Bool) :
    r.sleepAcked now set n = if r.geometryGood then
      ({ r.enter now .dozing with restDue := some (plusMs now set.restMs), lastFault := 0 }).mismatch n
      else ({ r with lastFault := 0 }).mismatch n := by
  unfold TileEntry.sleepAcked
  rw [h]

/-- A power acknowledgement that moves its tile sets no error but a mismatch. -/
theorem TileEntry.lastError_powerAcked (now : Word) (set : Settings) (n : Bool) :
    (r.state = .asleep → (r.wakeAcked now set n).lastError = if n = true then some .mirrorMismatch else r.lastError) ∧
    (r.state = .awake ∨ r.state = .faulted →
      (r.sleepAcked now set n).lastError = if n = true then some .mirrorMismatch else r.lastError) := by
  obtain ⟨hwaking, hdozing, -⟩ := TileEntry.enter_waking_dozing now r
  refine ⟨fun h => ?_, fun h => ?_⟩
  · rw [TileEntry.wakeAcked_asleep h, (TileEntry.mismatch_fields _ n).2.2.2.2.2.2.2.2]
    exact congrArg _ hwaking
  · rcases h with h | h
    · rw [TileEntry.sleepAcked_awake h, (TileEntry.mismatch_fields _ n).2.2.2.2.2.2.2.2]
      exact congrArg _ hdozing
    · rw [TileEntry.sleepAcked_faulted h]
      split
      · rw [(TileEntry.mismatch_fields _ n).2.2.2.2.2.2.2.2]
        exact congrArg _ hdozing
      · exact (TileEntry.mismatch_fields _ n).2.2.2.2.2.2.2.2

end

section
variable {s : State} {p : PortId} {e : Entry} {n : Bool} {x : TileNum}

theorem State.tile_applyAck_sleep (hkind : e.kind = .sleep) :
    (s.applyAck e n).tile e.tile = (s.tile e.tile).sleepAcked s.now s.settings n := by
  unfold State.applyAck
  rw [hkind]
  exact State.tile_modTile_self _ _ _

/-- The tile's entry when the acknowledgement reaches it: but for credit and configuration flag as it was. -/
def Entry.endedOn (e : Entry) (r : TileEntry) : TileEntry :=
  { r with credits := r.credits - 1, configInFlight := if e.kind.isConfig then false else r.configInFlight }

theorem State.tile_replied_self : (s.replied p e).tile e.tile = e.endedOn (s.tile e.tile) :=
  (State.tile_replied _).trans (if_pos rfl)

theorem eraseWork_powerAcked (hkind : e.kind = .wake ∨ e.kind = .sleep) :
    ((finish s ((s.ackWorked p e none n).tellOwner e none)).tile e.tile).eraseWork =
      (if e.kind = .wake then (e.endedOn (s.tile e.tile)).wakeAcked s.now s.settings n
        else (e.endedOn (s.tile e.tile)).sleepAcked s.now s.settings n).eraseWork := by
  have hframe := (EventFrame.ofJob (State.ackTold_job_frame (s := s) (p := p) (e := e) (failure := none) (n := n))).trans
    (finish_frame s _)
  have hbody := State.body_replied (s := s) (p := p) (e := e)
  refine (hframe.tile e.tile).trans (congrArg TileEntry.eraseWork ?_)
  show ((s.replied p e).applyAck e n).tile e.tile = _
  rcases hkind with hkind | hkind
  · rw [State.tile_applyAck_wake hkind, State.tile_replied_self, State.now_of_body hbody, State.settings_of_body hbody,
      if_pos hkind]
  · rw [State.tile_applyAck_sleep hkind, State.tile_replied_self, State.now_of_body hbody, State.settings_of_body hbody,
      if_neg (by rw [hkind]; nofun)]

end

/-! ## The jobs -/

/-- `k` is `j` with no more tile parts, and otherwise unchanged but for its parts and its outstanding count. -/
def Job.Trims (j k : Job) : Prop := k.frame = j.frame ∧ ∀ y ∈ k.partTiles, y ∈ j.partTiles

theorem Job.Trims.refl (j : Job) : j.Trims j := ⟨rfl, fun _ h => h⟩

theorem Job.trims_dropPart (x : TileNum) (j : Job) : j.Trims (j.dropPart x) :=
  ⟨rfl, fun _ hy =>
    have ⟨q, hq, hx⟩ := List.mem_map.1 hy
    List.mem_map.2 ⟨q, (List.mem_filter.1 hq).1, hx⟩⟩

theorem Job.trims_completePart (x : TileNum) (j : Job) : j.Trims (j.completePart x) := by
  unfold Job.completePart
  split
  · exact .refl j
  · split
    · exact .refl j
    · exact Job.trims_dropPart x j

theorem Job.trims_setPart (x : TileNum) {f : TilePart → TilePart} (hf : ∀ q, (f q).tile = q.tile) (j : Job) :
    j.Trims (j.setPart x f) := by
  refine ⟨rfl, fun y hy => ?_⟩
  obtain ⟨q, hq, rfl⟩ := List.mem_map.1 hy
  obtain ⟨r, hr, rfl⟩ := List.mem_map.1 hq
  split
  · rw [hf]
    exact List.mem_map_of_mem hr
  · exact List.mem_map_of_mem hr

section
variable {s w u : State} {p : PortId} {e : Entry} {n : Bool} {x : TileNum} {i k : SlotNum}

theorem State.job_wakeTold_trims {m : Job} (hm : (w.wakeTold i x).job k = some m) : ∃ j : Job, w.job k = some j ∧ j.Trims m := by
  have hmod {f : Job → Job} (hf : ∀ j : Job, j.Trims (f j)) (h : (w.modJob i f).job k = some m) :
      ∃ j : Job, w.job k = some j ∧ j.Trims m := by
    unfold State.job at h
    rw [State.slot_modJob_eq] at h
    split at h
    · next hi =>
      subst hi
      rw [Slot.job?_mapJob, Option.map_eq_some_iff] at h
      obtain ⟨j, hj, rfl⟩ := h
      exact ⟨j, hj, hf j⟩
    · exact ⟨m, h, .refl m⟩
  unfold State.wakeTold at hm
  split at hm
  · exact ⟨m, hm, .refl m⟩
  · split at hm
    · exact ⟨m, hm, .refl m⟩
    · split at hm
      · exact ⟨m, hm, .refl m⟩
      · split at hm
        · exact hmod (Job.trims_setPart (f := fun q =>
            { q with cond := if (w.tile x).state = .waking then .joined else .waiting }) x fun _ => rfl) hm
        · exact hmod (Job.trims_dropPart x) hm

theorem State.job_completePart_trims {m : Job} (hm : (w.completePart i x).job k = some m) :
    ∃ j : Job, w.job k = some j ∧ j.Trims m ∧ (i = k → m.AtRestOn x) := by
  unfold State.job at hm
  rw [State.slot_completePart] at hm
  split at hm
  · next hi =>
    subst hi
    rw [Slot.job?_mapJob, Option.map_eq_some_iff] at hm
    obtain ⟨j, hj, rfl⟩ := hm
    exact ⟨j, hj, Job.trims_completePart x j, fun _ => Job.atRestOn_completePart x j⟩
  · next hi => exact ⟨m, hm, .refl m, fun h => absurd h hi⟩

theorem State.slots_ackApplied_power (hkind : e.kind = .wake ∨ e.kind = .sleep) :
    (s.ackApplied p e none n).slots = (s.replied p e).slots := by
  unfold State.ackApplied State.applyAck
  rcases hkind with h | h <;> rw [h] <;> rfl

/-- The jobs once the owner of a power packet has been told. -/
theorem State.job_powerTold (hkind : e.kind = .wake ∨ e.kind = .sleep) {m : Job}
    (hm : ((s.ackApplied p e none n).tellOwner e none).job k = some m) :
    ∃ j : Job, s.job k = some j ∧ j.Trims m ∧ (e.owner.slot? = some k → e.kind = .sleep → m.AtRestOn e.tile) := by
  have hslots := State.slots_ackApplied_power (s := s) (p := p) (n := n) hkind
  generalize s.ackApplied p e none n = w at hslots hm
  have hbase {j' : Job} (hj' : w.job k = some j') (htrim : j'.Trims m) : ∃ j : Job, s.job k = some j ∧ j.Trims m := by
    obtain ⟨j, hj, hframe, hparts⟩ := State.job_of_replied (p := p) (e := e)
      ((State.job_of_slot (State.slot_of_slots hslots k)).symm.trans hj')
    refine ⟨j, hj, htrim.1.trans hframe, fun y hy => ?_⟩
    have hy' := htrim.2 y hy
    unfold Job.partTiles at hy' ⊢
    rwa [hparts] at hy'
  unfold State.tellOwner at hm
  cases hown : e.owner.slot? with
  | none =>
    rw [hown] at hm
    obtain ⟨j, hj, htrim⟩ := hbase hm (.refl m)
    exact ⟨j, hj, htrim, nofun⟩
  | some i =>
    rw [hown] at hm
    rcases hkind with hkind | hkind
    · rw [hkind] at hm
      obtain ⟨j', hj', htrim'⟩ := State.job_wakeTold_trims hm
      obtain ⟨j, hj, htrim⟩ := hbase hj' htrim'
      exact ⟨j, hj, htrim, fun _ h => by rw [hkind] at h; cases h⟩
    · rw [hkind] at hm
      obtain ⟨j', hj', htrim', hrest⟩ := State.job_completePart_trims hm
      obtain ⟨j, hj, htrim⟩ := hbase hj' htrim'
      exact ⟨j, hj, htrim, fun h _ => hrest (Option.some.inj h)⟩

theorem State.ackWorked_power_eq (hkind : e.kind = .wake ∨ e.kind = .sleep) (hun : s.Undisturbed e.tile e.owner.slot?)
    (hsound : s.OwnPartSound e) : s.ackWorked p e none n = s.ackApplied p e none n := by
  unfold State.ackWorked
  split
  · refine State.rejudgePowerWaits_eq_self fun k m hm hrun => ?_
    have hslot := State.slot_of_slots (State.slots_ackApplied_power (s := s) (p := p) (n := n) hkind) k
    obtain ⟨j, hj, hframe, hparts⟩ := State.job_of_replied (p := p) (e := e) ((State.job_of_slot hslot).symm.trans hm)
    rw [Job.powerWaits_of_frame hframe hparts]
    exact hun.no_powerWaits hsound hj ((Job.phase_of_frame hframe).symm.trans hrun)
  · rfl

/-! ## A WAKE's part on a tile that has become WAKING cannot fail -/

/-- The job's part on `x` is at rest, or one of a WAKE step. -/
def Job.WakesOnly (x : TileNum) (j : Job) : Prop := j.AtRestOn x ∨ ∃ st, j.step? = some st ∧ st.kind = .wake

theorem Job.WakesOnly.rejudge {j : Job} (h : j.WakesOnly x) (v : Step → Verdict) : (j.rejudge x v).WakesOnly x := by
  rcases h with h | ⟨st, hst, hkind⟩
  · rw [h.rejudge_eq_self]
    exact .inl h
  · exact .inr ⟨st, (Job.step?_of_frame (Job.frame_rejudge x v j)).trans hst, hkind⟩

theorem State.judge_wake_waits (hwaking : (s.tile x).state = .waking) {st : Step} (hkind : st.kind = .wake) :
    s.judge st x = .waits ∨ s.judge st x = .joined := by
  cases hpower : s.powerInFlight x with
  | false => exact .inr (State.judge_wake_waking hkind hwaking hpower)
  | true =>
    refine .inl ?_
    have hcheck : entryCheck (s.tile x) st = none := by
      rw [entryCheck_present (by rw [hwaking]; nofun) (by rw [hwaking]; nofun) (by rw [hwaking]; nofun),
        operandsFit_iff.2 (OperandsFit.wake hkind)]
      exact if_neg nofun
    rw [State.judge_of_none hcheck, hpower, hkind]
    rfl

theorem State.tiles_rejudgePart_of_wakes (hwaking : (s.tile x).state = .waking)
    (h : ∀ j, s.job k = some j → j.WakesOnly x) : (s.rejudgePart k x).tiles = s.tiles := by
  cases hj : s.job k with
  | none => unfold State.rejudgePart; rw [hj]
  | some j =>
    rcases h j hj with hrest | ⟨st, hst, hkind⟩
    · rw [State.rejudgePart_eq_self (h := fun m hm => by rw [hj] at hm; cases hm; exact hrest)]
    · have hput (f : Job → Job) : (s.modJob k f).tiles = s.tiles := State.tiles_modJob _ _ _
      have hverdict := State.judge_wake_waits hwaking hkind
      unfold State.rejudgePart
      rw [hj]
      dsimp only
      rw [hst]
      split
      · next st' q _ hst' _ =>
        obtain rfl := Option.some.inj hst'
        rcases hverdict with h | h
        all_goals
          rw [h]
          dsimp only
          repeat' split
          all_goals first
            | rfl
            | exact hput _
      · rfl

theorem State.tiles_rejudgeTile_of_wakes (hwaking : (s.tile x).state = .waking)
    (h : ∀ k j, s.job k = some j → j.WakesOnly x) : (s.rejudgeTile x).tiles = s.tiles := by
  refine (foldl_preserves (P := fun u => u.tiles = s.tiles ∧ ∀ k j, u.job k = some j → j.WakesOnly x)
    (f := fun u i => u.rejudgePart i x) (fun u i ⟨htiles, hjobs⟩ => ⟨?_, fun k j hj => ?_⟩) allSlots ⟨rfl, h⟩).1
  · exact (State.tiles_rejudgePart_of_wakes (by rw [State.tile_of_tiles htiles]; exact hwaking) (hjobs i)).trans htiles
  · unfold State.job at hj
    rw [State.slot_rejudgePart] at hj
    split at hj
    · next hi =>
      subst hi
      rw [Slot.job?_mapJob, Option.map_eq_some_iff] at hj
      obtain ⟨m, hm, rfl⟩ := hj
      exact (hjobs _ m hm).rejudge _
    · exact hjobs k j hj

theorem State.lastError_completePart (y : TileNum) : ((w.completePart i x).tile y).lastError = (w.tile y).lastError := by
  unfold State.completePart
  split
  · rfl
  · split
    · rfl
    · split
      · rfl
      · dsimp only
        split
        · rw [State.tile_modTile]
          split
          · next h =>
            subst h
            exact (congrArg TileEntry.lastError (State.tile_of_tiles (State.tiles_modJob _ _ _) x) :)
          · exact congrArg TileEntry.lastError (State.tile_of_tiles (State.tiles_modJob _ _ _) y)
        · exact congrArg TileEntry.lastError (State.tile_of_tiles (State.tiles_modJob _ _ _) y)

theorem State.tiles_wakeTold : (w.wakeTold i x).tiles = w.tiles := by
  unfold State.wakeTold
  repeat' split
  all_goals first
    | rfl
    | exact State.tiles_modJob _ _ _

theorem State.lastError_powerTold (hkind : e.kind = .wake ∨ e.kind = .sleep) (y : TileNum) :
    ((w.tellOwner e none).tile y).lastError = (w.tile y).lastError := by
  unfold State.tellOwner
  cases e.owner.slot? with
  | none => rfl
  | some i =>
    rcases hkind with h | h
    · rw [h]
      exact congrArg TileEntry.lastError (State.tile_of_tiles State.tiles_wakeTold y)
    · rw [h]
      exact State.lastError_completePart y

theorem State.lastError_ackApplied_power (h : (e.kind = .wake ∧ (s.tile e.tile).state = .asleep) ∨
      (e.kind = .sleep ∧ ((s.tile e.tile).state = .awake ∨ (s.tile e.tile).state = .faulted))) :
    ((s.ackApplied p e none n).tile e.tile).lastError =
      if n = true then some .mirrorMismatch else (s.tile e.tile).lastError := by
  show (((s.replied p e).applyAck e n).tile e.tile).lastError = _
  have htile := State.tile_replied_self (s := s) (p := p) (e := e)
  obtain ⟨hwake, hsleep⟩ := TileEntry.lastError_powerAcked (r := e.endedOn (s.tile e.tile)) (s.replied p e).now
    (s.replied p e).settings n
  rcases h with ⟨hkind, hstate⟩ | ⟨hkind, hstate⟩
  · rw [State.tile_applyAck_wake hkind, htile]
    exact hwake hstate
  · rw [State.tile_applyAck_sleep hkind, htile]
    exact hsleep hstate

/-- The last error after a power acknowledgement that moves its tile, where nothing else can fail on it (R16). -/
theorem lastError_powerAcked (hun : s.Undisturbed e.tile e.owner.slot?) (hsound : s.OwnPartSound e)
    (h : (e.kind = .wake ∧ (s.tile e.tile).state = .asleep) ∨
      (e.kind = .sleep ∧ ((s.tile e.tile).state = .awake ∨ (s.tile e.tile).state = .faulted))) :
    ((finish s ((s.ackWorked p e none n).tellOwner e none)).tile e.tile).lastError =
      if n = true then some .mirrorMismatch else (s.tile e.tile).lastError := by
  have hkind : e.kind = .wake ∨ e.kind = .sleep := h.imp And.left And.left
  have hjobs (k : SlotNum) (m : Job) (hm : ((s.ackApplied p e none n).tellOwner e none).job k = some m) :=
    State.job_powerTold (s := s) (p := p) hkind hm
  have hframe : TileFrame e.tile (s.replied p e) ((s.ackApplied p e none n).tellOwner e none) :=
    State.ackApplied_frame.trans (TileFrame.ofJob (State.tellOwner_frame _ e none))
  have herror := (State.lastError_powerTold (w := s.ackApplied p e none n) hkind e.tile).trans
    (State.lastError_ackApplied_power h)
  rw [State.ackWorked_power_eq hkind hun hsound]
  rcases h with ⟨hwake, hasleep⟩ | ⟨hsleep, -⟩
  · have hwaking : (((s.ackApplied p e none n).tellOwner e none).tile e.tile).state = .waking := by
      rw [← State.ackWorked_power_eq hkind hun hsound, (State.tellOwner_frame _ e none).state]
      exact state_ackTold_wake hwake hasleep
    generalize (s.ackApplied p e none n).tellOwner e none = u at hjobs hframe herror hwaking ⊢
    have hfollows : s.Follows u e.tile none := fun k m hm =>
      have ⟨j, hj, ⟨hfr, hparts⟩, _⟩ := hjobs k m hm
      ⟨j, hj, hfr, hparts, nofun⟩
    have hother (y : TileNum) (hy : y ≠ e.tile) : (s.tile y).state = (u.tile y).state :=
      (State.state_replied (p := p) (e := e) y).symm.trans (congrArg TileEntry.state (hframe.other y hy) :).symm
    have hwakes (k : SlotNum) (m : Job) (hm : u.job k = some m) : m.WakesOnly e.tile := by
      obtain ⟨j, hj, ⟨hfr, hparts⟩, -⟩ := hjobs k m hm
      cases hpart : j.part? e.tile with
      | none => exact .inl (.of_none (Job.part?_eq_none.2 fun hmem => Job.part?_eq_none.1 hpart (hparts _ hmem)))
      | some q =>
        by_cases hown : e.owner.slot? = some k
        · obtain ⟨st, hst, hk⟩ := hsound.wake hwake hown hj hpart
          exact .inr ⟨st, (Job.step?_of_frame hfr).trans hst, hk⟩
        · obtain ⟨hmem, htile⟩ := Job.mem_of_part? hpart
          refine .inl fun hrun => absurd htile ((hun k j hj ?_).1 hown q hmem)
          rw [← Job.phase_of_frame hfr]
          exact hrun
    rw [tile_finish_of_noLater (hfollows.noLaterStep hun.noLaterStep),
      State.rejudgeChanged_eq_rejudgeTile hother (by rw [hasleep, hwaking]; nofun),
      State.tile_of_tiles (State.tiles_rejudgeTile_of_wakes hwaking hwakes)]
    rcases State.closedEntry_cases (resolved s u) e.tile (u.tile e.tile) with h | h <;> rw [h] <;> exact herror
  · generalize (s.ackApplied p e none n).tellOwner e none = u at hjobs herror ⊢
    have hfollows : s.Follows u e.tile e.owner.slot? := fun k m hm =>
      have ⟨j, hj, ⟨hfr, hparts⟩, hrest⟩ := hjobs k m hm
      ⟨j, hj, hfr, hparts, fun hown => hrest hown hsleep⟩
    exact (lastError_finish_of_follows s hfollows hun).trans herror

end
/-- Settles O54. -/
theorem acksMovePower : Obligations.AcksMovePower := by
  unfold Obligations.AcksMovePower
  intro s p d tag st e hlow hreceives hmatch hrej
  have hexec : exec (.ackReceived p d tag st) s = .next (ackReceivedEffect p d tag st s) := exec_of_high hlow rfl
  have heffect (hkind : e.kind = .wake ∨ e.kind = .sleep) : ackReceivedEffect p d tag st s =
      finish s ((s.ackWorked p e none (decide (st = .nochange))).tellOwner e none) := by
    have hdata : e.kind.wantsData = false := by rcases hkind with h | h <;> rw [h] <;> rfl
    rw [ackReceivedEffect_eq hreceives hmatch (by rcases hkind with h | h <;> rw [h] <;> nofun),
      ackFailure_eq_none hrej hdata]
  have hwork (hkind : e.kind = .wake ∨ e.kind = .sleep) := (congrArg (fun t : State => (t.tile e.tile).eraseWork)
    (heffect hkind)).trans (eraseWork_powerAcked hkind)
  refine ⟨_, hexec, fun hwake hasleep => ?_, fun hwake hfaulted => ?_, fun hsleep hawake => ?_,
    fun hsleep hfaulted g hg => ?_, fun hmoves hq hun hsound => ?_⟩
  · have h := hwork (.inl hwake)
    rw [if_pos hwake, TileEntry.wakeAcked_asleep (r := e.endedOn (s.tile e.tile)) hasleep, TileEntry.eraseWork_mismatch] at h
    have hchanged := TileEntry.enter_changedAt s.now (e.endedOn (s.tile e.tile)) (st := .waking)
      (by show (s.tile e.tile).state ≠ _; rw [hasleep]; nofun)
    exact ⟨(congrArg TileEntry.state h :).trans (TileEntry.enter_state ..), (congrArg TileEntry.changedAt h :).trans hchanged,
      (congrArg TileEntry.wakeAck h :), (congrArg TileEntry.settleDue h :), (congrArg TileEntry.readyDue h :)⟩
  · have h := hwork (.inl hwake)
    have hsame : (e.endedOn (s.tile e.tile)).wakeAcked s.now s.settings (decide (st = .nochange)) =
        e.endedOn (s.tile e.tile) := if_neg (by show (s.tile e.tile).state ≠ _; rw [hfaulted]; nofun)
    rw [if_pos hwake, hsame] at h
    exact ⟨(congrArg TileEntry.state h :).trans hfaulted, (congrArg TileEntry.wakeAck h :),
      (congrArg TileEntry.settleDue h :), (congrArg TileEntry.readyDue h :)⟩
  · have h := hwork (.inr hsleep)
    rw [if_neg (by rw [hsleep]; nofun), TileEntry.sleepAcked_awake (r := e.endedOn (s.tile e.tile)) hawake, TileEntry.eraseWork_mismatch] at h
    obtain ⟨-, -, hshown, hfault⟩ := TileEntry.enter_waking_dozing s.now (e.endedOn (s.tile e.tile))
    exact ⟨(congrArg TileEntry.state h :).trans (TileEntry.enter_state ..), (congrArg TileEntry.restDue h :),
      (congrArg TileEntry.shown h :).trans hshown, (congrArg TileEntry.lastFault h :).trans hfault⟩
  · have h := hwork (.inr hsleep)
    rw [if_neg (by rw [hsleep]; nofun), TileEntry.sleepAcked_faulted (r := e.endedOn (s.tile e.tile)) hfaulted] at h
    have hgood : (e.endedOn (s.tile e.tile)).geometryGood = g.inRange := by
      unfold TileEntry.geometryGood
      rw [show (e.endedOn (s.tile e.tile)).geometry = some g from hg]
    rw [hgood] at h
    cases hrange : g.inRange with
    | true =>
      rw [hrange, if_pos rfl, TileEntry.eraseWork_mismatch] at h
      exact ⟨(congrArg TileEntry.lastFault h :), fun _ =>
        ⟨(congrArg TileEntry.state h :).trans (TileEntry.enter_state ..), (congrArg TileEntry.restDue h :)⟩, nofun⟩
    | false =>
      rw [hrange, if_neg Bool.false_ne_true, TileEntry.eraseWork_mismatch] at h
      exact ⟨(congrArg TileEntry.lastFault h :), nofun, fun _ =>
        ⟨(congrArg TileEntry.state h :).trans hfaulted, (congrArg TileEntry.restDue h :)⟩⟩
  · rw [heffect (hmoves.imp And.left And.left), lastError_powerAcked hun hsound hmoves]
    simp only [decide_eq_true_eq]

end Sys2Proof.Machine
end

section
/-! DATA of the right kind and length begins its destination write or is discarded, a READ STATE's report being judged all the
same; any other DATA ends its transaction as a REJECT does (R44, R117, R118, R123, R150, R152, R153). -/

namespace Sys2Proof.Machine

/-! ## A READ STATE's report taken -/

section
variable {r : TileEntry}

theorem TileEntry.bandIs_iff {m : Bool} : r.bandIs m = true ↔ ∃ b, r.band = some b ∧ b.band = m := by
  unfold TileEntry.bandIs
  cases r.band <;> simp

theorem TileEntry.bandIs_eq_false {m : Bool} : r.bandIs m = false ↔ ∀ b, r.band = some b → b.band ≠ m := by
  unfold TileEntry.bandIs
  cases r.band <;> simp

theorem TileState.disagrees_iff {v : TileState} {a : Bool} : v.disagrees a = true ↔
    (a = true ∧ (v = .asleep ∨ v = .dozing)) ∨ (a = false ∧ (v = .waking ∨ v = .awake)) := by
  cases v <;> cases a <;> decide

theorem TileState.disagrees_eq_false {v : TileState} {a : Bool}
    (h : (a = false ∧ (v = .asleep ∨ v = .dozing)) ∨ (a = true ∧ (v = .waking ∨ v = .awake)) ∨ v = .faulted) :
    v.disagrees a = false := by
  revert h
  cases v <;> cases a <;> decide

theorem TileEntry.enter_faulted_mirrors (now : Word) (r : TileEntry) : (r.enter now .faulted).shown = r.shown ∧
    (r.enter now .faulted).inverted = r.inverted ∧ (r.enter now .faulted).band = r.band ∧
    (r.enter now .faulted).lastFault = r.lastFault := by
  unfold TileEntry.enter
  dsimp only
  refine ⟨?_, ?_, ?_, ?_⟩ <;> split <;> rfl

theorem TileEntry.mismatch_mirrors (r : TileEntry) (b : Bool) : (r.mismatch b).shown = r.shown ∧
    (r.mismatch b).inverted = r.inverted ∧ (r.mismatch b).band = r.band := by
  unfold TileEntry.mismatch
  split <;> exact ⟨rfl, rfl, rfl⟩

/-- The mirrors that a report leaves (R153). -/
theorem TileEntry.reportMirrors_fields (w : Word) (r : TileEntry) : (r.reportMirrors w).shown = some (w.getLsbD 1) ∧
    (r.reportMirrors w).inverted = some (w.getLsbD 3) ∧
    (r.reportMirrors w).band = (if r.bandIs (w.getLsbD 2) then r.band else
      some ⟨w.getLsbD 2, if w.getLsbD 2 then none else r.fullRows⟩) ∧
    (r.reportMirrors w).state = r.state ∧ (r.reportMirrors w).lastFault = r.lastFault := by
  unfold TileEntry.reportMirrors
  dsimp only
  obtain ⟨hshown, hinverted, hband⟩ := TileEntry.mismatch_mirrors ({ r with
      shown := some (w.getLsbD 1), inverted := some (w.getLsbD 3),
      band := if r.bandIs (w.getLsbD 2) then r.band else some ⟨w.getLsbD 2, if w.getLsbD 2 then none else r.fullRows⟩ })
    (decide (r.shown ≠ some (w.getLsbD 1)) || decide (r.inverted ≠ some (w.getLsbD 3)) || !r.bandIs (w.getLsbD 2))
  obtain ⟨hstate, -, -, -, -, -, -, hfault, -⟩ := TileEntry.mismatch_fields ({ r with
      shown := some (w.getLsbD 1), inverted := some (w.getLsbD 3),
      band := if r.bandIs (w.getLsbD 2) then r.band else some ⟨w.getLsbD 2, if w.getLsbD 2 then none else r.fullRows⟩ })
    (decide (r.shown ≠ some (w.getLsbD 1)) || decide (r.inverted ≠ some (w.getLsbD 3)) || !r.bandIs (w.getLsbD 2))
  exact ⟨hshown, hinverted, hband, hstate, hfault⟩

/-- The entry that a report leaves. -/
def TileEntry.reported (now w : Word) (r : TileEntry) : TileEntry := (r.reportMirrors w).reportPower now w

theorem TileEntry.reported_fields (now w : Word) (r : TileEntry) : (r.reported now w).shown = some (w.getLsbD 1) ∧
    (r.reported now w).inverted = some (w.getLsbD 3) ∧
    (r.reported now w).band = (if r.bandIs (w.getLsbD 2) then r.band else
      some ⟨w.getLsbD 2, if w.getLsbD 2 then none else r.fullRows⟩) ∧
    (r.reported now w).lastFault = r.lastFault := by
  obtain ⟨hshown, hinverted, hband, -, hfault⟩ := TileEntry.reportMirrors_fields w r
  unfold TileEntry.reported TileEntry.reportPower
  split
  · obtain ⟨hs, hi, hb⟩ := TileEntry.mismatch_mirrors ((r.reportMirrors w).enter now .faulted) true
    obtain ⟨hs', hi', hb', hf'⟩ := TileEntry.enter_faulted_mirrors now (r.reportMirrors w)
    exact ⟨hs.trans (hs'.trans hshown), hi.trans (hi'.trans hinverted), hb.trans (hb'.trans hband),
      ((TileEntry.mismatch_fields _ true).2.2.2.2.2.2.2.1.trans hf').trans hfault⟩
  · exact ⟨hshown, hinverted, hband, hfault⟩

theorem TileEntry.reported_power (now w : Word) (r : TileEntry) :
    (r.state.disagrees (w.getLsbD 0) = true →
      (r.reported now w).state = .faulted ∧ (r.reported now w).changedAt = now) ∧
    (r.state.disagrees (w.getLsbD 0) = false → (r.reported now w).state = r.state) := by
  obtain ⟨-, -, -, hstate, -⟩ := TileEntry.reportMirrors_fields w r
  unfold TileEntry.reported TileEntry.reportPower
  rw [hstate]
  refine ⟨fun h => ?_, fun h => ?_⟩
  · obtain ⟨hs, hc, -⟩ := TileEntry.mismatch_fields ((r.reportMirrors w).enter now .faulted) true
    have hne : (r.reportMirrors w).state ≠ .faulted := fun hf => by
      rw [← hstate, hf] at h
      cases h
    rw [if_pos h]
    exact ⟨hs.trans (TileEntry.enter_state ..), hc.trans (TileEntry.enter_changedAt now _ hne)⟩
  · rw [if_neg (by rw [h]; nofun)]
    exact hstate

/-- Something of the report disagrees with the entry (R153). -/
def TileEntry.misreported (w : Word) (r : TileEntry) : Bool :=
  decide (r.shown ≠ some (w.getLsbD 1)) || decide (r.inverted ≠ some (w.getLsbD 3)) || !r.bandIs (w.getLsbD 2) ||
    r.state.disagrees (w.getLsbD 0)

theorem TileEntry.lastError_reported (now w : Word) (r : TileEntry) :
    (r.reported now w).lastError = if r.misreported w = true then some .mirrorMismatch else r.lastError := by
  obtain ⟨-, -, -, hstate, -⟩ := TileEntry.reportMirrors_fields w r
  unfold TileEntry.reported TileEntry.reportPower TileEntry.misreported
  rw [hstate]
  cases r.state.disagrees (w.getLsbD 0) with
  | true =>
    rw [if_pos rfl, (TileEntry.mismatch_fields _ true).2.2.2.2.2.2.2.2, Bool.or_true, if_pos rfl, if_pos rfl]
  | false =>
    rw [if_neg Bool.false_ne_true, Bool.or_false]
    unfold TileEntry.reportMirrors
    exact (TileEntry.mismatch_fields _ _).2.2.2.2.2.2.2.2

end

section
variable {s t : State} {x : TileNum} {w : Word} {r : TileEntry}

theorem State.misreported_iff (h : r.lasting = (s.tile x).lasting) : r.misreported w = true ↔ s.ReportDisagrees x w := by
  have hshown : r.shown = (s.tile x).shown := (congrArg TileEntry.shown h :)
  have hinverted : r.inverted = (s.tile x).inverted := (congrArg TileEntry.inverted h :)
  have hband : r.band = (s.tile x).band := (congrArg TileEntry.band h :)
  have hstate : r.state = (s.tile x).state := (congrArg TileEntry.state h :)
  unfold TileEntry.misreported State.ReportDisagrees
  simp only [Bool.or_eq_true, decide_eq_true_eq, Bool.not_eq_true', TileEntry.bandIs_eq_false, TileState.disagrees_iff,
    hshown, hinverted, hband, hstate, or_assoc]

/-- The report has been taken when the tile's entry is what the report leaves of it. -/
theorem reportTaken_of_reported (hr : r.lasting = (s.tile x).lasting)
    (ht : (t.tile x).eraseWork = (r.reported s.now w).eraseWork) : ReportTaken s t x w := by
  have hband' : r.band = (s.tile x).band := (congrArg TileEntry.band hr :)
  have hgeometry : r.geometry = (s.tile x).geometry := (congrArg TileEntry.geometry hr :)
  have hfault' : r.lastFault = (s.tile x).lastFault := (congrArg TileEntry.lastFault hr :)
  have hstate' : r.state = (s.tile x).state := (congrArg TileEntry.state hr :)
  obtain ⟨hshown, hinverted, hband, hfault⟩ := TileEntry.reported_fields s.now w r
  obtain ⟨hmoves, hstays⟩ := TileEntry.reported_power s.now w r
  rw [hstate'] at hmoves hstays
  have htband : (t.tile x).band = _ := (congrArg TileEntry.band ht :).trans hband
  rw [TileEntry.fullRows, hband', hgeometry] at htband
  have hno (hmode : (s.tile x).band = none ∨ ∃ b, (s.tile x).band = some b ∧ b.band ≠ w.getLsbD 2) :
      ¬ r.bandIs (w.getLsbD 2) = true := by
    rw [TileEntry.bandIs_iff, hband']
    rintro ⟨b, hb, hmode'⟩
    rcases hmode with h | ⟨b', hb', hne⟩
    · rw [h] at hb
      cases hb
    · obtain rfl := Option.some.inj (hb.symm.trans hb')
      exact hne hmode'
  refine ⟨(congrArg TileEntry.shown ht :).trans hshown, (congrArg TileEntry.inverted ht :).trans hinverted,
    fun b hb hmode => ?_, fun hmode => ⟨fun hbit => ?_, fun hbit g hg hheight => ?_⟩,
    (congrArg TileEntry.lastFault ht :).trans (hfault.trans hfault'), fun h => ?_, fun h => ?_⟩
  · rw [htband, if_pos (TileEntry.bandIs_iff.2 ⟨b, hband'.trans hb, hmode⟩), hb]
  · rw [htband, if_neg (hno hmode), hbit, if_pos rfl]
  · rw [htband, if_neg (hno hmode), hbit, if_neg Bool.false_ne_true, hg, Option.map_some, lastRow, if_neg hheight]
  · have hdis := hmoves (TileState.disagrees_iff.2 h)
    exact ⟨(congrArg TileEntry.state ht :).trans hdis.1, (congrArg TileEntry.changedAt ht :).trans hdis.2⟩
  · exact (congrArg TileEntry.state ht :).trans (hstays (TileState.disagrees_eq_false h))

end

/-! ## Data that is discarded -/

section
variable {s : State} {p : PortId} {e : Entry} {ws : List Word}

/-- The state in which a discarded DATA reply has ended its transaction. -/
def State.discarded (s : State) (p : PortId) (e : Entry) (ws : List Word) : State :=
  if e.kind = .readState then (s.replied p e).applyReport e.tile (ws.getD 0 0) else s.replied p e

theorem State.discardData_eq : (s.keepOlderWrite p e).discardData p e ws = s.discarded p e ws := rfl

theorem State.discarded_frame : TileFrame e.tile (s.replied p e) (s.discarded p e ws) := by
  unfold State.discarded
  split
  · exact (s.replied p e).applyReport_frame _ _
  · exact .refl _ _

theorem State.tile_discarded (hkind : e.kind = .readState) :
    (s.discarded p e ws).tile e.tile = (e.endedOn (s.tile e.tile)).reported s.now (ws.getD 0 0) := by
  unfold State.discarded
  rw [if_pos hkind]
  unfold State.applyReport
  rw [State.tile_modTile_self, State.tile_replied_self, State.now_of_body State.body_replied]
  rfl

theorem State.slots_discarded : (s.discarded p e ws).slots = (s.replied p e).slots := by
  unfold State.discarded
  split <;> rfl

/-- Nothing fails besides after a fatal fault: no job runs in a state between two events (R39). -/
theorem lastError_discarded (hq : Quiet s) (hfatal : s.fatal = true) :
    ((finish s (s.discarded p e ws)).tile e.tile).lastError = ((s.discarded p e ws).tile e.tile).lastError := by
  have hidle (k : SlotNum) (m : Job) (hm : (s.discarded p e ws).job k = some m) : m.phase ≠ .running := fun hrun => by
    obtain ⟨j, hj, hframe, -⟩ := State.job_of_replied (p := p) (e := e)
      ((State.job_of_slot (State.slot_of_slots State.slots_discarded k)).symm.trans hm)
    have hengine := hq.engine_running hj ((Job.phase_of_frame hframe).symm.trans hrun)
    unfold State.fatal at hfatal
    rw [hengine] at hfatal
    cases hfatal
  exact lastError_finish_of_rest s (fun k m hm hrun => absurd hrun (hidle k m hm))
    fun k m hm hrun => absurd (Phase.isRunning_iff.1 hrun) (hidle k m hm)

/-! ## Data that is taken -/

theorem Entry.dataWords_eq_some (hkind : e.kind ≠ .probe) {n : Nat} : e.dataWords = some n ↔
    (e.kind = .readId ∧ n = 6) ∨ (e.kind = .readState ∧ n = 1) ∨ (e.kind = .pixRead ∧ n = wordsOf e.format e.pixels) := by
  unfold Entry.dataWords
  cases hk : e.kind <;> simp [eq_comm]
  exact absurd hk hkind

theorem State.setPort_setPort (v w : Port) : (s.setPort p v).setPort p w = s.setPort p w := by cases p <;> rfl

theorem State.discardsData_keepOlderWrite : (s.keepOlderWrite p e).discardsData e = s.discardsData e := by
  rw [State.keepOlderWrite_eq]
  cases p <;> rfl

theorem State.discardsData_iff :
    s.discardsData e = true ↔ s.fatal = true ∨ (e.kind = .pixRead ∧ s.partFailed e = true) := by
  unfold State.discardsData
  simp

theorem State.startDestWrite_keepOlderWrite (w : DestWrite) : (s.keepOlderWrite p e).startDestWrite p e w =
    s.setPort p { s.port p with
      inFlight := (s.port p).inFlight.map (fun f =>
        if f.tag = e.tag then { f with deadline := none, phase := .writing w } else f),
      cutWrites := (s.port p).cutWrites ++ e.writeUnderWay } := by
  unfold State.startDestWrite State.modPort
  rw [State.keepOlderWrite_eq, State.port_setPort, State.setPort_setPort]

end

/-- Settles O55. -/
theorem dataTaken : Obligations.DataTaken := by
  unfold Obligations.DataTaken
  intro s p d tag ws e hlow hnodup hreceives hmatch hkind right w
  obtain ⟨hmem, -, -⟩ := Port.matching_spec hmatch
  have hexec : exec (.dataReceived p d tag ws) s = .next (dataReceivedEffect p d tag ws s) := exec_of_high hlow rfl
  have hright : e.dataWords = some ws.length ↔ right := Entry.dataWords_eq_some hkind
  have heffect : dataReceivedEffect p d tag ws s =
      if e.dataWords = some ws.length then
        if (s.keepOlderWrite p e).discardsData e then finish s (s.discarded p e ws)
        else (s.keepOlderWrite p e).startDestWrite p e (e.destWrite (s.keepOlderWrite p e).now ws)
      else finish s ((s.ackWorked p e (some .tileReject) false).tellOwner e (some .tileReject)) := by
    unfold dataReceivedEffect
    rw [if_pos hreceives, hmatch]
    exact if_neg hkind
  rw [heffect, State.discardsData_keepOlderWrite] at hexec
  refine ⟨fun hr hfatal hkept => ?_, fun hr hdiscard => ?_, fun hr => ?_⟩
  · have htaken : ¬ s.discardsData e = true := fun h => by
      rcases State.discardsData_iff.1 h with h | ⟨hk, hp⟩
      · rw [hfatal] at h
        cases h
      · rw [hkept.resolve_left fun hne => hne hk] at hp
        cases hp
    have hwrite : e.destWrite (s.keepOlderWrite p e).now ws = w := by
      have hnow : (s.keepOlderWrite p e).now = s.now := by rw [State.keepOlderWrite_eq]; cases p <;> rfl
      rw [hnow]
      rcases hr with ⟨hk, -⟩ | ⟨hk, -⟩ | ⟨hk, -⟩
      all_goals
        unfold w Entry.destWrite
        rw [hk]
        rfl
    rw [if_pos (hright.2 hr), if_neg htaken, hwrite, State.startDestWrite_keepOlderWrite] at hexec
    exact hexec
  · rw [if_pos (hright.2 hr), if_pos (State.discardsData_iff.2 hdiscard)] at hexec
    refine ⟨_, hexec, transactionEnded_finish State.discarded_frame, fun hstate => ?_⟩
    have htile := State.tile_discarded (s := s) (p := p) (ws := ws) hstate
    have hlasting : (e.endedOn (s.tile e.tile)).lasting = (s.tile e.tile).lasting := rfl
    refine ⟨reportTaken_of_reported hlasting ?_, fun hq => ?_⟩
    · rw [(finish_frame s _).tile, htile]
    · have hfatal : s.fatal = true := hdiscard.resolve_right fun h => by rw [hstate] at h; cases h.1
      rw [lastError_discarded hq hfatal, htile, TileEntry.lastError_reported]
      exact ⟨fun h => if_pos ((State.misreported_iff hlasting).2 h), fun h => if_neg fun h' => h ((State.misreported_iff hlasting).1 h')⟩
  · rw [if_neg fun h => hr (hright.1 h)] at hexec
    exact ⟨_, hexec, transactionEnded_finish State.ackTold_frame, lasting_ackFailed s, fun hq hsound =>
      ⟨fun hun => lastError_ackFailed s rfl hun hsound, fun i hown => ackFailed_partFails hnodup hmem hq hsound hown⟩⟩
end Sys2Proof.Machine
end

section
/-! What a packet carries, and what the state is once it has issued (R79 to R81, R90, R100, R107, R110, R116, R141, 12.6). -/

namespace Sys2Proof.Machine

/-! ## Payloads -/

theorem lowHalf_setWidth (w : Word) : (lowHalf w).setWidth 32 = w &&& 0xFFFF#32 := by
  refine BitVec.eq_of_toNat_eq ?_
  rw [BitVec.toNat_setWidth, lowHalf_toNat, BitVec.toNat_and]
  exact (Nat.mod_eq_of_lt (by omega)).trans (Nat.and_two_pow_sub_one_eq_mod w.toNat 16).symm

theorem settingPayload_packet {k : StepKind} (hk : k.isStream = false) (x y : Word) : settingPayload k.packet x y =
    if k = .invert then [x]
    else if k = .window ∨ k = .band then [x, y]
    else if k = .rollArea then [x &&& 0xFFFF#32, y &&& 0xFFFF#32]
    else if k = .rollTo then [x &&& 0xFFFF#32]
    else [] := by
  cases k
  case put | get => cases hk
  case rollArea => exact congrArg₂ (fun a b => [a, b]) (lowHalf_setWidth x) (lowHalf_setWidth y)
  case rollTo => exact congrArg (fun a => [a]) (lowHalf_setWidth x)
  all_goals rfl

theorem pixelControl_fields (f : PixelFormat) (offset pixels : Nat) :
    (pixelControl f offset pixels).toNat / 2 ^ 27 = 0 ∧
    (pixelControl f offset pixels).toNat % 2 ^ 17 = offset / 128 % 2 ^ 17 ∧
    (pixelControl f offset pixels).toNat / 2 ^ 17 % 2 ^ 9 = pixels % 2 ^ 9 ∧
    ((pixelControl f offset pixels).toNat / 2 ^ 26 = 1 ↔ f = .rgb24) := by
  have hoffset : offset / 128 % 2 ^ 17 < 2 ^ 17 := Nat.mod_lt _ (by decide)
  have hpixels : pixels % 2 ^ 9 < 2 ^ 9 := Nat.mod_lt _ (by decide)
  unfold pixelControl
  rw [BitVec.toNat_ofNat]
  generalize offset / 128 % 2 ^ 17 = a at hoffset ⊢
  generalize pixels % 2 ^ 9 = b at hpixels ⊢
  cases f <;> simp <;> omega

/-- The kind of a stream's next packet (R107, R110, R116). -/
def segmentKind (k : StepKind) (own : Option Stream) : PacketKind :=
  if k = .get then .pixRead
  else match own with
    | none => .pixStart
    | some r => if r.broken then .pixSeek else .pixMore

/-- The pixels that a stream has sent. -/
def sentPixels (own : Option Stream) : Nat := (own.map fun r => r.sent).getD 0

theorem segmentShape_fields (st : Step) (own : Option Stream) (ws : List Word) :
    (segmentShape st own ws).kind = segmentKind st.kind own ∧ (segmentShape st own ws).onFrame = false ∧
    (segmentShape st own ws).x = st.x ∧ (segmentShape st own ws).y = st.y ∧
    (segmentShape st own ws).format = st.format ∧ (segmentShape st own ws).first = sentPixels own ∧
    (segmentShape st own ws).pixels = segmentPixels st.format st.pixelCount (sentPixels own) ∧
    (segmentShape st own ws).payload = pixelControl st.format
        (if segmentKind st.kind own = .pixSeek ∨ segmentKind st.kind own = .pixRead then sentPixels own else 0)
        (segmentPixels st.format st.pixelCount (sentPixels own)) ::
      (if segmentKind st.kind own = .pixRead then [] else ws) := by
  cases own <;> exact ⟨rfl, rfl, rfl, rfl, rfl, rfl, rfl, rfl⟩

/-! ## Port and tile of an issue (R80) -/

/-- The in-flight entry of a packet. -/
def State.issuedEntry (s : State) (x : TileNum) (g : Tag) (o : Owner) (sh : Shape) : Entry :=
  { tag := g, tile := x, owner := o, kind := sh.kind, issueTime := s.now,
    deadline := some (plusMs s.now (s.settings.replyMs + if sh.onFrame then
      (match (s.tile x).geometry with | some g => g.framePeriod.toNat | none => 0) else 0)),
    phase := .awaiting, x := sh.x, y := sh.y, first := sh.first, pixels := sh.pixels, format := sh.format }

def Shape.packet (sh : Shape) (x : TileNum) (g : Tag) : Packet :=
  { kind := sh.kind, hop := BitVec.ofNat 4 (positionOf x).val, tag := BitVec.ofNat 4 g.val, onFrame := sh.onFrame,
    payload := sh.payload }

/-- The tile's entry once a packet to it has issued. -/
def TileEntry.sentTo (r : TileEntry) (o : Owner) (k : PacketKind) : TileEntry :=
  ({ r with credits := r.credits + 1, configInFlight := r.configInFlight || k.isConfig }).breakStream o.slot?

section
variable (s : State) (p : PortId) (x : TileNum) (g : Tag) (o : Owner) (sh : Shape)

theorem State.issuePacket_eq : s.issuePacket p x g o sh = (s.modPort p fun v => { v with
      inFlight := v.inFlight ++ [s.issuedEntry x g o sh], transmitting := some (sh.packet x g) }).modTile x
    fun r => r.sentTo o sh.kind := rfl

theorem State.port_issuePacket : (s.issuePacket p x g o sh).port p = { s.port p with
    inFlight := (s.port p).inFlight ++ [s.issuedEntry x g o sh], transmitting := some (sh.packet x g) } := by
  rw [State.issuePacket_eq]
  exact State.port_modPort s p _

theorem State.port_issuePacket_ne {q : PortId} (h : q ≠ p) : (s.issuePacket p x g o sh).port q = s.port q := by
  rw [State.issuePacket_eq]
  exact State.port_modPort_ne s _ h

theorem State.tile_issuePacket (u : TileNum) : (s.issuePacket p x g o sh).tile u =
    if x = u then (s.tile u).sentTo o sh.kind else s.tile u := by
  rw [State.issuePacket_eq, State.tile_modTile]
  split
  · next h => subst h; exact congrArg (fun r : TileEntry => r.sentTo o sh.kind) ((State.modPort_reads s p _).2.1 x)
  · exact (State.modPort_reads s p _).2.1 u

end

theorem TileEntry.sentTo_fields (r : TileEntry) (o : Owner) (k : PacketKind) :
    (r.sentTo o k).credits = r.credits + 1 ∧ (r.sentTo o k).configInFlight = (r.configInFlight || k.isConfig) := by
  unfold TileEntry.sentTo TileEntry.breakStream
  split
  · split <;> exact ⟨rfl, rfl⟩
  · exact ⟨rfl, rfl⟩

theorem TileEntry.sentTo_stream {r : TileEntry} (o : Owner) (k : PacketKind) {v : Stream} (h : r.stream = some v) :
    (v.kind = .put → o.slot? ≠ some v.owner → (r.sentTo o k).stream = some { v with broken := true }) ∧
    (v.kind = .get ∨ o.slot? = some v.owner → (r.sentTo o k).stream = some v) := by
  unfold TileEntry.sentTo TileEntry.breakStream
  dsimp only
  rw [h]
  dsimp only
  refine ⟨fun hput howner => ?_, fun hstays => ?_⟩
  · rw [if_pos ⟨hput, howner⟩]
  · rw [if_neg]
    rintro ⟨hput, howner⟩
    rcases hstays with hget | hown
    · rw [hput] at hget
      cases hget
    · exact howner hown

/-! ## The end of the event that issues -/

section
variable {s : State} {p : PortId} {c : Cand} {g : Tag}

theorem packetIssueEffect_eq (htx : (s.port p).transmitting = none) (hpick : s.arbiterPick p = some c)
    (htag : (s.port p).freeTag = some g) :
    packetIssueEffect p s = (commit s (s.issue p c g)).presentAfterIssue p c := by
  unfold packetIssueEffect
  rw [if_pos (State.txFree_iff.2 htx), hpick, htag]

/-- But for the record changes, the WAKE presented and the staging reads stopped the state is what the issue left. -/
theorem issued_reads (s u : State) (p : PortId) (c : Cand) :
    (∀ q, ((commit s u).presentAfterIssue p c).port q = u.port q) ∧
    ((commit s u).presentAfterIssue p c).tiles = u.tiles ∧ ((commit s u).presentAfterIssue p c).slots = u.slots ∧
    ((commit s u).presentAfterIssue p c).body = u.body := by
  have hframe := commit_frame s u
  have hpresent (v : State) : (∀ q, (v.presentAfterIssue p c).port q = v.port q) ∧ (v.presentAfterIssue p c).tiles = v.tiles ∧
      (v.presentAfterIssue p c).slots = v.slots ∧ (v.presentAfterIssue p c).body = v.body := by
    unfold State.presentAfterIssue
    repeat' split
    all_goals exact ⟨fun q => by cases q <;> rfl, rfl, rfl, rfl⟩
  obtain ⟨hport, htiles, hslots, hbody⟩ := hpresent (commit s u)
  exact ⟨fun q => (hport q).trans (hframe.port q), htiles.trans (tiles_commit s u), hslots.trans (slots_commit s u),
    hbody.trans hframe.body⟩

end
/-! ## The job that issues (R80, R81, R90) -/

/-- The shape of a job's packet. -/
def State.shapeFor (s : State) (i : SlotNum) (x : TileNum) (st : Step) : Shape :=
  if st.kind.isStream then segmentShape st (s.ownStream i x) ((s.staged i x).getD []) else settingShape st

/-- The packet is on its way, and counts as outstanding. -/
def State.sent (s : State) (p : PortId) (x : TileNum) (g : Tag) (i : SlotNum) (j : Job) (sh : Shape) : State :=
  (s.issuePacket p x g (.job i j.current) sh).modJob i fun j => { j with outstanding := j.outstanding + 1 }

section
variable {s : State} {p : PortId} {c : Cand} {g : Tag} {i : SlotNum} {j : Job} {st : Step}

theorem State.issue_stream (hslot : c.slot = some i) (hj : s.job i = some j) (hst : j.step? = some st)
    (hstream : st.kind.isStream = true) : s.issue p c g =
      (s.sent p c.tile g i j (s.shapeFor i c.tile st)).segmentIssued i c.tile st (s.ownStream i c.tile)
        (s.shapeFor i c.tile st).pixels := by
  unfold State.issue
  rw [hslot]
  dsimp only
  rw [hj]
  dsimp only
  rw [hst]
  exact if_pos hstream

theorem State.issue_setting (hslot : c.slot = some i) (hj : s.job i = some j) (hst : j.step? = some st)
    (hstream : st.kind.isStream = false) (hwake : st.kind ≠ .wake) : s.issue p c g =
      (s.sent p c.tile g i j (s.shapeFor i c.tile st)).modJob i
        (fun j => j.setPart c.tile fun q => { q with cond := .issued }) := by
  unfold State.issue
  rw [hslot]
  dsimp only
  rw [hj]
  dsimp only
  rw [hst]
  exact (if_neg (by rw [hstream]; nofun)).trans (if_neg hwake)

theorem State.issue_wake (hslot : c.slot = some i) (hj : s.job i = some j) (hst : j.step? = some st)
    (hwake : st.kind = .wake) : s.issue p c g =
      (((s.sent p c.tile g i j (s.shapeFor i c.tile st)).modJob i
        (fun j => j.setPart c.tile fun q => { q with cond := .issued })).recordGrant).holdRiders c.tile := by
  unfold State.issue
  rw [hslot]
  dsimp only
  rw [hj]
  dsimp only
  rw [hst]
  exact (if_neg (by rw [hwake]; nofun)).trans (if_pos hwake)

end

section
variable (s : State) (p : PortId) (x : TileNum) (g : Tag) (i : SlotNum) (j : Job) (sh : Shape)

theorem State.ports_sent (q : PortId) :
    (s.sent p x g i j sh).port q = (s.issuePacket p x g (.job i j.current) sh).port q :=
  State.port_of_ports (by unfold State.sent; simp) q

theorem State.tiles_sent : (s.sent p x g i j sh).tiles = (s.issuePacket p x g (.job i j.current) sh).tiles :=
  State.tiles_modJob _ _ _

theorem State.slot_sent (k : SlotNum) : (s.sent p x g i j sh).slot k =
    if i = k then (s.slot i).mapJob (fun j => { j with outstanding := j.outstanding + 1 }) else s.slot k := by
  have hslots (k : SlotNum) : (s.issuePacket p x g (.job i j.current) sh).slot k = s.slot k :=
    State.slot_of_slots (by simp) k
  unfold State.sent
  rw [State.slot_modJob_eq, hslots, hslots]

theorem State.body_sent : (s.sent p x g i j sh).body = s.body := by
  unfold State.sent
  simp

end

/-! ## The riders of a granted WAKE (R90, R94) -/

/-- Whether the job has a WAKE tile part for `x` that is a candidate. -/
def Job.wakeCandidate (x : TileNum) (j : Job) : Bool :=
  j.phase.isRunning && (match j.step? with | some st => decide (st.kind = .wake) | none => false) &&
    (match j.part? x with | some q => decide (q.cond = .candidate) | none => false)

theorem State.wakeCandidate_of_job {s : State} {k : SlotNum} {j : Job} (h : s.job k = some j) (x : TileNum) :
    s.wakeCandidate k x = j.wakeCandidate x := by
  unfold State.wakeCandidate
  rw [h]
  rfl

/-- A rider waits behind the WAKE. -/
def Job.held (x : TileNum) (j : Job) : Job :=
  if j.wakeCandidate x then j.setPart x fun q => { q with cond := .waiting } else j

theorem State.slot_holdRiders (s : State) (x : TileNum) (k : SlotNum) :
    (s.holdRiders x).slot k = (s.slot k).mapJob (Job.held x) := by
  unfold State.holdRiders
  refine State.slot_foldl (P := fun _ => True) (F := fun _ v => v.mapJob (Job.held x)) (fun _ _ _ => trivial)
    (fun u i _ k => ?_) trivial k
  refine State.slot_of_job_op (fun hnone => ?_) fun j hj => ?_
  · rw [if_neg]
    unfold State.wakeCandidate
    rw [hnone]
    nofun
  · rw [State.wakeCandidate_of_job hj]
    unfold Job.held
    split
    · exact State.slot_modJob_job u hj _
    · exact State.slot_self u hj

end Sys2Proof.Machine
end

section
/-! PACKET_ISSUE: an auto-sleep's SLEEP, and a job's packet (R79 to R81, R90, R94, R99, R100, R107, R110, R116, R141). -/

namespace Sys2Proof.Machine

section
variable {s : State} {p : PortId} {c : Cand} {g : Tag} {i : SlotNum} {j : Job} {st : Step}

theorem State.tiles_holdRiders (s : State) (x : TileNum) : (s.holdRiders x).tiles = s.tiles := by
  unfold State.holdRiders
  refine foldl_preserves (P := fun u => u.tiles = s.tiles) (fun u k hu => ?_) _ rfl
  split
  · exact (State.tiles_modJob _ _ _).trans hu
  · exact hu

theorem StepKind.isStream_wake {k : StepKind} (h : k = .wake) : k.isStream = false := by rw [h]; rfl

/-! ## What the issue leaves of ports, tiles and registers -/

theorem State.port_issue (hslot : c.slot = some i) (hj : s.job i = some j) (hst : j.step? = some st) (q : PortId) :
    (s.issue p c g).port q =
      (s.issuePacket p c.tile g (.job i j.current) (s.shapeFor i c.tile st)).port q := by
  rw [← State.ports_sent]
  refine State.port_of_ports ?_ q
  cases hstream : st.kind.isStream with
  | true =>
    rw [State.issue_stream hslot hj hst hstream]
    unfold State.segmentIssued
    simp
  | false =>
    by_cases hwake : st.kind = .wake
    · rw [State.issue_wake hslot hj hst hwake, State.ports_holdRiders]
      unfold State.recordGrant
      exact State.ports_modJob _ _ _
    · rw [State.issue_setting hslot hj hst hstream hwake]
      exact State.ports_modJob _ _ _

/-- The stream field after a job's packet. -/
theorem State.tile_issue (hslot : c.slot = some i) (hj : s.job i = some j) (hst : j.step? = some st) (u : TileNum) :
    (s.issue p c g).tile u = if c.tile = u then
      (if st.kind.isStream then { (s.tile u).sentTo (.job i j.current) (s.shapeFor i c.tile st).kind with
          stream := some (streamAfterIssue i st.kind (s.ownStream i c.tile) (s.shapeFor i c.tile st).pixels) }
        else (s.tile u).sentTo (.job i j.current) (s.shapeFor i c.tile st).kind) else s.tile u := by
  have hsent := State.tile_of_tiles (s.tiles_sent p c.tile g i j (s.shapeFor i c.tile st)) u
  rw [State.tile_issuePacket] at hsent
  cases hstream : st.kind.isStream with
  | true =>
    rw [State.issue_stream hslot hj hst hstream]
    unfold State.segmentIssued
    rw [State.tile_of_tiles (State.tiles_modJob _ _ _), State.tile_modTile]
    by_cases hu : c.tile = u
    · subst hu
      rw [if_pos rfl] at hsent
      rw [if_pos rfl, hsent, if_pos rfl, if_pos rfl]
    · rw [if_neg hu] at hsent
      rw [if_neg hu, hsent, if_neg hu]
  | false =>
    rw [if_neg Bool.false_ne_true]
    refine Eq.trans ?_ hsent
    refine State.tile_of_tiles ?_ u
    by_cases hwake : st.kind = .wake
    · rw [State.issue_wake hslot hj hst hwake, State.tiles_holdRiders]
      exact State.tiles_modJob _ _ _
    · rw [State.issue_setting hslot hj hst hstream hwake]
      exact State.tiles_modJob _ _ _

/-! ## What it leaves of the jobs -/

/-- The tile part after a stream segment: issued with the last, and otherwise a candidate whose next segment is staged. -/
def TilePart.afterSegment (more : Bool) (k : StepKind) (q : TilePart) : TilePart :=
  if q.cond ≠ .candidate then q
  else if more then { q with staging := if k = .put then .reading else .empty }
  else { q with cond := .issued, staging := .empty }

theorem sent_streamAfterIssue (k : StepKind) (own : Option Stream) (n : Nat) :
    (streamAfterIssue i k own n).sent = sentPixels own + n := by
  cases own with
  | none => exact (Nat.zero_add n).symm
  | some r => rfl

theorem State.job_issue_stream (hslot : c.slot = some i) (hj : s.job i = some j) (hst : j.step? = some st)
    (hstream : st.kind.isStream = true) :
    (s.issue p c g).job i = some { j.setPart c.tile (TilePart.afterSegment (decide (sentPixels (s.ownStream i c.tile) +
        (s.shapeFor i c.tile st).pixels < st.pixelCount)) st.kind) with outstanding := j.outstanding + 1 } := by
  have hsent := State.job_of_mapSlot ((s.slot_sent p c.tile g i j (s.shapeFor i c.tile st) i).trans (if_pos rfl)) hj
  rw [State.issue_stream hslot hj hst hstream]
  generalize s.sent p c.tile g i j (s.shapeFor i c.tile st) = w at hsent ⊢
  have hmod (f : TileEntry → TileEntry) (h : Job → Job) : ((w.modTile c.tile f).modJob i h).job i =
      some (h { j with outstanding := j.outstanding + 1 }) :=
    State.job_of_mapSlot ((State.slot_modJob_eq _ i i h).trans (if_pos rfl)) hsent
  unfold State.segmentIssued
  dsimp only
  rw [hmod]
  refine congrArg some (congrArg (fun f => ({ j.setPart c.tile f with outstanding := j.outstanding + 1 } : Job)) ?_)
  funext q
  rw [sent_streamAfterIssue]
  unfold TilePart.afterSegment stagingFor
  refine if_congr Iff.rfl rfl ?_
  by_cases hlast : st.pixelCount ≤ sentPixels (s.ownStream i c.tile) + (s.shapeFor i c.tile st).pixels
  · exact (if_pos (decide_eq_true hlast)).trans (if_neg (by rw [decide_eq_true_eq]; omega)).symm
  · exact (if_neg (by rw [decide_eq_true_eq]; exact hlast)).trans (if_pos (by rw [decide_eq_true_eq]; omega)).symm

theorem State.slot_issue_ne (hslot : c.slot = some i) (hj : s.job i = some j) (hst : j.step? = some st) {k : SlotNum}
    (hk : k ≠ i) : (s.issue p c g).slot k =
      if st.kind = .wake then (s.slot k).mapJob (Job.held c.tile) else s.slot k := by
  have hsent := (s.slot_sent p c.tile g i j (s.shapeFor i c.tile st) k).trans (if_neg hk.symm)
  have hmod (w : State) (f : Job → Job) : (w.modJob i f).slot k = w.slot k := (State.slot_modJob_eq _ i k _).trans (if_neg hk.symm)
  cases hstream : st.kind.isStream with
  | true =>
    rw [State.issue_stream hslot hj hst hstream, if_neg fun h => by rw [StepKind.isStream_wake h] at hstream; cases hstream]
    unfold State.segmentIssued
    exact (hmod _ _).trans hsent
  | false =>
    by_cases hwake : st.kind = .wake
    · rw [State.issue_wake hslot hj hst hwake, State.slot_holdRiders, if_pos hwake]
      exact congrArg (Slot.mapJob _) ((hmod _ _).trans hsent)
    · rw [State.issue_setting hslot hj hst hstream hwake, if_neg hwake]
      exact (hmod _ _).trans hsent

theorem Job.wakeCandidate_issued (x : TileNum) (j : Job) :
    (j.setPart x fun q => { q with cond := .issued }).wakeCandidate x = false := by
  unfold Job.wakeCandidate
  rw [Job.part?_setPart (f := fun q => { q with cond := .issued }) (fun _ => rfl), if_pos rfl]
  cases j.part? x with
  | none => exact Bool.and_false _
  | some q => exact Bool.and_false _

theorem State.job_issue_setting (hslot : c.slot = some i) (hj : s.job i = some j) (hst : j.step? = some st)
    (hstream : st.kind.isStream = false) : (s.issue p c g).job i =
      some { j.setPart c.tile (fun q => { q with cond := .issued }) with outstanding := j.outstanding + 1 } := by
  have hsent := State.job_of_mapSlot ((s.slot_sent p c.tile g i j (s.shapeFor i c.tile st) i).trans (if_pos rfl)) hj
  have hnot : ({ j.setPart c.tile (fun q => { q with cond := .issued }) with
      outstanding := j.outstanding + 1 } : Job).wakeCandidate c.tile = false := j.wakeCandidate_issued c.tile
  have hcases : s.issue p c g = (s.sent p c.tile g i j (s.shapeFor i c.tile st)).modJob i
        (fun j => j.setPart c.tile fun q => { q with cond := .issued }) ∨
      s.issue p c g = (((s.sent p c.tile g i j (s.shapeFor i c.tile st)).modJob i
        (fun j => j.setPart c.tile fun q => { q with cond := .issued })).recordGrant).holdRiders c.tile := by
    by_cases hwake : st.kind = .wake
    · exact .inr (State.issue_wake hslot hj hst hwake)
    · exact .inl (State.issue_setting hslot hj hst hstream hwake)
  generalize s.sent p c.tile g i j (s.shapeFor i c.tile st) = w at hsent hcases
  have hissued : (w.modJob i fun j => j.setPart c.tile fun q => { q with cond := .issued }).job i =
      some ({ j.setPart c.tile (fun q => { q with cond := .issued }) with outstanding := j.outstanding + 1 }) :=
    State.job_of_mapSlot ((State.slot_modJob_eq w i i _).trans (if_pos rfl)) hsent
  rcases hcases with h | h
  · rw [h]
    exact hissued
  · rw [h]
    generalize (w.modJob i fun j => j.setPart c.tile fun q => { q with cond := .issued }) = v at hissued
    exact (State.job_of_mapSlot (State.slot_holdRiders v.recordGrant c.tile i) hissued).trans
      (congrArg some (if_neg (by rw [hnot]; nofun)))

/-! ## A stream's packet -/

theorem State.ownStream_owner {x : TileNum} {r : Stream} (h : s.ownStream i x = some r) :
    (s.tile x).stream = some r ∧ r.owner = i := by
  unfold State.ownStream at h
  split at h
  · cases h
  · next r' hr =>
    split at h
    · next hown =>
      obtain rfl := Option.some.inj h
      exact ⟨hr, hown⟩
    · cases h

theorem streamAfterIssue_fields {k : StepKind} {x : TileNum} (n : Nat) :
    (streamAfterIssue i k (s.ownStream i x) n).owner = i ∧ (streamAfterIssue i k (s.ownStream i x) n).broken = false := by
  cases h : s.ownStream i x with
  | none => exact ⟨rfl, rfl⟩
  | some r => exact ⟨(State.ownStream_owner h).2, rfl⟩

theorem State.shapeFor_stream (hstream : st.kind.isStream = true) (x : TileNum) :
    s.shapeFor i x st = segmentShape st (s.ownStream i x) ((s.staged i x).getD []) := if_pos hstream

theorem State.shapeFor_setting (hstream : st.kind.isStream = false) (x : TileNum) : s.shapeFor i x st = settingShape st :=
  if_neg (by rw [hstream]; nofun)

/-- The words that go with a PUT segment are those its part has staged. -/
theorem State.staged_words {x : TileNum} {q : TilePart} (hj : s.job i = some j) (hpart : j.part? x = some q)
    (h : ∃ j q ws, s.job i = some j ∧ j.part? x = some q ∧ q.staging = .staged ws) :
    q.staging = .staged ((s.staged i x).getD []) := by
  obtain ⟨j', q', ws, hj', hpart', hws⟩ := h
  obtain rfl := Option.some.inj (hj.symm.trans hj')
  obtain rfl := Option.some.inj (hpart.symm.trans hpart')
  have hstaged : s.staged i x = some ws := by
    unfold State.staged
    rw [hj, Option.bind_some, hpart]
    dsimp only
    rw [hws]
  rw [hstaged, hws]
  rfl

/-- The gates of a stream's packet were open, and a PUT's segment was staged. -/
theorem State.stream_gates (hpick : s.arbiterPick p = some c) (hslot : c.slot = some i) (hj : s.job i = some j)
    (hst : j.step? = some st) (hstream : st.kind.isStream = true) : (∀ r ∈ (s.tile c.tile).stream, r.owner = i) ∧
      (st.kind = .put → ∃ j q ws, s.job i = some j ∧ j.part? c.tile = some q ∧ q.staging = .staged ws) := by
  obtain ⟨hmem, hissue, -⟩ := State.arbiterPick_spec hpick
  obtain ⟨-, -, -, hjob⟩ := State.mayIssue_of_issuable hissue
  obtain ⟨-, -, -, hput, hget⟩ := hjob i hslot
  obtain ⟨-, -, hoffered⟩ := State.offered_of_mem hmem
  obtain ⟨j', st', hj', -, hst', hkind, -⟩ := hoffered i hslot
  obtain rfl := Option.some.inj (hj.symm.trans hj')
  obtain rfl := Option.some.inj (hst.symm.trans hst')
  rw [hkind] at hput hget
  have hgates : s.StreamGatesOpen i c := (StepKind.isStream_iff.1 hstream).elim (fun h => (hput h).1) fun h => (hget h).1
  obtain ⟨-, -, hown, -⟩ := hgates
  exact ⟨hown, fun h => (hput h).2⟩

/-! ## An auto-sleep's packet -/

/-- The SLEEP that an ARMED tile offers (R70). -/
def sleepShape : Shape :=
  { kind := .sleep, onFrame := false, payload := [], x := 0, y := 0, first := 0, pixels := 0, format := .rgb16 }

theorem State.issue_offer (hslot : c.slot = none) : s.issue p c g =
    (s.issuePacket p c.tile g .autoSleep sleepShape).modTile c.tile fun r => { r with armed := false } := by
  unfold State.issue
  rw [hslot]
  rfl

end

/-- Settles O36. -/
theorem packetsIssue : Obligations.PacketsIssue := by
  unfold Obligations.PacketsIssue
  refine ⟨fun s p c g hlow htx hpick hslot htag => ?_, fun s p c i j st g hlow htx hpick hslot hj hst htag => ?_⟩
  · have hexec : exec (.packetIssue p) s = .next (packetIssueEffect p s) := exec_of_high hlow rfl
    rw [packetIssueEffect_eq htx hpick htag] at hexec
    obtain ⟨hport, htiles, hslots, hbody⟩ := issued_reads s (s.issue p c g) p c
    generalize (commit s (s.issue p c g)).presentAfterIssue p c = t at *
    have htile (u : TileNum) : t.tile u = (s.issue p c g).tile u := State.tile_of_tiles htiles u
    rw [State.issue_offer hslot] at hport htile hslots hbody
    have hown : t.port p = _ := (hport p).trans (s.port_issuePacket p c.tile g .autoSleep sleepShape)
    have hself : t.tile c.tile = { (s.tile c.tile).sentTo .autoSleep .sleep with armed := false } := by
      rw [htile, State.tile_modTile_self, State.tile_issuePacket, if_pos rfl]
      rfl
    have hother (u : TileNum) (hu : u ≠ c.tile) : t.tile u = s.tile u := by
      rw [htile, State.tile_modTile, if_neg hu.symm, State.tile_issuePacket, if_neg hu.symm]
    have hbody' : t.body = s.body := hbody.trans (by simp)
    exact ⟨t, s.issuedEntry c.tile g .autoSleep sleepShape, hexec, by rw [hown], by rw [hown]; rfl, rfl, rfl, rfl, rfl, rfl,
      rfl, rfl, by rw [hself], (congrArg TileEntry.credits hself).trans ((s.tile c.tile).sentTo_fields _ _).1, hother,
      hslots.trans (by simp), State.wakeHistory_of_body hbody',
      fun q hq => (hport q).trans (s.port_issuePacket_ne p c.tile g .autoSleep sleepShape hq)⟩
  · have hexec : exec (.packetIssue p) s = .next (packetIssueEffect p s) := exec_of_high hlow rfl
    rw [packetIssueEffect_eq htx hpick htag] at hexec
    obtain ⟨hport, htiles, hslots, hbody⟩ := issued_reads s (s.issue p c g) p c
    generalize (commit s (s.issue p c g)).presentAfterIssue p c = t at *
    have hownport := (hport p).trans ((State.port_issue hslot hj hst p).trans (s.port_issuePacket p c.tile g _ _))
    have hotherport (q : PortId) (hq : q ≠ p) : t.port q = s.port q :=
      (hport q).trans ((State.port_issue hslot hj hst q).trans (s.port_issuePacket_ne p c.tile g _ _ hq))
    have htile (u : TileNum) := (State.tile_of_tiles htiles u).trans (State.tile_issue hslot hj hst u)
    have hjob (k : SlotNum) : t.job k = (s.issue p c g).job k := State.job_of_slot (State.slot_of_slots hslots k)
    have hfields := hbody.trans (State.body_issue s p c g)
    have hgrants : s.grants c = decide (st.kind = .wake) := by
      unfold State.grants
      rw [hslot, Option.bind_some, hj, Option.bind_some, hst]
    rw [hgrants] at hfields
    have hstreamjob := State.job_issue_stream (p := p) (g := g) hslot hj hst
    have hsettingjob := State.job_issue_setting (p := p) (g := g) hslot hj hst
    have hotherjob := fun k (hk : k ≠ i) => State.slot_issue_ne (p := p) (g := g) hslot hj hst hk
    have hseg := fun h => State.shapeFor_stream (s := s) (i := i) (st := st) h c.tile
    have hset := fun h => State.shapeFor_setting (s := s) (i := i) (st := st) h c.tile
    have hgates := State.stream_gates hpick hslot hj hst
    generalize s.shapeFor i c.tile st = sh at *
    generalize s.issue p c g = u at *
    refine ⟨t, s.issuedEntry c.tile g (.job i j.current) sh, sh.packet c.tile g, hexec, by rw [hownport], by rw [hownport],
      by rw [hownport], by rw [hownport], rfl, rfl, rfl, rfl, rfl, rfl, rfl, rfl, fun hs => ?_, fun hget => ?_, fun hput => ?_,
      fun hs => ?_, ?_, ?_, fun hs => ?_, fun hs => ?_, ?_, ?_, ?_, ?_, fun hs => ?_, fun hs => ?_, fun hs r hr => ?_,
      fun k m hk hm => ?_, ?_, hotherport, ?_, ?_⟩
    · rw [hset hs]
      exact ⟨rfl, rfl, settingPayload_packet hs st.x st.y⟩
    · show sh.kind = _
      rw [hseg (by rw [hget]; rfl), (segmentShape_fields _ _ _).1]
      exact if_pos hget
    · have hkind : sh.kind = segmentKind st.kind (s.ownStream i c.tile) := by
        rw [hseg (by rw [hput]; rfl)]
        exact (segmentShape_fields _ _ _).1
      have hnot : st.kind ≠ .get := by rw [hput]; nofun
      unfold segmentKind at hkind
      rw [if_neg hnot] at hkind
      refine ⟨fun hown => ?_, fun r hown => ?_⟩
      · rw [hown] at hkind
        exact hkind
      · rw [hown] at hkind
        exact hkind
    · obtain ⟨hkind, -, -, -, -, hfirst, hpixels, hpayload⟩ :=
        segmentShape_fields st (s.ownStream i c.tile) ((s.staged i c.tile).getD [])
      rw [← hseg hs] at hkind hfirst hpixels hpayload
      rw [← hkind, ← hpixels] at hpayload
      obtain ⟨hhigh, hoffset, hcount, hformat⟩ := pixelControl_fields st.format
        (if sh.kind = .pixSeek ∨ sh.kind = .pixRead then sentPixels (s.ownStream i c.tile) else 0) sh.pixels
      refine ⟨_, _, hpayload, hhigh, hoffset.trans ?_, hcount, hformat, fun hget => ?_, fun hput q hq => ?_⟩
      · show _ = if sh.kind = .pixSeek ∨ sh.kind = .pixRead then sh.first / 128 % 2 ^ 17 else 0
        rw [hfirst]
        split <;> rfl
      · have hread : sh.kind = .pixRead := hkind.trans (if_pos hget)
        exact if_pos hread
      · have hread : sh.kind ≠ .pixRead := by
          rw [hkind]
          unfold segmentKind
          rw [if_neg (by rw [hput]; nofun)]
          split
          · nofun
          · split <;> nofun
        rw [if_neg hread]
        exact State.staged_words hj hq ((hgates hs).2 hput)
    · show sh.x = st.x
      cases hs : st.kind.isStream with
      | true => rw [hseg hs]; exact (segmentShape_fields _ _ _).2.2.1
      | false => rw [hset hs]; rfl
    · show sh.y = st.y
      cases hs : st.kind.isStream with
      | true => rw [hseg hs]; exact (segmentShape_fields _ _ _).2.2.2.1
      | false => rw [hset hs]; rfl
    · show sh.format = st.format
      rw [hseg hs]
      exact (segmentShape_fields _ _ _).2.2.2.2.1
    · obtain ⟨-, honFrame, -, -, -, hfirst, hpixels, -⟩ :=
        segmentShape_fields st (s.ownStream i c.tile) ((s.staged i c.tile).getD [])
      rw [← hseg hs] at honFrame hfirst hpixels
      obtain ⟨howner, hbroken⟩ := streamAfterIssue_fields (s := s) (i := i) (k := st.kind) (x := c.tile) sh.pixels
      refine ⟨honFrame, hfirst, hpixels, _, ?_, howner, sent_streamAfterIssue _ _ _, hbroken⟩
      rw [htile, if_pos rfl, hs, if_pos rfl]
    · refine congrArg (fun n => some (plusMs s.now (s.settings.replyMs + n))) (if_congr Iff.rfl ?_ rfl)
      cases (s.tile c.tile).geometry <;> rfl
    · rw [htile, if_pos rfl]
      split
      · exact ((s.tile c.tile).sentTo_fields _ _).1
      · exact ((s.tile c.tile).sentTo_fields _ _).1
    · rw [htile, if_pos rfl]
      split
      · exact ((s.tile c.tile).sentTo_fields _ _).2
      · exact ((s.tile c.tile).sentTo_fields _ _).2
    · exact fun u hu => (htile u).trans (if_neg hu.symm)
    · exact (hjob i).trans (hsettingjob hs)
    · refine (hjob i).trans ((hstreamjob hs).trans (congrArg some ?_))
      refine congrArg (fun f => ({ j.setPart c.tile f with outstanding := j.outstanding + 1 } : Job)) ?_
      funext q
      unfold TilePart.afterSegment
      simp only [decide_eq_true_eq]
      rfl
    · have howner : (Owner.job i j.current).slot? = some i := rfl
      obtain ⟨hbreaks, hstays⟩ := TileEntry.sentTo_stream (.job i j.current) sh.kind hr
      rw [howner] at hbreaks hstays
      rw [htile, if_pos rfl, hs, if_neg Bool.false_ne_true]
      exact ⟨fun hput hne => hbreaks hput fun h => hne (Option.some.inj h).symm,
        fun h => hstays (h.imp_right fun h => congrArg some h.symm)⟩
    · have hheld := hotherjob k hk
      have hcandidate : m.wakeCandidate c.tile = true ↔ s.WantsWake k c.tile := by
        rw [← State.wakeCandidate_of_job hm, State.wakeCandidate_iff]
      refine ⟨fun hwake hwants => ?_, fun h => ?_⟩
      · rw [if_pos hwake] at hheld
        exact (hjob k).trans ((State.job_of_mapSlot hheld hm).trans (congrArg some (if_pos (hcandidate.2 hwants))))
      · by_cases hwake : st.kind = .wake
        · rw [if_pos hwake] at hheld
          refine (hjob k).trans ((State.job_of_mapSlot hheld hm).trans (congrArg some (if_neg fun hc => ?_)))
          exact h.elim (fun h => h hwake) fun h => h (hcandidate.1 hc)
        · rw [if_neg hwake] at hheld
          exact (hjob k).trans ((State.job_of_slot hheld).trans hm)
    · have hhistory : t.wakeHistory = if decide (st.kind = .wake) = true then s.wakeHistory ++ [s.now] else s.wakeHistory :=
        (congrArg State.wakeHistory hfields :)
      rw [hhistory]
      simp only [decide_eq_true_eq]
    · exact (congrArg State.engine hfields :)
    · exact (congrArg State.settings hfields :)

end Sys2Proof.Machine
end

section
/-! ABORT_x: the walker halts, the jobs of its chain are aborted, and their WAITs leave the wait list (R40, R65). -/

namespace Sys2Proof.Machine

/-! ## The abort of a chain's jobs -/

/-- What ABORT_x makes of a slot (R65). -/
def Slot.abortOn (c : Chain) (fatal : Bool) (now : Word) (inFlight : TileNum → Bool) (v : Slot) : Slot :=
  match v.job? with
  | some j => if j.chain = c then v.abort fatal now inFlight else v
  | none => v

theorem Slot.abortOn_same {c : Chain} {j : Job} (h : j.chain = c) (fatal : Bool) (now : Word) (f : TileNum → Bool) :
    (Slot.job j).abortOn c fatal now f = (Slot.job j).abort fatal now f := if_pos h

theorem Slot.abortOn_other {c : Chain} {v : Slot} (h : ∀ j, v.job? = some j → j.chain ≠ c) (fatal : Bool) (now : Word)
    (f : TileNum → Bool) : v.abortOn c fatal now f = v := by
  cases v with
  | job j => exact if_neg (h j rfl)
  | _ => rfl

/-- One slot's turn in the abort of a chain. -/
def State.abortTurn (c : Chain) (s : State) (i : SlotNum) : State :=
  match s.job i with
  | some j => if j.chain = c then s.abortJob i else s
  | none => s

theorem State.abortChain_eq (s : State) (c : Chain) : s.abortChain c = allSlots.foldl (State.abortTurn c) s := rfl

/-- The WAIT or PAUSE of the slot's job ends with an abort of chain `c`. -/
def State.abortsWait (s : State) (c : Chain) (i : SlotNum) : Bool :=
  match s.job i with
  | some j => decide (j.chain = c) && decide (j.phase = .running)
  | none => false

theorem State.abortTurn_cases (s : State) (c : Chain) (i : SlotNum) :
    (∃ j, s.job i = some j ∧ j.chain = c ∧ s.abortTurn c i = s.abortJob i) ∨
      (∀ j, s.job i = some j → j.chain ≠ c) ∧ s.abortTurn c i = s := by
  unfold State.abortTurn
  split
  · next j hj =>
    rw [hj]
    split
    · next h => exact .inl ⟨j, rfl, h, by rfl⟩
    · next h => exact .inr ⟨fun k hk => by cases hk; exact h, by rfl⟩
  · next hj => exact .inr ⟨fun k hk => (by rw [hj] at hk; cases hk), by rfl⟩

theorem State.slot_abortTurn (s : State) (c : Chain) (i k : SlotNum) : (s.abortTurn c i).slot k =
    if i = k then (s.slot i).abortOn c s.fatal s.now (s.hasInFlight i) else s.slot k := by
  rcases s.abortTurn_cases c i with ⟨j, hj, hchain, h⟩ | ⟨hother, h⟩
  · rw [h, State.slot_abortJob, State.slot_of_job hj, Slot.abortOn_same hchain]
  · rw [h, Slot.abortOn_other hother]
    split
    · next e => rw [e]
    · rfl

theorem State.abortView_abortTurn (s : State) (c : Chain) (i : SlotNum) : (s.abortTurn c i).abortView = s.abortView := by
  rcases s.abortTurn_cases c i with ⟨j, -, -, h⟩ | ⟨-, h⟩
  · rw [h, State.abortView_abortJob]
  · rw [h]

theorem State.slot_abortChain (s : State) (c : Chain) (k : SlotNum) :
    (s.abortChain c).slot k = (s.slot k).abortOn c s.fatal s.now (s.hasInFlight k) := by
  rw [State.abortChain_eq]
  refine State.slot_foldl (P := fun u => u.abortView = s.abortView)
    (F := fun i v => v.abortOn c s.fatal s.now (s.hasInFlight i)) (fun u i h => (u.abortView_abortTurn c i).trans h)
    (fun u i h k => ?_) rfl k
  simp only [State.abortView, Prod.mk.injEq] at h
  obtain ⟨hfatal, hnow, hin⟩ := h
  rw [State.slot_abortTurn, hfatal, hnow, hin]

theorem State.notice_abortChain (s : State) (c : Chain) : (s.abortChain c).notice = s.notice := by
  rw [State.abortChain_eq]
  refine foldl_keeps State.notice (fun u i => ?_) allSlots s
  rcases u.abortTurn_cases c i with ⟨j, -, -, h⟩ | ⟨-, h⟩
  · rw [h, State.notice_abortJob]
  · rw [h]

theorem State.tiles_abortChain (s : State) (c : Chain) : (s.abortChain c).tiles = s.tiles := by
  rw [State.abortChain_eq]
  refine foldl_keeps State.tiles (fun u i => ?_) allSlots s
  rcases u.abortTurn_cases c i with ⟨j, -, -, h⟩ | ⟨-, h⟩
  · rw [h, State.tiles_abortJob]
  · rw [h]

/-! ## The wait list -/

theorem State.waitList_abortJob {s : State} {i : SlotNum} {j : Job} (hj : s.job i = some j) : (s.abortJob i).waitList =
    if j.phase = .running then s.waitList.filter (fun w => decide (w.slot ≠ i)) else s.waitList := by
  unfold State.abortJob
  rw [hj]
  dsimp only
  cases hp : j.phase with
  | running => simp [State.enterDraining, State.dropWait]
  | queued => simp
  | draining => simp
  | retiring r => rfl

theorem State.waitList_abortTurn (s : State) (c : Chain) (i : SlotNum) : (s.abortTurn c i).waitList =
    s.waitList.filter fun w => !(decide (w.slot = i) && s.abortsWait c i) := by
  rcases s.abortTurn_cases c i with ⟨j, hj, hchain, h⟩ | ⟨hother, h⟩
  · rw [h, State.waitList_abortJob hj, State.abortsWait, hj]
    dsimp only
    by_cases hrun : j.phase = .running <;> simp [hchain, hrun]
  · have hnone : s.abortsWait c i = false := by
      unfold State.abortsWait
      split
      · next j hj => rw [decide_eq_false (hother j hj), Bool.false_and]
      · rfl
    rw [h, hnone]
    simp

theorem State.abortsWait_abortTurn (s : State) (c : Chain) (i k : SlotNum) :
    (s.abortTurn c i).abortsWait c k = (decide (k ≠ i) && s.abortsWait c k) := by
  unfold State.abortsWait State.job
  rw [State.slot_abortTurn]
  by_cases hik : i = k
  · subst hik
    rw [if_pos rfl, decide_eq_false (not_not.2 rfl), Bool.false_and]
    split
    · next j hj =>
      by_cases hchain : j.chain = c
      · have hstop : j.phase ≠ .running := fun hrun => by
          cases hv : s.slot i with
          | job m =>
            rw [hv] at hj
            by_cases hm : m.chain = c
            · rw [Slot.abortOn_same hm] at hj
              have := Slot.not_running_abort hj
              rw [hrun] at this
              cases this
            · rw [Slot.abortOn_other (fun k hk => by cases hk; exact hm)] at hj
              cases hj
              exact hm hchain
          | _ =>
            rw [hv] at hj
            cases hj
        rw [decide_eq_false hstop, Bool.and_false]
      · rw [decide_eq_false hchain, Bool.false_and]
    · rfl
  · rw [if_neg hik, decide_eq_true (Ne.symm hik), Bool.true_and]

theorem State.waitList_foldl_abortTurn (c : Chain) (l : List SlotNum) (s : State) : (l.foldl (State.abortTurn c) s).waitList =
    s.waitList.filter fun w => !(decide (w.slot ∈ l) && s.abortsWait c w.slot) := by
  induction l generalizing s with
  | nil => simp
  | cons i l ih =>
    rw [List.foldl_cons, ih, State.waitList_abortTurn, List.filter_filter]
    refine List.filter_congr fun w _ => ?_
    rw [State.abortsWait_abortTurn]
    by_cases hw : w.slot = i
    · simp [hw]
    · simp [hw]

theorem State.waitList_abortChain (s : State) (c : Chain) :
    (s.abortChain c).waitList = s.waitList.filter fun w => !s.abortsWait c w.slot := by
  rw [State.abortChain_eq, State.waitList_foldl_abortTurn]
  exact List.filter_congr fun w _ => by rw [decide_eq_true (mem_allSlots w.slot), Bool.true_and]

/-! ## What becomes of the jobs -/

theorem Phase.ne_running {p : Phase} (h : p.isRunning = false) : p ≠ .running := by
  rintro rfl
  cases h

theorem State.job_of_slot_eq {s : State} {i : SlotNum} {j : Job} (h : s.slot i = .job j) : s.job i = some j := by
  rw [State.job, h]
  rfl

theorem withdrawPart_kept {b : Bool} {q q' : TilePart} (h : withdrawPart b q = some q') :
    q'.tile = q.tile ∧ q'.cond ≠ .candidate ∧ q'.cond ≠ .waiting ∧ q'.cond ≠ .joined ∧
      (q'.cond.hasFailed = true → q' = q) := by
  unfold withdrawPart at h
  split at h
  case h_1 => cases h; cases b <;> simp [PartCond.hasFailed]
  case h_2 => cases h
  case h_3 => cases h
  case h_4 hc => cases h; simp [hc, PartCond.hasFailed]
  case h_5 hc => cases h; simp [hc]
  case h_6 hc => cases h; simp [hc]
  case h_7 hc => cases h; simp [hc, PartCond.hasFailed]

theorem settlePart_kept {b : Bool} {q q' : TilePart} (h : settlePart b q = some q') :
    q'.cond = .draining ∨ q' = q := by
  unfold settlePart at h
  repeat' split at h
  · cases h; exact .inl rfl
  · cases h
  · cases h; exact .inr rfl

theorem settlePart_of_not_failed {b : Bool} {q : TilePart} (h : q.cond.hasFailed = false) : settlePart b q = some q := by
  unfold settlePart
  rw [if_neg (by rw [h]; exact Bool.false_ne_true)]

/-- The parts of an aborted job: a candidate stays pending, and a part that waited or had joined ends (R36). -/
theorem Job.parts_tidy_withdrawn {f : TileNum → Bool} {ps : List TilePart} {j : Job}
    (hp : j.parts = ps.filterMap fun q => withdrawPart (f q.tile) q) :
    (∀ q ∈ ps, q.cond = .candidate → ⟨q.tile, if f q.tile then .issued else .withdrawn, .empty⟩ ∈ (j.tidy f).parts) ∧
      ∀ q ∈ (j.tidy f).parts, q.cond ≠ .candidate ∧ q.cond ≠ .waiting ∧ q.cond ≠ .joined := by
  refine ⟨fun q hq hcand => ?_, fun q hq => ?_⟩
  · refine List.mem_filterMap.2 ⟨_, hp ▸ List.mem_filterMap.2 ⟨q, hq, ?_⟩, settlePart_of_not_failed ?_⟩
    · cases f q.tile <;> rfl
    · unfold withdrawPart
      rw [hcand]
  · obtain ⟨q₁, hq₁, hset⟩ := List.mem_filterMap.1 hq
    rcases settlePart_kept hset with h | rfl
    · rw [h]
      exact ⟨PartCond.noConfusion, PartCond.noConfusion, PartCond.noConfusion⟩
    · rw [hp] at hq₁
      obtain ⟨q₂, -, hw⟩ := List.mem_filterMap.1 hq₁
      obtain ⟨-, hcand, hwait, hjoin, -⟩ := withdrawPart_kept hw
      exact ⟨hcand, hwait, hjoin⟩

/-- What the event of an abort leaves of an aborted job. -/
structure Aborted (s : State) (i : SlotNum) (j j' : Job) : Prop where
  queued : j.phase = .queued → ∃ r, j'.phase = .retiring r ∧ r.terminal = .aborted ∧ r.stepsDone = j.stepsDone ∧
    r.endedAt = s.now
  running : j.phase = .running → j'.phase = .draining ∧ j'.abortRequested = true ∧
    j'.firstFailure = some (j.firstFailure.getD ⟨.aborted, j.current, none⟩) ∧ j'.stepsDone = j.stepsDone ∧
    j'.pauseDue = none ∧
    (∀ q ∈ j.parts, q.cond = .candidate →
      ⟨q.tile, if s.hasInFlight i q.tile then .issued else .withdrawn, .empty⟩ ∈ j'.parts) ∧
    ∀ q ∈ j'.parts, q.cond ≠ .candidate ∧ q.cond ≠ .waiting ∧ q.cond ≠ .joined
  draining : j.phase = .draining → j'.phase = .draining ∧ j'.abortRequested = true ∧ j'.firstFailure = j.firstFailure
  retiring : ∀ r, j.phase = .retiring r → j'.phase = .retiring r

/-- The abort of a job, and the end of its event (R40). -/
theorem aborted_tidy (s : State) (i : SlotNum) (j : Job) :
    ∃ k, (Slot.job j).abort false s.now (s.hasInFlight i) = .job k ∧ k.phase.isRunning = false ∧
      Aborted s i j (k.tidy (s.hasInFlight i)) := by
  cases hp : j.phase with
  | queued =>
    exact ⟨_, Slot.abort_queued hp, rfl, fun _ => ⟨_, rfl, rfl, rfl, rfl⟩, by rw [hp]; nofun, by rw [hp]; nofun,
      by rw [hp]; nofun⟩
  | running =>
    obtain ⟨hcand, hkept⟩ := Job.parts_tidy_withdrawn (f := s.hasInFlight i) (ps := j.parts)
      (j := { j with
        abortRequested := true, firstFailure := some (j.firstFailure.getD ⟨.aborted, j.current, none⟩),
        phase := .draining, pauseDue := none, engineDone := false,
        parts := j.parts.filterMap fun q => withdrawPart (s.hasInFlight i q.tile) q }) rfl
    exact ⟨_, Slot.abort_running hp, rfl, by rw [hp]; nofun, fun _ => ⟨rfl, rfl, rfl, rfl, rfl, hcand, hkept⟩,
      by rw [hp]; nofun, by rw [hp]; nofun⟩
  | draining =>
    exact ⟨_, Slot.abort_draining hp, congrArg Phase.isRunning hp, by rw [hp]; nofun, by rw [hp]; nofun,
      fun _ => ⟨hp, rfl, rfl⟩, by rw [hp]; nofun⟩
  | retiring r =>
    exact ⟨_, Slot.abort_retiring hp, congrArg Phase.isRunning hp, by rw [hp]; nofun, by rw [hp]; nofun, by rw [hp]; nofun,
      fun _ h => h⟩

/-- The job of a slot whose job does not run when the event ends. -/
theorem job_finish_of_not_running {before u : State} {i : SlotNum} {k : Job}
    (hstates : ∀ x, (before.tile x).state = (u.tile x).state) (hk : u.job i = some k) (hstop : k.phase.isRunning = false) :
    (finish before u).job i = some (k.tidy (u.hasInFlight i)) := by
  rw [← Job.resolve_of_not_running hstop]
  have hrun : (k.resolve (u.hasInFlight i)).phase.isRunning = false := by
    rw [Job.resolve_of_not_running hstop]
    exact hstop
  obtain ⟨hover, hengine⟩ := Job.stepOver_of_not_running (Phase.ne_running hrun)
  exact job_finish_of_not_over (job_resolved (by rwa [State.rejudgeChanged_eq_self hstates])) hover hengine

/-- An abort of parts that are as an event leaves them leaves them so. -/
theorem Slot.settled_abort {fatal : Bool} {now : Word} {f : TileNum → Bool} {j k : Job} (hj : j.Settled f)
    (hk : ((Slot.job j).abort fatal now f).job? = some k) : k.Settled f := by
  cases hp : j.phase with
  | queued =>
    rw [Slot.abort_queued hp] at hk
    split at hk <;> cases hk
    exact fun q hq => absurd hq List.not_mem_nil
  | running =>
    rw [Slot.abort_running hp] at hk
    cases hk
    intro q hq hfail
    obtain ⟨q₁, hq₁, hw⟩ := List.mem_filterMap.1 hq
    obtain ⟨-, -, -, -, hsame⟩ := withdrawPart_kept hw
    cases hsame hfail
    exact hj q hq₁ hfail
  | draining =>
    rw [Slot.abort_draining hp] at hk
    cases hk
    exact hj.of_parts rfl
  | retiring r =>
    rw [Slot.abort_retiring hp] at hk
    cases hk
    exact hj

/-! ## The command -/

section
variable {s u : State} {c : Chain}

/-- What ABORT_x does before its event ends, in a RUNNING engine. -/
structure ChainAborted (s : State) (c : Chain) (u : State) : Prop where
  fixed : u.fixed = s.fixed
  walker : ∀ d, u.walker d = (s.haltWalker c .aborted).walker d
  chain : u.notice.chain = (s.haltWalker c .aborted).notice.chain
  tiles : u.tiles = s.tiles
  slot : ∀ k, u.slot k = (s.slot k).abortOn c false s.now (s.hasInFlight k)
  waitList : u.waitList = s.waitList.filter fun w => !s.abortsWait c w.slot

theorem State.slot_haltWalker_aborted (s : State) (c : Chain) (k : SlotNum) :
    (s.haltWalker c .aborted).slot k = s.slot k := by
  by_cases h : s.engine ≠ .running ∨ (s.walker c).state = .halted
  · rw [State.haltWalker_eq_self s c h]
  · obtain ⟨hrun, hne⟩ := not_or.1 h
    rw [State.slot_haltWalker (not_not.1 hrun) hne, if_pos rfl]

theorem chainAborted (hrun : s.engine = .running) (c : Chain) :
    ChainAborted s c ((s.haltWalker c .aborted).abortChain c) := by
  have hframe := frame_haltWalker s c .aborted
  have hslot := s.slot_haltWalker_aborted c
  have hfatal : (s.haltWalker c .aborted).fatal = false := by
    unfold State.fatal
    rw [hframe.engine, hrun]
    rfl
  refine ⟨(State.fixed_abortChain _ c).trans hframe.fixed, fun d => State.walker_of_body (State.body_abortChain _ c) d,
    by rw [State.notice_abortChain], (State.tiles_abortChain _ c).trans hframe.tiles, fun k => ?_, ?_⟩
  · rw [State.slot_abortChain, hslot, hfatal, hframe.now,
      show (s.haltWalker c .aborted).hasInFlight k = s.hasInFlight k from
        funext fun x => State.hasInFlight_of_ports hframe.ports k x]
  · rw [State.waitList_abortChain, hframe.waitList]
    refine List.filter_congr fun w _ => ?_
    unfold State.abortsWait State.job
    rw [hslot]

namespace ChainAborted

theorem states (h : ChainAborted s c u) (x : TileNum) : (s.tile x).state = (u.tile x).state := by
  rw [State.tile_of_tiles h.tiles]

theorem hasInFlight (h : ChainAborted s c u) (i : SlotNum) : u.hasInFlight i = s.hasInFlight i :=
  funext fun x => State.hasInFlight_of_ports (State.ports_of_fixed h.fixed) i x

/-- A job of the other chain is as it was before the event ends. -/
theorem job_other (h : ChainAborted s c u) {i : SlotNum} {j : Job} (hj : s.job i = some j) (hc : j.chain ≠ c) :
    u.job i = some j := by
  have hslot := h.slot i
  rw [State.slot_of_job hj, Slot.abortOn_other (by rintro k ⟨⟩; exact hc)] at hslot
  exact State.job_of_slot_eq hslot

theorem job_aborted (h : ChainAborted s c u) {i : SlotNum} {j : Job} (hj : s.job i = some j) (hc : j.chain = c) :
    ∃ j', (finish s u).job i = some j' ∧ Aborted s i j j' := by
  obtain ⟨k, hk, hstop, haborted⟩ := aborted_tidy s i j
  have hslot := h.slot i
  rw [State.slot_of_job hj, Slot.abortOn_same hc, hk] at hslot
  refine ⟨_, job_finish_of_not_running h.states (State.job_of_slot_eq hslot) hstop, ?_⟩
  rw [h.hasInFlight]
  exact haborted

/-- A job of the state before the event, or one that has been aborted. -/
theorem job_cases (h : ChainAborted s c u) {i : SlotNum} {k : Job} (hk : u.job i = some k) :
    s.job i = some k ∨ ∃ j, s.job i = some j ∧ ((Slot.job j).abort false s.now (s.hasInFlight i)).job? = some k := by
  have hslot := h.slot i
  unfold State.job at hk ⊢
  rw [hslot] at hk
  cases hv : s.slot i with
  | job j =>
    rw [hv] at hk
    by_cases hc : j.chain = c
    · rw [Slot.abortOn_same hc] at hk
      exact .inr ⟨j, rfl, hk⟩
    · rw [Slot.abortOn_other (by rintro m ⟨⟩; exact hc)] at hk
      exact .inl hk
  | _ =>
    rw [hv] at hk
    cases hk

theorem settled (h : ChainAborted s c u) (hs : s.Settled) : u.Settled := fun i k hk => by
  rw [h.hasInFlight]
  rcases h.job_cases hk with hk | ⟨j, hj, hk⟩
  · exact hs i k hk
  · exact Slot.settled_abort (hs i j hj) hk

theorem ready (h : ChainAborted s c u) (hs : s.readySlots = []) : u.readySlots = [] := by
  refine List.eq_nil_iff_forall_not_mem.2 fun i hi => ?_
  obtain ⟨k, hk, hover⟩ := State.mem_readySlots.1 hi
  rcases h.job_cases hk with hk | ⟨j, -, hk⟩
  · have := State.mem_readySlots.2 ⟨k, hk, hover⟩
    rw [hs] at this
    cases this
  · rw [(Job.stepOver_of_not_running (Phase.ne_running (Slot.not_running_abort hk))).1] at hover
    cases hover

/-- Between two events the other slots stay as they are, and the WAITs of the aborted jobs leave the wait list. -/
theorem quiet (h : ChainAborted s c u) (hq : Quiet s) :
    (∀ i, (∀ j, s.job i = some j → j.chain ≠ c) → (finish s u).slot i = s.slot i) ∧
      (finish s u).waitList = s.waitList.filter fun w => !s.abortsWait c w.slot := by
  have hsettle := settle_of_still h.states (h.settled hq.settled) (h.ready hq.ready)
  refine ⟨fun i hi => ?_, ?_⟩
  · rw [State.slot_of_slots (slots_finish_of_still h.states (h.settled hq.settled) (h.ready hq.ready)), h.slot]
    exact Slot.abortOn_other hi _ _ _
  · rw [finish, waitList_commit, hsettle, State.waitList_closeStreams, h.waitList]

end ChainAborted

end

/-- Settles O21. -/
theorem abortsAct : Obligations.AbortsAct := by
  unfold Obligations.AbortsAct
  intro s c hlow hrun
  have heffect : s.abortCommand c = finish s ((s.haltWalker c .aborted).abortChain c) :=
    if_pos (by rw [State.inRunning, hrun]; rfl)
  have hu := chainAborted hrun c
  generalize (s.haltWalker c .aborted).abortChain c = u at heffect hu
  have hframe : EventFrame u (finish s u) := finish_frame s u
  have hwalker (d : Chain) : (finish s u).walker d = (s.haltWalker c .aborted).walker d :=
    (hframe.walker d).trans (hu.walker d)
  have hchain : (finish s u).notice.chain = (s.haltWalker c .aborted).notice.chain := hframe.chain.trans hu.chain
  have hengine : u.engine = .running := (State.engine_of_fixed hu.fixed).trans hrun
  have hfatal : u.fatal = false := by
    unfold State.fatal
    rw [hengine]
    rfl
  have hhalts (hne : (s.walker c).state ≠ .halted) : (finish s u).walker c = (s.walker c).halt s.now .aborted :=
    (hwalker c).trans (State.walker_haltWalker hrun hne)
  have hself (hhalt : (s.walker c).state = .halted) : (finish s u).walker c = s.walker c := by
    rw [hwalker, State.haltWalker_eq_self s c (.inr hhalt)]
  refine ⟨finish s u, ?_, hframe.engine.trans hengine, hframe.fault.trans (State.fault_of_fixed hu.fixed),
    hframe.settings.trans (State.settings_of_fixed hu.fixed), hframe.portA.trans (State.portA_of_fixed hu.fixed),
    hframe.portB.trans (State.portB_of_fixed hu.fixed),
    hframe.wakeHistory.trans (congrArg State.wakeHistory hu.fixed :), ?_, ?_, fun hne => ?_,
    fun hhalt => ⟨hself hhalt, ?_⟩, ?_, fun i j hj hc => ?_, fun i j hj hc => hframe.taken hfatal (hu.job_other hj hc),
    fun hq => ?_⟩
  · rw [← heffect]
    cases c
    · exact exec_of_high hlow rfl
    · exact exec_of_high hlow rfl
  · by_cases hhalt : (s.walker c).state = .halted
    · rw [hself hhalt, hhalt]
    · rw [hhalts hhalt]
      rfl
  · rw [hwalker]
    exact (State.park_haltWalker s c .aborted).1
  · rw [hhalts hne, hchain]
    refine ⟨rfl, rfl, rfl, State.notice_haltWalker hrun hne, fun d o hheld => Walker.halt_held hheld s.now .aborted,
      fun hnone => ?_⟩
    unfold Walker.halt
    dsimp only
    split
    · next d o hheld => exact absurd hheld (hnone d o)
    · rfl
  · rw [hchain, State.haltWalker_eq_self s c (.inr hhalt)]
  · rw [hwalker, (frame_haltWalker s c .aborted).other]
  · obtain ⟨j', hj', h⟩ := hu.job_aborted hj hc
    exact ⟨j', hj', h.queued, h.running, h.draining, h.retiring⟩
  · obtain ⟨hslots, hwaits⟩ := hu.quiet hq
    refine ⟨hslots, hwaits.trans (List.filter_congr fun w _ => ?_)⟩
    unfold State.abortsWait
    cases s.job w.slot <;> rfl

end Sys2Proof.Machine
end

section
/-! Record changes: every event that leaves a record showing other values marks it, or adds its tile to TILECHG (R18, R21). -/

namespace Sys2Proof.Machine

/-! ## A record change that an event has noted -/

/-- The record change of tile `x` stands: it is marked while rewrites are made, and in TILECHG at any other time (R18). -/
def State.changeNoted (s : State) (x : TileNum) : Prop :=
  (s.marksRewrites = true → (s.record x).markChange = true) ∧
    (s.marksRewrites = false → s.tileChg.getLsbD x.val = true ∧ s.notice.tile = true)

/-- Between the two states every record change has been noted. -/
def Noted (s t : State) : Prop := ∀ x, (s.tile x).view ≠ (t.tile x).view → t.changeNoted x

theorem EventFrame.marksRewrites {s t : State} (h : EventFrame s t) : t.marksRewrites = s.marksRewrites := by
  unfold State.marksRewrites
  rw [h.settings, h.engine, h.fatal]

theorem EventFrame.changeNoted {s t : State} (h : EventFrame s t) {x : TileNum} (hs : s.changeNoted x) : t.changeNoted x := by
  obtain ⟨hmark, hjoin⟩ := hs
  unfold State.changeNoted
  rw [h.marksRewrites]
  exact ⟨fun hm => h.mark x (hmark hm), fun hm => ⟨h.chg x.val (hjoin hm).1, h.tileNotice (hjoin hm).2⟩⟩

theorem State.changeNoted_recordChange (s : State) (x : TileNum) : (s.recordChange x).changeNoted x := by
  unfold State.changeNoted
  rw [(s.recordChange_frame x).marksRewrites]
  exact s.recordChange_marks x

theorem State.tiles_recordChange (s : State) (x : TileNum) : (s.recordChange x).tiles = s.tiles := by
  unfold State.recordChange
  split <;> rfl

/-- One tile's turn in the search for record changes. -/
def State.noteTurn (before s : State) (x : TileNum) : State :=
  if (before.tile x).view = (s.tile x).view then s else s.recordChange x

theorem State.noteRecordChanges_turns (before s : State) :
    State.noteRecordChanges before s = allTiles.foldl (State.noteTurn before) s := rfl

theorem State.noteTurn_frame (before s : State) (x : TileNum) : EventFrame s (State.noteTurn before s x) := by
  unfold State.noteTurn
  split
  · exact EventFrame.refl s
  · exact s.recordChange_frame x

theorem State.tiles_noteTurn (before s : State) (x : TileNum) : (State.noteTurn before s x).tiles = s.tiles := by
  unfold State.noteTurn
  split
  · rfl
  · exact s.tiles_recordChange x

theorem State.changeNoted_noteTurns {before : State} {x : TileNum} (l : List TileNum) (s : State) (hx : x ∈ l)
    (hview : (before.tile x).view ≠ (s.tile x).view) : (l.foldl (State.noteTurn before) s).changeNoted x := by
  induction l generalizing s with
  | nil => cases hx
  | cons y l ih =>
    rw [List.foldl_cons]
    by_cases hy : x = y
    · subst hy
      have hturn : State.noteTurn before s x = s.recordChange x := if_neg hview
      rw [hturn]
      exact (EventFrame.foldl (State.noteTurn_frame before) l _).changeNoted (s.changeNoted_recordChange x)
    · refine ih _ ((List.mem_cons.1 hx).resolve_left hy) ?_
      rwa [State.tile_of_tiles (State.tiles_noteTurn before s y)]

/-- The end of an event notes each record change. -/
theorem noted_commit (s u : State) : Noted s (commit s u) := by
  intro x hview
  rw [State.tile_commit] at hview
  have hnoted : (State.noteRecordChanges s (State.keepStoppedReads s u)).changeNoted x :=
    State.changeNoted_noteTurns allTiles _ (mem_allTiles x) hview
  unfold commit
  dsimp only
  split
  · exact (State.examineWakes_frame _).changeNoted hnoted
  · exact hnoted

theorem noted_finish (s u : State) : Noted s (finish s u) := noted_commit s _

theorem Noted.of_views {s t : State} (h : ∀ x, (t.tile x).view = (s.tile x).view) : Noted s t := fun x hx =>
  absurd (h x).symm hx

theorem Noted.of_tiles {s t : State} (h : t.tiles = s.tiles) : Noted s t := .of_views fun x => by
  rw [State.tile_of_tiles h]

theorem Noted.refl (s : State) : Noted s s := .of_tiles rfl

/-- Noted by an event that began with the same views. -/
theorem Noted.of_before {s u t : State} (h : Noted u t) (hu : u.tiles = s.tiles) : Noted s t := fun x hx =>
  h x (by rwa [State.tile_of_tiles hu])

/-- Noted through what an event may still do after. -/
theorem Noted.trans_frame {s u t : State} (h : Noted s u) (hf : EventFrame u t) (ht : t.tiles = u.tiles) : Noted s t :=
  fun x hx => hf.changeNoted (h x (by rwa [State.tile_of_tiles ht] at hx))

/-! ## Rows that end no event -/

theorem State.view_modTile {s : State} {t : TileNum} (f : TileEntry → TileEntry) (hf : (f (s.tile t)).view = (s.tile t).view)
    (x : TileNum) : ((s.modTile t f).tile x).view = (s.tile x).view := by
  rw [State.tile_modTile]
  split
  · next h => rw [hf, h]
  · rfl

theorem State.view_sleepGateOpen (s : State) (t x : TileNum) :
    ((sleepGateOpenEffect t s).tile x).view = (s.tile x).view := by
  unfold sleepGateOpenEffect
  split
  · exact State.view_modTile _ rfl x
  · rfl

theorem State.view_readyGateOpen (s : State) (t x : TileNum) :
    ((readyGateOpenEffect t s).tile x).view = (s.tile x).view := by
  unfold readyGateOpenEffect
  split
  · exact State.view_modTile _ rfl x
  · rfl

theorem State.view_latchGates (s : State) (x : TileNum) : (s.latchGates.tile x).view = (s.tile x).view :=
  foldl_keeps (fun s => (s.tile x).view)
    (fun s t => ((State.view_readyGateOpen (sleepGateOpenEffect t s) t x).trans (s.view_sleepGateOpen t x))) allTiles s

theorem State.view_takeSettings (s : State) (st : Settings) (x : TileNum) :
    ((s.takeSettings st).tile x).view = (s.tile x).view := by
  have h := s.view_latchGates x
  unfold State.takeSettings
  dsimp only
  generalize s.latchGates = u at h ⊢
  rw [State.tile_of_tiles (State.tiles_markAllRecords _)]
  exact h

theorem State.tiles_modWalker (s : State) (c : Chain) (f : Walker → Walker) : (s.modWalker c f).tiles = s.tiles :=
  (WalkerFrame.modWalker c s f).tiles

theorem State.presentAfterIssue_frame (s : State) (p : PortId) (c : Cand) : EventFrame s (s.presentAfterIssue p c) := by
  unfold State.presentAfterIssue
  split
  · exact s.examineWakes_frame
  · split
    · split
      · exact ⟨rfl, fun _ => rfl, fun _ => rfl, fun _ => id, fun _ => id, id, fun _ _ => rfl, fun _ _ => rfl,
          fun _ j h _ => ⟨j, h, rfl⟩, id, id, [], (List.append_nil _).symm⟩
      · exact EventFrame.refl s
    · exact EventFrame.refl s

theorem State.tiles_presentAfterIssue (s : State) (p : PortId) (c : Cand) : (s.presentAfterIssue p c).tiles = s.tiles := by
  unfold State.presentAfterIssue
  repeat' split
  all_goals rfl

/-! ## Every row but the resets notes its record changes -/

theorem State.tiles_beginRescan (s : State) (c : Chain) : (s.beginRescan c).tiles = s.tiles := s.tiles_modWalker c _

theorem State.tiles_rescanCause (s : State) (c : Chain) : (s.rescanCause c).tiles = s.tiles := by
  unfold State.rescanCause
  dsimp only
  split
  · split
    · exact s.tiles_beginRescan c
    · exact s.tiles_modWalker c _
  · exact s.tiles_modWalker c _
  · exact s.tiles_modWalker c _
  · rfl
  · rfl

theorem State.tiles_resumeWalker (s : State) (c : Chain) : (s.resumeWalker c).tiles = s.tiles :=
  (State.tiles_beginRescan _ c).trans ((State.tiles_modWalker _ c _).trans (s.tiles_modWalker c _))

theorem noted_rescan (s : State) (c : Chain) : Noted s (s.rescan c) := by
  unfold State.rescan
  split
  · exact .of_tiles (s.tiles_rescanCause c)
  · exact .of_tiles rfl

theorem noted_resume (s : State) (c : Chain) : Noted s (s.resume c) := by
  unfold State.resume
  split
  · split
    · split
      · exact .of_tiles (s.tiles_resumeWalker c)
      · exact .of_tiles (s.tiles_modWalker c _)
    · exact .refl s
  · exact .of_tiles rfl

theorem noted_abortCommand (s : State) (c : Chain) : Noted s (s.abortCommand c) := by
  unfold State.abortCommand
  split
  · exact noted_finish s _
  · exact .of_tiles rfl

theorem Noted.ite {p : Prop} [Decidable p] {s t u : State} (ht : Noted s t) (hu : Noted s u) :
    Noted s (if p then t else u) := by
  split
  · exact ht
  · exact hu

section
variable (s : State)

theorem noted_startEffect : Noted s (startEffect s) :=
  .ite (.ite (.of_tiles (State.tiles_startFails _ _)) (.of_tiles rfl)) (.of_tiles rfl)

theorem noted_receiverLockEffect (p : PortId) : Noted s (receiverLockEffect p s) := by
  unfold receiverLockEffect
  split
  · exact .ite (noted_finish s _) (.of_tiles (State.tiles_modPort _ _ _))
  · exact .of_tiles (State.tiles_modPort _ _ _)
  · exact .of_tiles (State.tiles_modPort _ _ _)
  · exact .refl s
  · exact .refl s

theorem noted_tileLockEffect (p : PortId) : Noted s (tileLockEffect p s) := by
  unfold tileLockEffect
  split
  · exact .ite (noted_finish s _) (.of_tiles (State.tiles_modPort _ _ _))
  · exact .of_tiles (State.tiles_modPort _ _ _)
  · exact .of_tiles (State.tiles_modPort _ _ _)
  · exact .refl s
  · exact .refl s

theorem noted_hardErrorEffect (p : PortId) : Noted s (hardErrorEffect p s) := by
  unfold hardErrorEffect
  split
  · exact .ite (noted_finish s _) (.refl s)
  · exact noted_finish s _
  · exact noted_finish s _
  · exact .refl s
  · exact .refl s

theorem noted_ackReceivedEffect (p : PortId) (d : Position) (tag : Tag) (st : AckStatus) :
    Noted s (ackReceivedEffect p d tag st s) := by
  unfold ackReceivedEffect
  split
  · split
    · exact noted_finish s _
    · exact .ite (noted_finish s _) (noted_finish s _)
  · exact .refl s

theorem tiles_keepOlderWrite (p : PortId) (e : Entry) : (s.keepOlderWrite p e).tiles = s.tiles := by
  unfold State.keepOlderWrite
  split
  · rfl
  · exact State.tiles_modPort _ _ _

theorem noted_dataReceivedEffect (p : PortId) (d : Position) (tag : Tag) (ws : List Word) :
    Noted s (dataReceivedEffect p d tag ws s) := by
  unfold dataReceivedEffect
  split
  · split
    · exact noted_finish s _
    · next e _ =>
      have hstart (w : DestWrite) : Noted s ((s.keepOlderWrite p e).startDestWrite p e w) :=
        .of_tiles ((State.tiles_modPort _ _ _).trans (tiles_keepOlderWrite s p e))
      exact .ite (.ite (noted_finish s _) (noted_finish s _))
        (.ite (.ite (noted_finish s _) (hstart _)) (noted_finish s _))
  · exact .refl s

theorem noted_linkErrorPacketEffect (p : PortId) (bs : List Byte) : Noted s (linkErrorPacketEffect p bs s) := by
  unfold linkErrorPacketEffect
  split
  · split
    · exact .of_tiles rfl
    · exact .of_tiles rfl
    · exact .refl s
  · exact .refl s

theorem noted_trigFilterExpiryEffect (i : Line) : Noted s (trigFilterExpiryEffect i s) := by
  have hset (f : TrigFilter) : Noted s (s.setTrig i f) := .of_tiles (by cases i <;> rfl)
  exact .ite (.ite (noted_finish s _) (hset _)) (.refl s)

theorem noted_probeDeadlineExpiryEffect (p : PortId) : Noted s (probeDeadlineExpiryEffect p s) := by
  unfold probeDeadlineExpiryEffect
  split
  · exact noted_finish s _
  · exact .refl s

theorem noted_replyDeadlineExpiryEffect (p : PortId) (tag : Tag) : Noted s (replyDeadlineExpiryEffect p tag s) := by
  unfold replyDeadlineExpiryEffect
  split
  · exact noted_commit s _
  · exact .refl s

theorem noted_pauseExpiryEffect (i : SlotNum) : Noted s (pauseExpiryEffect i s) := by
  unfold pauseExpiryEffect
  split
  · exact .refl s
  · exact .ite (noted_finish s _) (.refl s)

theorem noted_wakeHistoryAgeOutEffect : Noted s (wakeHistoryAgeOutEffect s) := by
  unfold wakeHistoryAgeOutEffect
  split
  · exact .refl s
  · exact .ite (.of_tiles rfl) (.refl s)

theorem noted_controlBlockReadDoneEffect (r : ReadResult) : Noted s (controlBlockReadDoneEffect r s) := by
  unfold controlBlockReadDoneEffect
  refine .ite (.ite ?_ (.of_tiles rfl)) (.refl s)
  split
  · exact .of_tiles (State.tiles_startFails _ _)
  · split
    · exact .of_tiles (State.tiles_startFails _ _)
    · exact .of_views fun x => State.view_takeSettings _ _ x

theorem tiles_endRewrite (x : TileNum) (j : Bool) : (s.endRewrite x j).tiles = s.tiles := by
  unfold State.endRewrite
  dsimp only
  split <;> rfl

theorem noted_statusWriteDoneEffect (x : TileNum) (ok : Bool) : Noted s (statusWriteDoneEffect x ok s) := by
  unfold statusWriteDoneEffect
  split
  · exact .refl s
  · next w _ =>
    have hend : Noted s (s.endRewrite x w.joins) := .of_tiles (tiles_endRewrite s x w.joins)
    exact .ite hend (.ite (.ite hend (noted_finish s _)) (noted_finish s _))

theorem noted_statusRewriteStartEffect (x : TileNum) : Noted s (statusRewriteStartEffect x s) :=
  .ite (.of_views fun y => State.view_modTile (s := s) (t := x) (fun e => { e with changeCount := e.changeCount + 1 }) rfl y)
    (.refl s)

theorem noted_headerReadDoneEffect (c : Chain) (r : ReadResult) : Noted s (headerReadDoneEffect c r s) := by
  unfold headerReadDoneEffect
  split
  · exact noted_finish s _
  · exact noted_finish s _
  · exact .refl s

theorem noted_stepReadDoneEffect (c : Chain) (r : ReadResult) : Noted s (stepReadDoneEffect c r s) := by
  unfold stepReadDoneEffect
  split
  · exact noted_finish s _
  · exact .refl s

theorem noted_rescanReadDoneEffect (c : Chain) (r : ReadResult) : Noted s (rescanReadDoneEffect c r s) := by
  unfold rescanReadDoneEffect
  split
  · exact noted_finish s _
  · exact .refl s

theorem noted_takenWriteDoneEffect (c : Chain) (ok : Bool) : Noted s (takenWriteDoneEffect c ok s) := by
  unfold takenWriteDoneEffect
  split
  · exact .ite (noted_finish s _) (noted_finish s _)
  · exact .refl s

theorem noted_fetchFailWriteDoneEffect (c : Chain) (last ok : Bool) : Noted s (fetchFailWriteDoneEffect c last ok s) := by
  unfold fetchFailWriteDoneEffect
  split
  · refine .ite ?_ (noted_finish s _)
    split
    · exact .ite (.of_tiles (s.tiles_modWalker c _)) (.ite (.of_tiles (s.tiles_modWalker c _)) (.refl s))
    · exact noted_finish s _
  · exact .refl s

theorem noted_resultWriteDoneEffect (i : SlotNum) (last ok : Bool) : Noted s (resultWriteDoneEffect i last ok s) := by
  unfold resultWriteDoneEffect
  split
  · exact .refl s
  · split
    · split
      · exact .ite (.ite (.of_tiles rfl) (.ite (.of_tiles rfl) (.refl s))) (noted_finish s _)
      · exact .refl s
    · exact .refl s

theorem noted_stateWordWriteDoneEffect (i : SlotNum) (ok : Bool) : Noted s (stateWordWriteDoneEffect i ok s) := by
  unfold stateWordWriteDoneEffect
  split
  · exact .refl s
  · split
    · split
      · exact .refl s
      · exact .ite (noted_finish s _) (noted_finish s _)
    · exact .refl s

theorem noted_stagingReadDoneEffect (i : SlotNum) (x : TileNum) (r : ReadResult) :
    Noted s (stagingReadDoneEffect i x r s) := by
  refine .ite (.of_tiles rfl) ?_
  have hend (g : Staging) : (s.endStagingRead i x g).tiles = s.tiles := State.tiles_modJob _ _ _
  unfold State.stagingReadEnds
  split
  · split
    · split
      · exact .of_tiles (hend _)
      · exact (noted_finish _ _).of_before (hend _)
    · exact .refl s
  · exact .refl s

theorem noted_destinationWriteDoneEffect (p : PortId) (tag : Tag) (ok : Bool) :
    Noted s (destinationWriteDoneEffect p tag ok s) := by
  refine .ite (.of_tiles (State.tiles_modPort _ _ _)) ?_
  split
  · exact noted_finish s _
  · exact .refl s

theorem noted_packetIssueEffect (p : PortId) : Noted s (packetIssueEffect p s) := by
  refine .ite ?_ (.refl s)
  split
  · exact (noted_commit s _).trans_frame (State.presentAfterIssue_frame _ _ _) (State.tiles_presentAfterIssue _ _ _)
  · exact .refl s

theorem noted_slotOfferEffect (i : SlotNum) : Noted s (slotOfferEffect i s) := by
  unfold slotOfferEffect
  split
  · exact .of_tiles ((State.tiles_modWalker _ _ _).trans (State.tiles_modWalker _ _ _))
  · exact .refl s

theorem noted_jobDrainedEffect (i : SlotNum) : Noted s (jobDrainedEffect i s) := by
  unfold jobDrainedEffect
  split
  · exact .refl s
  · exact .ite (noted_finish s _) (.refl s)

theorem noted_unknownCommandEffect (code : Word) : Noted s (unknownCommandEffect code s) := by
  unfold unknownCommandEffect
  split
  · exact .of_tiles rfl
  · exact .refl s

end

/-- Every row but the resets notes its record changes (R18). -/
theorem noted_effectOf (c : Instr) (s : State) (hr : c ≠ .reset) (hh : c ≠ .hardReset) : Noted s (effectOf c s) := by
  cases c with
  | start => exact noted_startEffect s
  | stop => exact .ite (noted_finish s _) (.of_tiles rfl)
  | reset => exact absurd rfl hr
  | enumerate => exact .ite (noted_finish s _) (.of_tiles rfl)
  | rescanN => exact noted_rescan s _
  | rescanP => exact noted_rescan s _
  | resumeN => exact noted_resume s _
  | resumeP => exact noted_resume s _
  | abortN => exact noted_abortCommand s _
  | abortP => exact noted_abortCommand s _
  | unknownCommand code => exact noted_unknownCommandEffect s code
  | cbaddrWrite value => exact .ite (.of_tiles rfl) (.of_tiles rfl)
  | noticeWrite value => exact .of_tiles rfl
  | noticeenWrite value => exact .of_tiles rfl
  | tilechgRead off len => exact .ite (.of_tiles rfl) (.of_tiles rfl)
  | registerWriteIgnored off len => exact .ite (.of_tiles rfl) (.refl s)
  | hardReset => exact absurd rfl hh
  | resetNRelease => exact .ite (.of_tiles rfl) (.refl s)
  | trigPinChange input level => exact .ite (.refl s) (.of_tiles (by cases input <;> rfl))
  | trigFilterExpiry input => exact noted_trigFilterExpiryEffect s input
  | syncPulseExpiry output => exact .of_tiles (by cases output <;> rfl)
  | receiverLock p => exact noted_receiverLockEffect s p
  | tileLock p => exact noted_tileLockEffect s p
  | hardError p => exact noted_hardErrorEffect s p
  | ackReceived p dist tag status => exact noted_ackReceivedEffect s p dist tag status
  | dataReceived p dist tag words => exact noted_dataReceivedEffect s p dist tag words
  | faultNotice p dist code => exact .ite (noted_finish s _) (.refl s)
  | frameNotice p dist => exact .ite (noted_finish s _) (.refl s)
  | linkErrorPacket p bs => exact noted_linkErrorPacketEffect s p bs
  | transmissionEnd p => exact .ite (.refl s) (noted_commit s _)
  | timebaseTick => exact .of_tiles rfl
  | attemptTimerExpiry p => exact .ite (noted_finish s _) (.refl s)
  | chainResetWaitExpiry p => exact .ite (noted_finish s _) (.refl s)
  | probeDeadlineExpiry p => exact noted_probeDeadlineExpiryEffect s p
  | replyDeadlineExpiry p tag => exact noted_replyDeadlineExpiryEffect s p tag
  | settleTimerExpiry t => exact .ite (noted_finish s _) (.refl s)
  | restTimerExpiry t => exact .ite (noted_finish s _) (.refl s)
  | pollTimerExpiry c => exact .ite (.of_tiles ((State.tiles_rescanCause _ c).trans (s.tiles_modWalker c _))) (.refl s)
  | waitTimeout slot => exact .ite (.ite (noted_finish s _) (noted_finish s _)) (.refl s)
  | pauseExpiry slot => exact noted_pauseExpiryEffect s slot
  | wakeHistoryAgeOut => exact noted_wakeHistoryAgeOutEffect s
  | sleepGateOpen t => exact .of_views fun x => s.view_sleepGateOpen t x
  | readyGateOpen t => exact .of_views fun x => s.view_readyGateOpen t x
  | controlBlockReadDone r => exact noted_controlBlockReadDoneEffect s r
  | statusWriteDone t ok => exact noted_statusWriteDoneEffect s t ok
  | statusRewriteStart t => exact noted_statusRewriteStartEffect s t
  | headerReadDone c r => exact noted_headerReadDoneEffect s c r
  | stepReadDone c r => exact noted_stepReadDoneEffect s c r
  | rescanReadDone c r => exact noted_rescanReadDoneEffect s c r
  | takenWriteDone c ok => exact noted_takenWriteDoneEffect s c ok
  | fetchFailWriteDone c last ok => exact noted_fetchFailWriteDoneEffect s c last ok
  | resultWriteDone slot last ok => exact noted_resultWriteDoneEffect s slot last ok
  | stateWordWriteDone slot ok => exact noted_stateWordWriteDoneEffect s slot ok
  | stagingReadDone slot t r => exact noted_stagingReadDoneEffect s slot t r
  | destinationWriteDone p tag ok => exact noted_destinationWriteDoneEffect s p tag ok
  | packetIssue p => exact noted_packetIssueEffect s p
  | jobAdmission slot => exact .ite (noted_finish s _) (.refl s)
  | slotOffer slot => exact noted_slotOfferEffect s slot
  | jobDrained slot => exact noted_jobDrainedEffect s slot
  | rescanPending c => exact .ite (.of_tiles ((State.tiles_beginRescan _ c).trans (s.tiles_modWalker c _))) (.refl s)
  | resumeDeferred c => exact .ite (.of_tiles (s.tiles_resumeWalker c)) (.refl s)
  | engineEntersRunning => exact .ite (noted_finish s _) (.refl s)
  | engineStopped => exact .ite (.of_tiles rfl) (.refl s)

/-- Every command but the resets notes its record changes. -/
theorem noted_exec {c : Instr} {s t : State} (hr : c ≠ .reset) (hh : c ≠ .hardReset) (h : exec c s = .next t) : Noted s t := by
  rcases exec_cases h with rfl | ⟨a, -, rfl⟩ | ⟨-, rfl⟩
  · exact .refl _
  · exact .of_tiles rfl
  · exact noted_effectOf c s hr hh

end Sys2Proof.Machine
end

section
/-! Status records: their bytes, their three writes, and a bus error on one (R18 to R21, R171, R174). -/

namespace Sys2Proof.Machine

/-! ## The bytes of a record (12.4) -/

theorem recordFlags_bits (a b c d : Bool) :
    let v := BitVec.ofNat 8 (bit a 0 + bit b 1 + bit c 2 + bit d 3)
    v.getLsbD 0 = a ∧ v.getLsbD 1 = b ∧ v.getLsbD 2 = c ∧ v.getLsbD 3 = d ∧ v.toNat / 16 = 0 := by
  revert a b c d
  decide

theorem TileState.code_byte (v : TileState) :
    [TileState.absent, .asleep, .waking, .awake, .dozing, .faulted, .lost][(BitVec.ofNat 8 v.code).toNat]? = some v := by
  cases v <;> rfl

theorem portOf_byte (x : TileNum) : (BitVec.ofNat 8 (PortId.code (portOf x))).toNat = x.val / 12 := by
  revert x
  decide

theorem positionOf_byte (x : TileNum) : (BitVec.ofNat 8 (positionOf x).val).toNat = x.val % 12 := by
  revert x
  decide

theorem TileEntry.view_band (e : TileEntry) : e.view.band = true ↔ ∃ v ∈ e.band, v.band = true := by
  unfold TileEntry.view
  cases e.band <;> simp

theorem TileEntry.view_bandRows (e : TileEntry) : e.view.bandRows = (e.band.bind fun v => v.rows).getD (0, 0) := by
  unfold TileEntry.view
  rcases e.band with - | ⟨b, - | r⟩ <;> rfl

theorem getD_false_iff (b : Option Bool) : b.getD false = true ↔ b = some true := by
  cases b <;> simp

theorem RecordView.spare_bytes (v : RecordView) (x : TileNum) {o : Nat} (h : 42 ≤ o) : byteAt (v.bytes x) o = 0 := by
  unfold byteAt RecordView.bytes
  rw [List.getD_append_right _ _ _ _ (by simpa [halfBytes, wordBytes] using h)]
  rw [List.getD_eq_getElem?_getD, List.getElem?_replicate]
  split <;> rfl

/-- The second write of a rewrite gives the record's fields (12.4). -/
theorem recordFields_bytes (e : TileEntry) (x : TileNum) : RecordFields e x (e.view.bytes x) := by
  obtain ⟨hshown, hband, hinverted, harmed, hhigh⟩ :=
    recordFlags_bits e.view.shown e.view.band e.view.inverted e.view.armed
  have hspare : ∀ o, 0x2C ≤ o → o < 0x40 → byteAt (e.view.bytes x) (o - 2) = 0 := fun o ho _ =>
    e.view.spare_bytes x (by omega)
  unfold RecordFields
  dsimp only
  refine ⟨by simp [RecordView.bytes, halfBytes, wordBytes], ?_⟩
  rw [eq_true hspare]
  simp only [halfAt, byteAt, wordAt, RecordView.bytes, halfBytes, wordBytes, List.cons_append, List.nil_append,
    List.getD_cons_succ, List.getD_cons_zero, Nat.reduceSub, Nat.reduceAdd, half_of_bytes, word_of_bytes]
  rw [hshown, hband, hinverted, harmed, e.view_bandRows]
  exact ⟨e.state.code_byte, getD_false_iff _, e.view_band, getD_false_iff _, Iff.rfl, hhigh, errorByteIs_errorByte _,
    BitVec.toNat_setWidth_of_le (by decide), portOf_byte x, positionOf_byte x, rfl, rfl, rfl, rfl, rfl, rfl, rfl, rfl, rfl,
    rfl, rfl, rfl, rfl, rfl, rfl, rfl, rfl, trivial⟩

end Sys2Proof.Machine
end

section
/-! The three writes of a status record, and a bus error on one (R18 to R21, R171, R174). -/

namespace Sys2Proof.Machine

theorem State.marksRewrites_iff (s : State) : s.marksRewrites = true ↔
    s.settings.statusArea ≠ none ∧ ¬ (s.engine = .stopping ∧ s.fault ≠ .none) ∧
      (s.engine = .running ∨ s.engine = .stopping ∨ s.engine = .starting .statusRecords ∨ s.engine = .starting .ports) := by
  unfold State.marksRewrites State.fatal
  rw [Bool.and_eq_true, Bool.and_eq_true, Option.isSome_iff_ne_none, Bool.not_eq_true', Bool.and_eq_false_iff,
    decide_eq_false_iff_not, decide_eq_false_iff_not, ← not_and_or, and_assoc]
  refine and_congr_right fun _ => and_congr_right fun _ => ?_
  cases s.engine with
  | starting ph => cases ph <;> simp
  | _ => simp

theorem EventFrame.rewrite {s t : State} (h : EventFrame s t) (x : TileNum) :
    (t.record x).rewrite = (s.record x).rewrite := (congrArg RecordCtl.rewrite (h.record x) :)

theorem EventFrame.changeCount {s t : State} (h : EventFrame s t) (x : TileNum) :
    (t.tile x).changeCount = (s.tile x).changeCount := (congrArg TileEntry.changeCount (h.tile x) :)

theorem EventFrame.cut {s t : State} (h : EventFrame s t) : t.cutAccesses = s.cutAccesses :=
  (congrArg State.cutAccesses h.rest :)

/-! ## The access of a rewrite -/

section
variable {s : State} {x : TileNum} {w : Rewrite}

theorem State.mem_accesses_of_fields (hw : (s.record x).rewrite = some w) {bs : List Byte} (hstage : w.stage = .fields bs) :
    ⟨.record x, .write (w.area + BitVec.ofNat 32 (64 * x.val) + 2) bs⟩ ∈ s.accesses := by
  refine State.mem_accesses_of_record (x := x) ?_
  unfold State.recordAccesses
  rw [hw]
  dsimp only
  rw [hstage]
  exact List.mem_singleton_self _

theorem State.mem_accesses_of_count (hw : (s.record x).rewrite = some w)
    (hstage : w.stage = .countOdd ∨ w.stage = .countEven) :
    ⟨.record x, .write (w.area + BitVec.ofNat 32 (64 * x.val)) (halfBytes (s.tile x).changeCount)⟩ ∈ s.accesses := by
  refine State.mem_accesses_of_record (x := x) ?_
  unfold State.recordAccesses
  rw [hw]
  dsimp only
  rcases hstage with h | h <;> rw [h] <;> exact List.mem_singleton_self _

theorem statusRewriteStartEffect_of (hmark : (s.record x).markChange = true ∨ (s.record x).markStart = true)
    (hnone : (s.record x).rewrite = none) (hmarks : s.marksRewrites = true) :
    statusRewriteStartEffect x s =
      (s.setTile x { s.tile x with changeCount := (s.tile x).changeCount + 1 }).setRecord x
        { markChange := false, markStart := false,
          rewrite := some { area := s.settings.statusArea.getD 0, stage := .countOdd, joins := (s.record x).markChange,
                            byStart := (s.record x).markStart, stopped := false } } := by
  refine if_pos ?_
  unfold RecordCtl.marked
  rw [hnone, hmarks]
  rcases hmark with h | h <;> simp [h]

/-! ## The end of a write -/

theorem statusWriteDoneEffect_ended (hw : (s.record x).rewrite = some w) {ok : Bool}
    (h : (w.stopped = true ∧ ok = true) ∨ s.fatal = true) : statusWriteDoneEffect x ok s = s.endRewrite x w.joins := by
  unfold statusWriteDoneEffect
  rw [hw]
  dsimp only
  by_cases hfatal : s.fatal = true
  · rw [if_pos hfatal]
  · obtain ⟨hstop, hok⟩ := h.resolve_right hfatal
    rw [if_neg hfatal, if_pos hok, if_pos hstop]

theorem statusWriteDoneEffect_next (hw : (s.record x).rewrite = some w) (hstop : w.stopped = false)
    (hfatal : s.fatal = false) : statusWriteDoneEffect x true s = finish s (s.nextStatusWrite x w) := by
  unfold statusWriteDoneEffect
  rw [hw]
  dsimp only
  rw [if_neg (by rw [hfatal]; exact Bool.false_ne_true), if_pos rfl, if_neg (by rw [hstop]; exact Bool.false_ne_true)]

theorem statusWriteDoneEffect_failed (hw : (s.record x).rewrite = some w) (hfatal : s.fatal = false) :
    statusWriteDoneEffect x false s = finish s (s.statusWriteFailed x w) := by
  unfold statusWriteDoneEffect
  rw [hw]
  dsimp only
  rw [if_neg (by rw [hfatal]; exact Bool.false_ne_true), if_neg Bool.false_ne_true]

end

theorem State.record_endRewrite (s : State) (x : TileNum) (j : Bool) (y : TileNum) :
    (s.endRewrite x j).record y = if x = y then { s.record x with rewrite := none } else s.record y := by
  have hmod := State.record_modRecord s x y fun r => { r with rewrite := none }
  unfold State.endRewrite
  dsimp only
  split
  · exact hmod
  · exact hmod

theorem State.endRewrite_joins (s : State) (x : TileNum) :
    (s.endRewrite x true).tileChg.getLsbD x.val = true ∧ (s.endRewrite x true).notice.tile = true := by
  refine ⟨?_, rfl⟩
  show (s.tileChg ||| (1#24 <<< x.val)).getLsbD x.val = true
  rw [BitVec.getLsbD_or]
  simp [x.isLt]

theorem State.mode_endRewrite (s : State) (x : TileNum) (j : Bool) :
    (s.endRewrite x j).engine = s.engine ∧ (s.endRewrite x j).fault = s.fault :=
  ⟨State.engine_of_body (State.body_endRewrite s x j), State.fault_of_body (State.body_endRewrite s x j)⟩

/-! ## The ports phase of START -/

/-- The records, the tile table and TILECHG with its notice: what a port's bring-up leaves alone. -/
def State.tables (s : State) : Vector RecordCtl 24 × Vector TileEntry 24 × BitVec 24 × Bool :=
  (s.records, s.tiles, s.tileChg, s.notice.tile)

theorem State.bringUp_cases (s : State) (p : PortId) :
    ((s.port p).state = .down ∨ (s.port p).state = .failed) ∧ s.bringUp p = s.enterTraining p ∨
      ((s.port p).state = .training ∨ (s.port p).state = .enumerating ∨ (s.port p).state = .up) ∧ s.bringUp p = s := by
  unfold State.bringUp
  split
  · next h => exact .inl ⟨.inl h, by rfl⟩
  · next h => exact .inl ⟨.inr h, by rfl⟩
  · next h => exact .inr ⟨.inl h, by rfl⟩
  · next h => exact .inr ⟨.inr (.inl h), by rfl⟩
  · next h => exact .inr ⟨.inr (.inr h), by rfl⟩

theorem State.tables_bringUp (s : State) (p : PortId) : (s.bringUp p).tables = s.tables := by
  rcases s.bringUp_cases p with ⟨-, h⟩ | ⟨-, h⟩ <;> rw [h]
  cases p <;> rfl

theorem State.port_bringUp_ne (s : State) {p q : PortId} (h : p ≠ q) : (s.bringUp p).port q = s.port q := by
  rcases s.bringUp_cases p with ⟨-, e⟩ | ⟨-, e⟩ <;> rw [e]
  cases p with
  | A => cases q with
    | A => exact absurd rfl h
    | B => rfl
  | B => cases q with
    | A => rfl
    | B => exact absurd rfl h

/-- The bring-up of a port at START (R145). -/
structure BroughtUp (v v' : Port) : Prop where
  trains : v.state = .down ∨ v.state = .failed → v'.state = .training
  stays : v.state = .training ∨ v.state = .enumerating ∨ v.state = .up → v' = v

theorem State.broughtUp (s : State) (p : PortId) : BroughtUp (s.port p) ((s.bringUp p).port p) := by
  rcases s.bringUp_cases p with ⟨hstate, e⟩ | ⟨hstate, e⟩ <;> rw [e]
  · refine ⟨fun _ => ?_, fun h => ?_⟩
    · rw [State.port_enterTraining]
      rfl
    · rcases hstate with hs | hs <;> rw [hs] at h <;> simp at h
  · refine ⟨fun h => ?_, fun _ => rfl⟩
    rcases h with h | h <;> rw [h] at hstate <;> simp at hstate

theorem State.portsPhaseIfDone_cases (s : State) :
    s.portsPhaseIfDone = s ∨
      s.portsPhaseIfDone = (({ s with engine := .starting .ports } : State).bringUp .A).bringUp .B := by
  unfold State.portsPhaseIfDone
  split
  · exact .inr rfl
  · exact .inl rfl

theorem State.tables_portsPhaseIfDone (s : State) : s.portsPhaseIfDone.tables = s.tables := by
  rcases s.portsPhaseIfDone_cases with h | h <;> rw [h]
  rw [State.tables_bringUp, State.tables_bringUp]
  rfl

/-- START's ports phase begins with its last rewrite (R171). -/
theorem State.portsPhase_begins {s : State} (he : s.engine = .starting .statusRecords) (hdone : s.startRewritesDone = true) :
    s.portsPhaseIfDone.engine = .starting .ports ∧ ∀ p, BroughtUp (s.port p) (s.portsPhaseIfDone.port p) := by
  have heq : s.portsPhaseIfDone = (({ s with engine := .starting .ports } : State).bringUp .A).bringUp .B :=
    if_pos ⟨he, hdone⟩
  rw [heq]
  refine ⟨?_, fun p => ?_⟩
  · rw [State.engine_of_body (State.body_bringUp _ _), State.engine_of_body (State.body_bringUp _ _)]
  · have hA := ({ s with engine := .starting .ports } : State).broughtUp .A
    have hB := (({ s with engine := .starting .ports } : State).bringUp .A).broughtUp .B
    cases p with
    | A => rwa [State.port_bringUp_ne _ (p := .B) (q := .A) (by decide)]
    | B => rwa [State.port_bringUp_ne _ (p := .A) (q := .B) (by decide)] at hB

theorem State.startRewritesDone_iff (s : State) : s.startRewritesDone = true ↔
    ∀ y, (s.record y).markStart = false ∧ ∀ v, (s.record y).rewrite = some v → v.byStart = false := by
  unfold State.startRewritesDone
  rw [List.all_eq_true]
  have hrewrite (r : Option Rewrite) : (match r with | some w => !w.byStart | none => true) = true ↔
      ∀ v, r = some v → v.byStart = false := by
    cases r <;> simp
  constructor
  · intro h y
    have hy := h y (mem_allTiles y)
    rw [Bool.and_eq_true, Bool.not_eq_true'] at hy
    exact ⟨hy.1, (hrewrite _).1 hy.2⟩
  · intro h y _
    rw [Bool.and_eq_true, Bool.not_eq_true']
    exact ⟨(h y).1, (hrewrite _).2 (h y).2⟩

/-! ## A write that ends well -/

section
variable {s : State} {x : TileNum} {w : Rewrite}

theorem nextStatusWrite_countOdd (hstage : w.stage = .countOdd) : s.nextStatusWrite x w =
    s.modRecord x fun r => { r with rewrite := some { w with stage := .fields ((s.tile x).view.bytes x) } } := by
  unfold State.nextStatusWrite
  rw [hstage]

theorem nextStatusWrite_fields {bs : List Byte} (hstage : w.stage = .fields bs) : s.nextStatusWrite x w =
    (s.modTile x fun e => { e with changeCount := e.changeCount + 1 }).modRecord x
      fun r => { r with rewrite := some { w with stage := .countEven } } := by
  unfold State.nextStatusWrite
  rw [hstage]

theorem nextStatusWrite_countEven (hstage : w.stage = .countEven) :
    s.nextStatusWrite x w = (s.endRewrite x w.joins).portsPhaseIfDone := by
  unfold State.nextStatusWrite
  rw [hstage]

/-- The rewrite of `x` has ended, and its tile has joined TILECHG where it was to (R20, R21). -/
structure RewriteEnded (s : State) (x : TileNum) (joins : Bool) (u : State) : Prop where
  rewrite : (u.record x).rewrite = none
  changeCount : (u.tile x).changeCount = (s.tile x).changeCount
  joined : joins = true → u.tileChg.getLsbD x.val = true ∧ u.notice.tile = true

theorem rewriteEnded_endRewrite (s : State) (x : TileNum) (j : Bool) : RewriteEnded s x j (s.endRewrite x j) := by
  refine ⟨?_, ?_, ?_⟩
  · rw [State.record_endRewrite, if_pos rfl]
  · rw [State.tile_of_tiles (tiles_endRewrite s x j)]
  · rintro rfl
    exact s.endRewrite_joins x

theorem RewriteEnded.of_tables {j : Bool} {u v : State} (h : RewriteEnded s x j u) (ht : v.tables = u.tables) :
    RewriteEnded s x j v := by
  obtain ⟨hrewrite, hcount, hjoined⟩ := h
  simp only [State.tables, Prod.mk.injEq] at ht
  obtain ⟨hrecords, htiles, hchg, hnotice⟩ := ht
  refine ⟨?_, ?_, ?_⟩
  · unfold State.record at hrewrite ⊢
    rwa [hrecords]
  · rwa [State.tile_of_tiles htiles]
  · rwa [hchg, hnotice]

theorem RewriteEnded.event {j : Bool} {u v : State} (h : RewriteEnded s x j u) (hf : EventFrame u v) :
    RewriteEnded s x j v :=
  ⟨(hf.rewrite x).trans h.rewrite, (hf.changeCount x).trans h.changeCount,
    fun hj => ⟨hf.chg x.val (h.joined hj).1, hf.tileNotice (h.joined hj).2⟩⟩

theorem rewriteEnded_next (hstage : w.stage = .countEven) : RewriteEnded s x w.joins (finish s (s.nextStatusWrite x w)) := by
  rw [nextStatusWrite_countEven hstage]
  exact ((rewriteEnded_endRewrite s x w.joins).of_tables (State.tables_portsPhaseIfDone _)).event (finish_frame _ _)

theorem countOdd_next (hstage : w.stage = .countOdd) :
    (∃ bs, ((finish s (s.nextStatusWrite x w)).record x).rewrite = some { w with stage := .fields bs } ∧
      RecordFields (s.tile x) x bs) ∧
      ((finish s (s.nextStatusWrite x w)).tile x).changeCount = (s.tile x).changeCount := by
  have hf : EventFrame (s.nextStatusWrite x w) (finish s (s.nextStatusWrite x w)) := finish_frame _ _
  refine ⟨⟨_, ?_, recordFields_bytes (s.tile x) x⟩, ?_⟩
  · rw [hf.rewrite, nextStatusWrite_countOdd hstage, State.record_modRecord_self]
  · rw [hf.changeCount, nextStatusWrite_countOdd hstage]
    rfl

theorem fields_next {bs : List Byte} (hstage : w.stage = .fields bs) :
    ((finish s (s.nextStatusWrite x w)).record x).rewrite = some { w with stage := .countEven } ∧
      ((finish s (s.nextStatusWrite x w)).tile x).changeCount = (s.tile x).changeCount + 1 := by
  have hf : EventFrame (s.nextStatusWrite x w) (finish s (s.nextStatusWrite x w)) := finish_frame _ _
  refine ⟨?_, ?_⟩
  · rw [hf.rewrite, nextStatusWrite_fields hstage, State.record_modRecord_self]
  · rw [hf.changeCount, nextStatusWrite_fields hstage]
    have hmod := s.tile_modTile x x fun e => { e with changeCount := e.changeCount + 1 }
    rw [if_pos rfl] at hmod
    exact congrArg TileEntry.changeCount hmod

/-- START's last rewrite ends, and its ports phase begins (R171). -/
theorem lastRewrite_next (hstage : w.stage = .countEven) (he : s.engine = .starting .statusRecords)
    (hx : (s.record x).markStart = false)
    (hothers : ∀ y, y ≠ x → (s.record y).markStart = false ∧ ∀ v, (s.record y).rewrite = some v → v.byStart = false) :
    (finish s (s.nextStatusWrite x w)).engine = .starting .ports ∧
      ∀ p, BroughtUp (s.port p) ((finish s (s.nextStatusWrite x w)).port p) := by
  have hf : EventFrame (s.nextStatusWrite x w) (finish s (s.nextStatusWrite x w)) := finish_frame _ _
  have hdone : (s.endRewrite x w.joins).startRewritesDone = true := by
    refine (State.startRewritesDone_iff _).2 fun y => ?_
    rw [State.record_endRewrite]
    split
    · exact ⟨hx, nofun⟩
    · next hy => exact hothers y (Ne.symm hy)
  obtain ⟨hengine, hports⟩ := State.portsPhase_begins ((s.mode_endRewrite x w.joins).1.trans he) hdone
  refine ⟨?_, fun p => ?_⟩
  · rw [hf.engine, nextStatusWrite_countEven hstage]
    exact hengine
  · have hport : (s.endRewrite x w.joins).port p = s.port p := State.port_of_ports (State.ports_endRewrite s x w.joins) p
    rw [hf.port, nextStatusWrite_countEven hstage, ← hport]
    exact hports p

end

/-! ## A write that ends with a bus error -/

theorem State.record_faultRecord (s : State) (x y : TileNum) : (s.faultRecord x).record y =
    if x = y then { markChange := false, markStart := false, rewrite := (s.record x).rewrite.map Rewrite.stop }
    else s.record y := by
  unfold State.faultRecord
  dsimp only
  split
  · exact State.record_setRecord s x y _
  · exact State.record_setRecord s x y _

theorem State.tileChg_faultRecord {s : State} {n : Nat} (h : s.tileChg.getLsbD n = true) (x : TileNum) :
    (s.faultRecord x).tileChg.getLsbD n = true := by
  unfold State.faultRecord
  dsimp only
  split
  · exact (State.joinTileChg_frame _ x).chg n h
  · exact h

theorem State.tileChg_faultRecord_marked {s : State} {x : TileNum} (h : (s.record x).markChange = true) :
    (s.faultRecord x).tileChg.getLsbD x.val = true := by
  unfold State.faultRecord
  dsimp only
  rw [if_pos (by rw [h]; rfl)]
  show (s.tileChg ||| (1#24 <<< x.val)).getLsbD x.val = true
  rw [BitVec.getLsbD_or]
  simp [x.isLt]

/-- A fatal fault puts the marked records' tiles in TILECHG (R174). -/
theorem State.tileChg_faultRecords {y : TileNum} (l : List TileNum) (s : State) (hy : y ∈ l)
    (h : (s.record y).markChange = true) : (l.foldl State.faultRecord s).tileChg.getLsbD y.val = true := by
  induction l generalizing s with
  | nil => cases hy
  | cons z l ih =>
    rw [List.foldl_cons]
    by_cases hyz : y = z
    · subst hyz
      exact foldl_preserves (P := fun u : State => u.tileChg.getLsbD y.val = true)
        (fun u x hu => State.tileChg_faultRecord hu x) l (State.tileChg_faultRecord_marked h)
    · refine ih _ ((List.mem_cons.1 hy).resolve_left hyz) ?_
      rwa [State.record_faultRecord, if_neg (Ne.symm hyz)]

theorem State.record_of_records {s t : State} (h : t.records = s.records) (x : TileNum) : t.record x = s.record x := by
  unfold State.record
  rw [h]

theorem State.records_enterStopping (s : State) : s.enterStopping.records = s.records := by
  have h := s.fixed_enterStopping
  generalize s.enterStopping = u at h ⊢
  exact (congrArg State.records h :)

theorem State.fatalFault_records {s : State} {f : EngineFault} (hf : s.fault = .none)
    (he : s.engine = .running ∨ s.engine = .stopping) (y : TileNum) :
    ((s.fatalFault f).record y).rewrite = (s.record y).rewrite.map Rewrite.stop ∧
      ((s.record y).markChange = true → (s.fatalFault f).tileChg.getLsbD y.val = true) := by
  rw [State.fatalFault_eq hf he]
  have hrecords : (if s.engine = .running then (({ s with fault := f } : State).raise .engine).enterStopping
      else ({ s with fault := f } : State).raise .engine).records = s.records := by
    split
    · rw [State.records_enterStopping]
      rfl
    · rfl
  generalize (if s.engine = .running then (({ s with fault := f } : State).raise .engine).enterStopping
      else ({ s with fault := f } : State).raise .engine) = u at hrecords
  have hrecord := State.record_of_records hrecords y
  refine ⟨?_, fun h => State.tileChg_faultRecords allTiles u (mem_allTiles y) (by rwa [hrecord])⟩
  rw [State.record_foldl (f := State.faultRecord) (F := fun _ r =>
    { markChange := false, markStart := false, rewrite := r.rewrite.map Rewrite.stop })
    (fun s t u => s.record_faultRecord t u), hrecord]

/-- A bus error on a status write while the engine runs or stops (R174). -/
theorem statusWriteFailed_fatal {s : State} {x : TileNum} {w : Rewrite} (hfault : s.fault = .none)
    (he : s.engine = .running ∨ s.engine = .stopping) :
    (s.statusWriteFailed x w).engine = .stopping ∧ (s.statusWriteFailed x w).fault = .statusWriteError ∧
      ((s.statusWriteFailed x w).record x).rewrite = none ∧ (s.statusWriteFailed x w).notice.engine = true ∧
      ∀ y, (s.record y).markChange = true → (s.statusWriteFailed x w).tileChg.getLsbD y.val = true := by
  have heq : s.statusWriteFailed x w = (s.endRewrite x w.joins).fatalFault .statusWriteError := by
    unfold State.statusWriteFailed
    rcases he with h | h <;> rw [h]
  obtain ⟨hengine', hfault'⟩ := s.mode_endRewrite x w.joins
  have hrecord := s.record_endRewrite x w.joins
  rw [heq]
  generalize s.endRewrite x w.joins = u at hengine' hfault' hrecord
  have huf : u.fault = .none := hfault'.trans hfault
  have hue : u.engine = .running ∨ u.engine = .stopping := by rwa [hengine']
  obtain ⟨hmode, hcode⟩ := State.mode_fatalFault (f := .statusWriteError) huf hue
  refine ⟨hmode, hcode, ?_, (State.notice_fatalFault huf hue).1, fun y hy => ?_⟩
  · rw [(State.fatalFault_records huf hue x).1, hrecord, if_pos rfl]
    rfl
  · refine (State.fatalFault_records huf hue y).2 ?_
    rw [hrecord]
    split
    · next h => rw [h]; exact hy
    · exact hy

theorem State.record_startFails (s : State) (f : EngineFault) (y : TileNum) :
    ((s.startFails f).record y).rewrite = (s.record y).rewrite.map Rewrite.stop := by
  unfold State.startFails
  rw [State.record_foldl (f := State.failRecord) (F := fun _ r =>
    { markChange := r.markChange || r.stoppedJoin, markStart := false, rewrite := r.rewrite.map Rewrite.stop })
    (fun s t u => State.record_setRecord s t u _)]
  rfl

theorem State.records_cutControlBlockRead (s : State) : s.cutControlBlockRead.records = s.records := by
  unfold State.cutControlBlockRead
  split <;> rfl

theorem State.cutControlBlockRead_eq (s : State) : s.cutControlBlockRead =
    { s with cbRead := false, cutAccesses := s.cutControlBlockRead.cutAccesses } := by
  unfold State.cutControlBlockRead
  split
  · rfl
  · next h =>
    have hread : s.cbRead = false := by simpa using h
    cases s
    simp only at hread
    rw [hread]

theorem State.mem_cutControlBlockRead {s : State} (h : s.cbRead = true) :
    ⟨.controlBlock, .read s.cbaddr 128⟩ ∈ s.cutControlBlockRead.cutAccesses := by
  unfold State.cutControlBlockRead
  rw [if_pos h]
  exact List.mem_append_right _ (List.mem_singleton_self _)

/-- A bus error on a status write of START (R171). -/
theorem statusWriteFailed_starting {s : State} {x : TileNum} {w : Rewrite} {ph : StartPhase} (he : s.engine = .starting ph) :
    (s.statusWriteFailed x w).engine = .halted ∧ (s.statusWriteFailed x w).fault = .statusWriteError ∧
      ((s.statusWriteFailed x w).record x).rewrite = none ∧ (s.statusWriteFailed x w).notice.engine = true ∧
      (s.statusWriteFailed x w).cbRead = false ∧
      (s.cbRead = true → ⟨.controlBlock, .read s.cbaddr 128⟩ ∈ (s.statusWriteFailed x w).cutAccesses) := by
  have heq : s.statusWriteFailed x w =
      ((s.modRecord x fun r => { r with rewrite := none, markChange := r.markChange || w.joins }).startFails
        .statusWriteError).cutControlBlockRead := by
    unfold State.statusWriteFailed
    rw [he]
  rw [heq]
  have hnone : ((s.modRecord x fun r => { r with rewrite := none, markChange := r.markChange || w.joins }).record x).rewrite
      = none := by rw [State.record_modRecord_self]
  have hread : (s.modRecord x fun r => { r with rewrite := none, markChange := r.markChange || w.joins }).cbRead = s.cbRead :=
    rfl
  have haddr : (s.modRecord x fun r => { r with rewrite := none, markChange := r.markChange || w.joins }).cbaddr = s.cbaddr :=
    rfl
  generalize (s.modRecord x fun r => { r with rewrite := none, markChange := r.markChange || w.joins }) = u at hnone hread haddr
  have htables := u.noTables_startFails .statusWriteError
  have hrecord := u.record_startFails .statusWriteError x
  generalize u.startFails .statusWriteError = v at htables hrecord
  have hcut := v.cutControlBlockRead_eq
  have hmem := v.mem_cutControlBlockRead
  have hvread : v.cbRead = u.cbRead := (congrArg State.cbRead htables :)
  have hvaddr : v.cbaddr = u.cbaddr := (congrArg State.cbaddr htables :)
  refine ⟨?_, ?_, ?_, ?_, ?_, fun h => ?_⟩
  · exact (congrArg State.engine hcut).trans (congrArg State.engine htables :)
  · exact (congrArg State.fault hcut).trans (congrArg State.fault htables :)
  · rw [State.record_of_records v.records_cutControlBlockRead, hrecord, hnone]
    rfl
  · exact (congrArg (fun v : State => v.notice.engine) hcut).trans (congrArg (fun v : State => v.notice.engine) htables :)
  · exact congrArg State.cbRead hcut
  · rw [← haddr, ← hvaddr]
    exact hmem (hvread.trans (hread.trans h))

/-- Settles O34. -/
theorem recordsRewritten : Obligations.RecordsRewritten := by
  unfold Obligations.RecordsRewritten
  refine ⟨fun s x => ⟨fun h => ?_, fun h => ?_, s.marksRewrites_iff⟩, fun c s t x hr hh h hview => noted_exec hr hh h x hview,
    fun s x w hw => ⟨fun hstage => ?_, fun bs hstage => State.mem_accesses_of_fields hw hstage⟩, fun s x hlow hcut => ?_⟩
  · refine ⟨(s.recordChange_marks x).1 h, ?_, ?_⟩
    all_goals
      unfold State.recordChange
      rw [if_pos h]
      rfl
  · obtain ⟨hchg, hnotice⟩ := (s.recordChange_marks x).2 h
    refine ⟨hchg, hnotice, ?_⟩
    unfold State.recordChange
    rw [if_neg (by rw [h]; exact Bool.false_ne_true)]
    rfl
  · exact ⟨_, State.mem_accesses_of_count hw hstage, rfl, by simpa [halfAt, byteAt, halfBytes] using half_of_bytes _⟩
  · have hexec (ok : Bool) : exec (.statusWriteDone x ok) s = .next (statusWriteDoneEffect x ok s) :=
      endOfAccess_of_live hlow hcut _
    have hlive (h : s.fault = .none ∨ s.engine ≠ .stopping) : s.fatal = false := by
      unfold State.fatal
      rcases h with h | h <;> simp [h]
    refine ⟨fun hmark hnone hmarks => ?_, fun w hw hstop hfatal => ?_, fun w hw hfault he => ?_, fun w ph hw he => ?_,
      fun w ok hw h => ?_, fun w hw hstop hstage he hx hothers => ?_⟩
    · exact (exec_of_high hlow rfl).trans (congrArg _ (statusRewriteStartEffect_of hmark hnone hmarks))
    · refine ⟨_, hexec true, ?_⟩
      rw [statusWriteDoneEffect_next hw hstop hfatal]
      refine ⟨countOdd_next, fun bs hstage => fields_next hstage, fun hstage => ?_⟩
      obtain ⟨hrewrite, hcount, hjoined⟩ := rewriteEnded_next (s := s) (x := x) hstage
      exact ⟨hrewrite, hcount, hjoined⟩
    · refine ⟨_, hexec false, ?_⟩
      rw [statusWriteDoneEffect_failed hw (hlive (.inl hfault))]
      have hf : EventFrame (s.statusWriteFailed x w) (finish s (s.statusWriteFailed x w)) := finish_frame _ _
      obtain ⟨hengine, hcode, hrewrite, hnotice, hchg⟩ := statusWriteFailed_fatal (x := x) (w := w) hfault he
      exact ⟨hf.engine.trans hengine, hf.fault.trans hcode, (hf.rewrite x).trans hrewrite, hf.engineNotice.trans hnotice,
        fun y hy => hf.chg y.val (hchg y hy)⟩
    · refine ⟨_, hexec false, ?_⟩
      rw [statusWriteDoneEffect_failed hw (hlive (.inr (by rw [he]; exact EngineState.noConfusion)))]
      have hf : EventFrame (s.statusWriteFailed x w) (finish s (s.statusWriteFailed x w)) := finish_frame _ _
      obtain ⟨hengine, hcode, hrewrite, hnotice, hread, hmem⟩ := statusWriteFailed_starting (x := x) (w := w) he
      refine ⟨hf.engine.trans hengine, hf.fault.trans hcode, (hf.rewrite x).trans hrewrite, hf.engineNotice.trans hnotice,
        hf.cbRead.trans hread, fun h => ?_⟩
      rw [hf.cut]
      exact hmem h
    · refine ⟨_, hexec ok, ?_⟩
      rw [statusWriteDoneEffect_ended hw h]
      obtain ⟨hrewrite, -, hjoined⟩ := rewriteEnded_endRewrite s x w.joins
      obtain ⟨hengine, hfault⟩ := s.mode_endRewrite x w.joins
      exact ⟨hrewrite, hengine, hfault, hjoined⟩
    · refine ⟨_, hexec true, ?_⟩
      rw [statusWriteDoneEffect_next hw hstop (hlive (.inr (by rw [he]; exact EngineState.noConfusion)))]
      obtain ⟨hengine, hports⟩ := lastRewrite_next hstage he hx hothers
      exact ⟨hengine, fun p => ⟨(hports p).trains, (hports p).stays⟩⟩

end Sys2Proof.Machine
end

section
/-! The tile parts of a step that becomes current: how each was judged, which fail, and what stays of them (R31 to R36, R112). -/

namespace Sys2Proof.Machine

/-! ## One tile's part (R31, R32) -/

/-- The part that a step has on tile `x` as it becomes current. -/
def State.entryPart (s : State) (st : Step) (x : TileNum) : Option TilePart :=
  match s.judge st x with
  | .fail c => some ⟨x, .failing c, .empty⟩
  | .candidate => some ⟨x, .candidate, stagingFor st.kind⟩
  | .waits => some ⟨x, .waiting, .empty⟩
  | .joined => some ⟨x, .joined, .empty⟩
  | .completes => none

/-- The part that stays pending of it. -/
def State.entryKept (s : State) (st : Step) (x : TileNum) : Option TilePart :=
  match s.judge st x with
  | .fail _ => none
  | .candidate => some ⟨x, .candidate, stagingFor st.kind⟩
  | .waits => some ⟨x, .waiting, .empty⟩
  | .joined => some ⟨x, .joined, .empty⟩
  | .completes => none

/-- The failure that the step has there. -/
def State.entryFailure (s : State) (st : Step) (x : TileNum) : Option (TileNum × ErrorCode) :=
  match s.judge st x with
  | .fail c => some (x, c)
  | _ => none

theorem State.partsAtEntry_eq (s : State) (st : Step) : s.partsAtEntry st = (tilesIn st.tiles).filterMap (s.entryKept st) := by
  unfold State.partsAtEntry
  refine List.filterMap_congr fun x _ => ?_
  unfold State.entryKept
  cases s.judge st x <;> rfl

theorem State.failuresAtEntry_eq (s : State) (st : Step) :
    s.failuresAtEntry st = (tilesIn st.tiles).filterMap (s.entryFailure st) := by
  unfold State.failuresAtEntry
  refine List.filterMap_congr fun x _ => ?_
  unfold State.entryFailure
  cases s.judge st x <;> rfl

/-- The four things a verdict can make of a tile's part. -/
theorem State.entry_cases (s : State) (st : Step) (x : TileNum) :
    (∃ c, s.judge st x = .fail c ∧ s.entryPart st x = some ⟨x, .failing c, .empty⟩ ∧ s.entryKept st x = none ∧
      s.entryFailure st x = some (x, c)) ∨
    (∃ q, s.entryPart st x = some q ∧ s.entryKept st x = some q ∧ s.entryFailure st x = none ∧ q.tile = x ∧
      (q.cond = .candidate ∨ q.cond = .waiting ∨ q.cond = .joined)) ∨
    (s.entryPart st x = none ∧ s.entryKept st x = none ∧ s.entryFailure st x = none) := by
  unfold State.entryPart State.entryKept State.entryFailure
  cases s.judge st x with
  | fail c => exact .inl ⟨c, rfl, rfl, rfl, rfl⟩
  | candidate => exact .inr (.inl ⟨_, rfl, rfl, rfl, rfl, .inl rfl⟩)
  | waits => exact .inr (.inl ⟨_, rfl, rfl, rfl, rfl, .inr (.inl rfl)⟩)
  | joined => exact .inr (.inl ⟨_, rfl, rfl, rfl, rfl, .inr (.inr rfl)⟩)
  | completes => exact .inr (.inr ⟨rfl, rfl, rfl⟩)

/-! ## What the parts of a list of tiles come to -/

section
variable (s : State) (st : Step)

theorem State.mem_entryFailures {x : TileNum} {c : ErrorCode} {l : List TileNum}
    (h : (x, c) ∈ l.filterMap (s.entryFailure st)) : x ∈ l ∧ s.judge st x = .fail c := by
  obtain ⟨y, hy, hfail⟩ := List.mem_filterMap.1 h
  rcases s.entry_cases st y with ⟨d, hjudge, -, -, e⟩ | ⟨-, -, -, e, -⟩ | ⟨-, -, e⟩ <;> rw [e] at hfail <;> cases hfail
  exact ⟨hy, hjudge⟩

theorem State.mem_entryKept {x : TileNum} {q : TilePart} (h : s.entryKept st x = some q) :
    q.tile = x ∧ (q.cond = .candidate ∨ q.cond = .waiting ∨ q.cond = .joined) := by
  rcases s.entry_cases st x with ⟨-, -, -, e, -⟩ | ⟨q', -, e, -, htile, hcond⟩ | ⟨-, e, -⟩ <;> rw [e] at h <;> cases h
  exact ⟨htile, hcond⟩

/-- The lowest failing part is that of the first tile that fails (R35). -/
theorem State.lowestFailing_entry (l : List TileNum) (hl : l.Pairwise (· < ·)) :
    lowestFailing (l.filterMap (s.entryPart st)) = (l.filterMap (s.entryFailure st)).head? := by
  induction l with
  | nil => rfl
  | cons x l ih =>
    obtain ⟨hx, hl⟩ := List.pairwise_cons.1 hl
    rcases s.entry_cases st x with ⟨c, -, hp, -, hf⟩ | ⟨q, hp, -, hf, -, hcond⟩ | ⟨hp, -, hf⟩
    · rw [List.filterMap_cons_some hp, List.filterMap_cons_some hf, List.head?_cons, lowestFailing, ih hl]
      cases hhead : (l.filterMap (s.entryFailure st)).head? with
      | none => rfl
      | some f =>
        obtain ⟨y, d⟩ := f
        have hy := (s.mem_entryFailures st (List.mem_of_head? hhead)).1
        exact if_pos (hx y hy)
    · rw [List.filterMap_cons_some hp, List.filterMap_cons_none hf, lowestFailing, ih hl]
      rcases hcond with h | h | h <;> rw [h]
    · rw [List.filterMap_cons_none hp, List.filterMap_cons_none hf, ih hl]

theorem State.countFailing_entry (l : List TileNum) :
    countFailing (l.filterMap (s.entryPart st)) = (l.filterMap (s.entryFailure st)).length := by
  induction l with
  | nil => rfl
  | cons x l ih =>
    unfold countFailing at ih ⊢
    rcases s.entry_cases st x with ⟨c, -, hp, -, hf⟩ | ⟨q, hp, -, hf, -, hcond⟩ | ⟨hp, -, hf⟩
    · rw [List.filterMap_cons_some hp, List.filterMap_cons_some hf, List.filter_cons_of_pos rfl, List.length_cons,
        List.length_cons, ih]
    · rw [List.filterMap_cons_some hp, List.filterMap_cons_none hf, List.filter_cons_of_neg ?_, ih]
      rcases hcond with h | h | h <;> simp [h]
    · rw [List.filterMap_cons_none hp, List.filterMap_cons_none hf, ih]

variable {f : TileNum → Bool} (hf : ∀ x, f x = false)
include hf

/-- With nothing in flight a failed part ends with its failure (R36). -/
theorem State.tidy_entry (l : List TileNum) :
    (l.filterMap (s.entryPart st)).filterMap (fun q => settlePart (f q.tile) q) = l.filterMap (s.entryKept st) := by
  rw [List.filterMap_filterMap]
  refine List.filterMap_congr fun x _ => ?_
  rcases s.entry_cases st x with ⟨c, -, hp, hk, -⟩ | ⟨q, hp, hk, -, -, hcond⟩ | ⟨hp, hk, -⟩
  · rw [hp, hk]
    show settlePart (f x) _ = none
    rw [hf]
    rfl
  · rw [hp, hk]
    refine settlePart_of_not_failed ?_
    rcases hcond with h | h | h <;> rw [h] <;> rfl
  · rw [hp, hk]
    rfl

/-- What stays of a job's parts when it fails at a step that becomes current (R36, R39). -/
theorem State.drained_entry (l : List TileNum) :
    ((l.filterMap (s.entryPart st)).filterMap fun q => withdrawPart (f q.tile) q).filterMap
        (fun q => settlePart (f q.tile) q) =
      ((l.filterMap (s.entryKept st)).filter fun q => decide (q.cond = .candidate)).map
        fun q => ⟨q.tile, .withdrawn, .empty⟩ := by
  have hset (q : TilePart) : settlePart (f q.tile) q = if q.cond.hasFailed then none else some q := by
    unfold settlePart
    rw [hf]
    rfl
  have hwithdraw (q : TilePart) : withdrawPart (f q.tile) q = withdrawPart false q := by rw [hf]
  simp only [hset, hwithdraw]
  induction l with
  | nil => rfl
  | cons x l ih =>
    rcases s.entry_cases st x with ⟨c, -, hp, hk, -⟩ | ⟨⟨y, d, g⟩, hp, hk, -, -, hcond⟩ | ⟨hp, hk, -⟩
    · rw [List.filterMap_cons_some hp, List.filterMap_cons_none hk, ← ih]
      rfl
    · rw [List.filterMap_cons_some hp, List.filterMap_cons_some hk]
      rcases hcond with h | h | h <;> cases h
      · rw [List.filter_cons_of_pos (by rfl), List.map_cons, ← ih]
        rfl
      · rw [List.filter_cons_of_neg (by simp), ← ih]
        rfl
      · rw [List.filter_cons_of_neg (by simp), ← ih]
        rfl
    · rw [List.filterMap_cons_none hp, List.filterMap_cons_none hk, ih]

end

/-! ## The parts are added, tile by tile -/

section
variable {s : State} {i : SlotNum} (st : Step)

theorem State.judge_disarmed (s : State) (x y : TileNum) :
    (s.modTile x fun e => { e with armed := false }).judge st y = s.judge st y := by
  refine State.judge_congr (s := s) (t := s.modTile x fun e => { e with armed := false }) ?_ rfl st
  rw [State.tile_modTile]
  split
  · next h => rw [h]; rfl
  · rfl

theorem State.entryPart_of_judge {s t : State} {st : Step} {x : TileNum} (h : t.judge st x = s.judge st x) :
    t.entryPart st x = s.entryPart st x := by
  unfold State.entryPart
  rw [h]

/-- The job of a step, with the part that one tile adds. -/
theorem State.job_startPart {j : Job} (hj : s.job i = some j) (x : TileNum) :
    (s.startPart i st x).job i = some { j with parts := j.parts ++ (s.entryPart st x).toList } := by
  have hadd (u : State) (hu : u.job i = some j) (q : TilePart) :
      (u.modJob i fun j => { j with parts := j.parts ++ [q] }).job i = some { j with parts := j.parts ++ [q] } := by
    rw [State.job_modJob, if_pos rfl, hu]
    rfl
  have hdisarmed : (s.modTile x fun e => { e with armed := false }).job i = some j := hj
  have hmarked (c : ErrorCode) : ((s.modTile x fun e => { e with armed := false }).markError x c).job i = some j := by
    unfold State.markError
    split <;> exact hj
  unfold State.startPart State.entryPart
  dsimp only
  rw [State.judge_disarmed]
  cases s.judge st x with
  | fail c => exact hadd _ (hmarked c) _
  | candidate => exact hadd _ hdisarmed _
  | waits => exact hadd _ hdisarmed _
  | joined => exact hadd _ hdisarmed _
  | completes => exact hdisarmed.trans (by rw [Option.toList_none, List.append_nil])

theorem State.job_startParts (l : List TileNum) {j : Job} (hj : s.job i = some j) :
    (l.foldl (fun s x => s.startPart i st x) s).job i =
      some { j with parts := j.parts ++ l.filterMap (s.entryPart st) } := by
  induction l generalizing s j with
  | nil => simpa using hj
  | cons x l ih =>
    rw [List.foldl_cons, ih (State.job_startPart st hj x)]
    have hsame : l.filterMap ((s.startPart i st x).entryPart st) = l.filterMap (s.entryPart st) :=
      List.filterMap_congr fun y _ => State.entryPart_of_judge ((s.startPart_frame i st x).judge st y)
    rw [hsame]
    cases h : s.entryPart st x with
    | none => rw [List.filterMap_cons_none h, Option.toList_none, List.append_nil]
    | some q => rw [List.filterMap_cons_some h, Option.toList_some, List.append_assoc, List.singleton_append]

/-- The last error of a tile that a verdict was passed on (R16). -/
def Verdict.errorAfter (old : Option ErrorCode) : Verdict → Option ErrorCode
  | .fail c => if c.marksTile then some c else old
  | _ => old

theorem State.tile_startPart (x : TileNum) : (s.startPart i st x).tile x =
    { s.tile x with armed := false, lastError := (s.judge st x).errorAfter (s.tile x).lastError } := by
  have hdisarmed : (s.modTile x fun e => { e with armed := false }).tile x = { s.tile x with armed := false } := by
    rw [State.tile_modTile, if_pos rfl]
  unfold State.startPart
  dsimp only
  rw [State.judge_disarmed]
  generalize (s.modTile x fun e => { e with armed := false }) = u at hdisarmed
  have hadd (v : State) (q : TilePart) : (v.modJob i fun j => { j with parts := j.parts ++ [q] }).tile x = v.tile x :=
    State.tile_of_tiles (State.tiles_modJob _ _ _) x
  cases s.judge st x with
  | fail c =>
    dsimp only
    rw [hadd]
    unfold State.markError Verdict.errorAfter
    dsimp only
    split
    · rw [State.setError, State.tile_modTile, if_pos rfl, hdisarmed]
    · exact hdisarmed
  | candidate => exact (hadd _ _).trans hdisarmed
  | waits => exact (hadd _ _).trans hdisarmed
  | joined => exact (hadd _ _).trans hdisarmed
  | completes => exact hdisarmed

theorem State.tile_startParts {x : TileNum} (l : List TileNum) (hl : l.Nodup) (hx : x ∈ l) :
    (l.foldl (fun s x => s.startPart i st x) s).tile x =
      { s.tile x with armed := false, lastError := (s.judge st x).errorAfter (s.tile x).lastError } := by
  induction l generalizing s with
  | nil => cases hx
  | cons y l ih =>
    obtain ⟨hy, hl⟩ := List.nodup_cons.1 hl
    rw [List.foldl_cons]
    by_cases hxy : x = y
    · subst hxy
      rw [State.tile_startParts_notMem _ _ st hy, State.tile_startPart]
    · have hsame : (s.startPart i st y).tile x = s.tile x := State.tile_startPart_ne _ _ (Ne.symm hxy) st
      rw [ih hl ((List.mem_cons.1 hx).resolve_left hxy), hsame, (s.startPart_frame i st y).judge]

end

theorem tilesIn_sorted (ts : TileSet) : (tilesIn ts).Pairwise (· < ·) :=
  List.Pairwise.filter _ (show allTiles.Pairwise (· < ·) by decide)

theorem tilesIn_nodup (ts : TileSet) : (tilesIn ts).Nodup := (tilesIn_sorted ts).imp fun h => ne_of_lt h

/-- A step's entry fails with a code that marks the tile, or with NO_TILE (R31). -/
theorem State.judge_fail_code {s : State} {st : Step} {x : TileNum} {c : ErrorCode} (h : s.judge st x = .fail c) :
    c = .noTile ∨ c ≠ .noTile ∧ c.marksTile = true := by
  unfold State.judge at h
  split at h
  · next d hcheck =>
    cases h
    unfold entryCheck at hcheck
    repeat' split at hcheck
    all_goals cases hcheck
    · exact .inl rfl
    · exact .inr ⟨ErrorCode.noConfusion, rfl⟩
    · exact .inr ⟨ErrorCode.noConfusion, rfl⟩
    · exact .inr ⟨ErrorCode.noConfusion, rfl⟩
  · split at h
    · cases h
    · refine .inr ?_
      unfold disposition at h
      repeat' split at h
      all_goals cases h
      all_goals exact ⟨ErrorCode.noConfusion, rfl⟩

theorem State.errorAfter_of_fail {s : State} {st : Step} {x : TileNum} {c : ErrorCode} (h : s.judge st x = .fail c)
    (old : Option ErrorCode) : (s.judge st x).errorAfter old = if c = .noTile then old else some c := by
  rw [h]
  rcases State.judge_fail_code h with rfl | ⟨hne, hmark⟩
  · rfl
  · exact (if_pos hmark).trans (if_neg hne).symm

end Sys2Proof.Machine
end

section
/-! A job is admitted: its step 0 becomes current with its tile parts, its WAIT or its PAUSE (R28, R31, R35, R36, R163, R166). -/

namespace Sys2Proof.Machine

/-! ## The step that becomes current -/

section
variable {s : State} {i : SlotNum} {j : Job} {st : Step} (hj : s.job i = some j) (hst : j.step? = some st)
include hj hst

theorem State.stepCurrent_tiles (hengine : st.kind.isEngine = false) :
    s.stepCurrent i = ((tilesIn st.tiles).foldl (fun s x => s.startPart i st x) s).resolveSlot i := by
  have hbind : (s.job i).bind Job.step? = some st := by rw [hj]; exact hst
  unfold State.stepCurrent
  rw [hbind]
  dsimp only
  split
  · next h => rw [h] at hengine; cases hengine
  · next h => rw [h] at hengine; cases hengine
  · next h => rw [h] at hengine; cases hengine
  · rfl

theorem State.stepCurrent_wait (hkind : st.kind = .wait) {src : EventSource} (hsrc : EventSource.ofCode st.x.toNat = some src) :
    s.stepCurrent i = { s with waitList := s.waitList ++ [⟨i, src, plusMs s.now (st.y.toNat % 2 ^ 16)⟩] } := by
  have hbind : (s.job i).bind Job.step? = some st := by rw [hj]; exact hst
  have hlow : (lowHalf st.y).toNat = st.y.toNat % 2 ^ 16 := BitVec.toNat_setWidth _ _
  unfold State.stepCurrent
  rw [hbind]
  dsimp only
  rw [hkind]
  dsimp only
  rw [hsrc, hlow]

theorem State.stepCurrent_pause (hkind : st.kind = .pause) :
    s.stepCurrent i = s.modJob i fun j => { j with pauseDue := some (plusMs s.now (st.x.toNat % 2 ^ 16)) } := by
  have hbind : (s.job i).bind Job.step? = some st := by rw [hj]; exact hst
  have hlow : (lowHalf st.x).toNat = st.x.toNat % 2 ^ 16 := BitVec.toNat_setWidth _ _
  unfold State.stepCurrent
  rw [hbind]
  dsimp only
  rw [hkind]
  dsimp only
  rw [hlow]

theorem State.stepCurrent_mark (hkind : st.kind = .mark) {n : Fin 4} (hn : st.x.toNat = n.val) :
    s.stepCurrent i = (s.occur (.mark n)).modJob i Job.engineStepDone := by
  have hbind : (s.job i).bind Job.step? = some st := by rw [hj]; exact hst
  unfold State.stepCurrent
  rw [hbind]
  dsimp only
  rw [hkind]
  dsimp only
  rw [hn, Fin.ofNat_val_eq_self]

/-- The job of a step with tile parts, once its entry has been settled. -/
theorem State.job_stepCurrent_tiles (hengine : st.kind.isEngine = false) : (s.stepCurrent i).job i = some
    (({ j with parts := j.parts ++ (tilesIn st.tiles).filterMap (s.entryPart st) } : Job).resolve (s.hasInFlight i)) := by
  have hframe : JobFrame s ((tilesIn st.tiles).foldl (fun s x => s.startPart i st x) s) :=
    JobFrame.foldl (fun s x => State.startPart_frame s i st x) _ s
  have hjob := State.job_startParts st (tilesIn st.tiles) hj
  rw [State.stepCurrent_tiles hj hst hengine, State.job, State.slot_resolveSlot, if_pos rfl, State.slot_of_job hjob,
    show ((tilesIn st.tiles).foldl (fun s x => s.startPart i st x) s).hasInFlight i = s.hasInFlight i from
      funext fun x => hframe.hasInFlight i x]
  rfl

theorem State.slot_stepCurrent_tiles (hengine : st.kind.isEngine = false) {k : SlotNum} (hk : k ≠ i) :
    (s.stepCurrent i).slot k = s.slot k := by
  rw [State.stepCurrent_tiles hj hst hengine, State.slot_resolveSlot, if_neg (Ne.symm hk)]
  exact State.slot_startParts_ne s i hk st _

theorem State.tile_stepCurrent_tiles (hengine : st.kind.isEngine = false) {x : TileNum} (hx : x ∈ tilesIn st.tiles) :
    (s.stepCurrent i).tile x =
      { s.tile x with armed := false, lastError := (s.judge st x).errorAfter (s.tile x).lastError } := by
  rw [State.stepCurrent_tiles hj hst hengine, State.tile_of_tiles (State.tiles_resolveSlot _ i)]
  exact State.tile_startParts st _ (tilesIn_nodup st.tiles) hx

end

/-! ## The admitted job -/

/-- The job as it is admitted (R28). -/
def Job.admitted (j : Job) (now : Word) : Job := { j with phase := .running, startedAt := now }

/-- What is true of a QUEUED job between two events, with no tile part and nothing in flight, whose step is `st`. -/
structure Admitting (s : State) (i : SlotNum) (j : Job) (st : Step) : Prop where
  quiet : Quiet s
  running : s.engine = .running
  job : s.job i = some j
  queued : j.phase = .queued
  parts : j.parts = []
  inFlight : ∀ x, s.hasInFlight i x = false
  step : j.step? = some st

theorem State.slot_started (s : State) {i k : SlotNum} (hk : k ≠ i) : (s.started i).slot k = s.slot k := by
  rw [State.started, State.slot_modJob_eq, if_neg (Ne.symm hk)]

theorem State.tile_started (s : State) (i : SlotNum) (x : TileNum) : (s.started i).tile x = s.tile x :=
  State.tile_of_tiles (State.tiles_modJob _ _ _) x

theorem State.judge_started (s : State) (i : SlotNum) (st : Step) (x : TileNum) : (s.started i).judge st x = s.judge st x := by
  refine State.judge_congr (by rw [State.tile_started]) ?_ st
  have hport : (s.started i).port (portOf x) = s.port (portOf x) := State.port_of_ports (State.ports_modJob s i _) _
  unfold State.powerInFlight
  rw [hport]

theorem State.lowestFailing_of_failures {s : State} {st : Step} {f : TileNum × ErrorCode} {rest : List (TileNum × ErrorCode)} (hfail : s.failuresAtEntry st = f :: rest) :
    lowestFailing ((tilesIn st.tiles).filterMap (s.entryPart st)) = some (f.1, f.2) := by
  rw [s.lowestFailing_entry st _ (tilesIn_sorted st.tiles), ← s.failuresAtEntry_eq, hfail]
  rfl

theorem State.states_admitJob (s : State) (i : SlotNum) (x : TileNum) : (s.tile x).state = ((s.admitJob i).tile x).state := by
  have hstate : ((s.admitJob i).tile x).state = ((s.started i).tile x).state :=
    (congrArg TileEntry.state ((admitJob_frame s i).tile x) :)
  rw [hstate, s.tile_started]

theorem Job.resolve_of_none_failing {j : Job} (h : lowestFailing j.parts = none) (f : TileNum → Bool) :
    j.resolve f = j.tidy f := by
  unfold Job.resolve Job.countFailures
  rw [h]
  cases j.phase.isRunning <;> rfl

namespace Admitting

variable {s : State} {i : SlotNum} {j : Job} {st : Step} (h : Admitting s i j st)
include h

theorem started : (s.started i).job i = some (j.admitted s.now) := State.job_started h.job

theorem started_step : (j.admitted s.now).step? = some st := h.step

theorem engineDone : j.engineDone = false := h.quiet.2.1 i j h.job

theorem fatal : s.fatal = false := by
  unfold State.fatal
  rw [h.running]
  rfl

theorem settled : (s.admitJob i).Settled :=
  State.settled_stepCurrent (s := s.started i)
    (h.quiet.settled.modJob i (f := fun j => { j with phase := .running, startedAt := s.now }) fun _ => rfl) i

theorem resolved_eq : resolved s (s.admitJob i) = s.admitJob i := resolved_eq_self (s.states_admitJob i) h.settled

theorem not_ready {k : SlotNum} {m : Job} (hk : s.job k = some m) : m.stepOver = false := by
  by_contra hover
  have hmem := State.mem_readySlots.2 ⟨m, hk, Bool.of_not_eq_false hover⟩
  rw [h.quiet.ready] at hmem
  cases hmem

/-- Where no other job goes on and the admitted job's step is not over, the event ends there. -/
theorem finish_of_not_over (hothers : ∀ k, k ≠ i → (s.admitJob i).slot k = s.slot k) {m : Job}
    (hm : (s.admitJob i).job i = some m) (hover : m.stepOver = false) :
    (finish s (s.admitJob i)).slots = (s.admitJob i).slots ∧ (finish s (s.admitJob i)).waitList = (s.admitJob i).waitList ∧
      ∀ x, (finish s (s.admitJob i)).tile x = (s.admitJob i).closedEntry x ((s.admitJob i).tile x) := by
  have hready : (s.admitJob i).readySlots = [] := by
    refine List.eq_nil_iff_forall_not_mem.2 fun k hk => ?_
    obtain ⟨n, hn, hnover⟩ := State.mem_readySlots.1 hk
    by_cases hki : k = i
    · subst hki
      rw [hm] at hn
      cases hn
      rw [hover] at hnover
      cases hnover
    · rw [State.job_of_slot (hothers k hki)] at hn
      rw [h.not_ready hn] at hnover
      cases hnover
  have hsettle := settle_of_still (s.states_admitJob i) h.settled hready
  refine ⟨slots_finish_of_still (s.states_admitJob i) h.settled hready, ?_, fun x => ?_⟩
  · rw [finish, waitList_commit, hsettle, State.waitList_closeStreams]
  · rw [finish, State.tile_commit, hsettle, State.tile_closeStreams]

/-! ### A step with tile parts -/

/-- The job with the parts as they were judged, before its failures are settled. -/
theorem job_entered (hengine : st.kind.isEngine = false) : (s.admitJob i).job i = some
    (({ j.admitted s.now with parts := (tilesIn st.tiles).filterMap (s.entryPart st) } : Job).resolve (s.hasInFlight i)) := by
  have hjob := State.job_stepCurrent_tiles h.started h.started_step hengine
  have hparts : (j.admitted s.now).parts = [] := h.parts
  have hsame : (tilesIn st.tiles).filterMap ((s.started i).entryPart st) = (tilesIn st.tiles).filterMap (s.entryPart st) :=
    List.filterMap_congr fun x _ => State.entryPart_of_judge (s.judge_started i st x)
  rw [hsame, hparts, List.nil_append, show (s.started i).hasInFlight i = s.hasInFlight i from
    funext fun x => s.hasInFlight_modJob i i _ x] at hjob
  exact hjob

theorem others (hengine : st.kind.isEngine = false) {k : SlotNum} (hk : k ≠ i) : (s.admitJob i).slot k = s.slot k :=
  (State.slot_stepCurrent_tiles h.started h.started_step hengine hk).trans (s.slot_started hk)

theorem tile_entered (hengine : st.kind.isEngine = false) {x : TileNum} (hx : x ∈ tilesIn st.tiles) :
    (s.admitJob i).tile x =
      { s.tile x with armed := false, lastError := (s.judge st x).errorAfter (s.tile x).lastError } := by
  have htile := State.tile_stepCurrent_tiles h.started h.started_step hengine hx
  rw [s.judge_started, s.tile_started] at htile
  exact htile

theorem tidied : ((tilesIn st.tiles).filterMap (s.entryPart st)).filterMap
    (fun q => settlePart (s.hasInFlight i q.tile) q) = s.partsAtEntry st := by
  rw [s.partsAtEntry_eq]
  exact s.tidy_entry st h.inFlight _

theorem job_no_failure (hengine : st.kind.isEngine = false) (hnone : s.failuresAtEntry st = []) :
    (s.admitJob i).job i = some { j.admitted s.now with parts := s.partsAtEntry st } := by
  rw [h.job_entered hengine]
  have hlow : lowestFailing ((tilesIn st.tiles).filterMap (s.entryPart st)) = none := by
    rw [s.lowestFailing_entry st _ (tilesIn_sorted st.tiles), ← s.failuresAtEntry_eq, hnone]
    rfl
  rw [Job.resolve_of_none_failing (j := { j.admitted s.now with
    parts := (tilesIn st.tiles).filterMap (s.entryPart st) }) hlow]
  unfold Job.tidy
  dsimp only
  rw [h.tidied]

theorem flag : (j.admitted s.now).flag Step.tolerant = st.tolerant := Job.flag_of_step h.started_step _

theorem job_tolerated (hengine : st.kind.isEngine = false) (hfail : s.failuresAtEntry st ≠ []) (htol : st.tolerant = true) :
    (s.admitJob i).job i = some { j.admitted s.now with
      parts := s.partsAtEntry st, tolerated := min 255 (j.tolerated + (s.failuresAtEntry st).length) } := by
  obtain ⟨f, rest, hfail⟩ := List.exists_cons_of_ne_nil hfail
  rw [h.job_entered hengine, Job.resolve_tolerates (k := { j.admitted s.now with
    parts := (tilesIn st.tiles).filterMap (s.entryPart st) }) rfl (State.lowestFailing_of_failures hfail) (h.flag.trans htol)]
  dsimp only
  rw [h.tidied, s.countFailing_entry st, ← s.failuresAtEntry_eq]
  rfl

/-- The job fails at the lowest of the tiles that fail, and drains (R35, R36). -/
theorem job_failed (hengine : st.kind.isEngine = false) {f : TileNum × ErrorCode} {rest : List (TileNum × ErrorCode)}
    (hfail : s.failuresAtEntry st = f :: rest) (htol : st.tolerant = false) :
    ∃ j', (s.admitJob i).job i = some j' ∧ j'.phase = .draining ∧ j'.firstFailure = some ⟨f.2, j.current, some f.1⟩ ∧
      j'.stepsDone = j.stepsDone ∧
      j'.parts = ((s.partsAtEntry st).filter fun q => decide (q.cond = .candidate)).map fun q => ⟨q.tile, .withdrawn, .empty⟩ := by
  refine ⟨_, h.job_entered hengine, ?_⟩
  have hlow := State.lowestFailing_of_failures hfail
  have hflag : ({ j.admitted s.now with parts := (tilesIn st.tiles).filterMap (s.entryPart st) } : Job).flag Step.tolerant =
      false := h.flag.trans htol
  obtain ⟨hphase, hfirst, hdone, -⟩ := Job.resolve_drains (k := { j.admitted s.now with
    parts := (tilesIn st.tiles).filterMap (s.entryPart st) }) rfl hlow hflag (s.hasInFlight i)
  refine ⟨hphase, hfirst, hdone, ?_⟩
  rw [s.partsAtEntry_eq, ← s.drained_entry st h.inFlight]
  unfold Job.resolve Job.countFailures
  dsimp only
  rw [hlow, hflag]
  rfl

/-- The tiles that fail take their codes (R16, R31). -/
theorem errors (hengine : st.kind.isEngine = false) {f : TileNum × ErrorCode} (hf : f ∈ s.failuresAtEntry st) :
    ((s.admitJob i).tile f.1).lastError = if f.2 = .noTile then (s.tile f.1).lastError else some f.2 := by
  rw [s.failuresAtEntry_eq] at hf
  obtain ⟨hmem, hjudge⟩ := s.mem_entryFailures st hf
  rw [h.tile_entered hengine hmem]
  exact State.errorAfter_of_fail hjudge _

theorem disarms (hengine : st.kind.isEngine = false) {q : TilePart} (hq : q ∈ s.partsAtEntry st) :
    ((s.admitJob i).tile q.tile).armed = false := by
  rw [s.partsAtEntry_eq] at hq
  obtain ⟨x, hx, hkept⟩ := List.mem_filterMap.1 hq
  rw [(s.mem_entryKept st hkept).1, h.tile_entered hengine hx]

end Admitting

theorem Job.not_over_of_parts {j : Job} {st : Step} (hst : j.step? = some st) (hengine : st.kind.isEngine = false)
    (hparts : j.parts ≠ []) : j.stepOver = false := by
  unfold Job.stepOver
  rw [hst]
  dsimp only
  rw [if_neg (by rw [hengine]; exact Bool.false_ne_true), List.isEmpty_eq_false_iff.2 hparts, Bool.and_false]

theorem Job.over_of_no_parts {j : Job} {st : Step} (hst : j.step? = some st) (hengine : st.kind.isEngine = false)
    (hparts : j.parts = []) (hrun : j.phase.isRunning = true) : j.stepOver = true := by
  unfold Job.stepOver
  rw [hst]
  dsimp only
  rw [if_neg (by rw [hengine]; exact Bool.false_ne_true), hparts, hrun]
  rfl

theorem Job.stepOver_engine {j : Job} {st : Step} (hst : j.step? = some st) (hengine : st.kind.isEngine = true)
    (hrun : j.phase.isRunning = true) : j.stepOver = j.engineDone := by
  unfold Job.stepOver
  rw [hst]
  dsimp only
  rw [if_pos hengine, hrun, Bool.true_and]

theorem State.closedEntry_armed (s : State) (x : TileNum) (e : TileEntry) :
    (s.closedEntry x e).armed = e.armed ∧ (s.closedEntry x e).lastError = e.lastError := by
  rcases s.closedEntry_cases x e with h | h <;> rw [h] <;> exact ⟨rfl, rfl⟩

end Sys2Proof.Machine
end

section
/-! A MARK at admission, and the MARK that follows it: the WAITs that an occurrence completes go on before the MARK itself, so
that the next WAIT listens when the next MARK comes (R161, R163, R167). -/

namespace Sys2Proof.Machine

/-! ## What the completion of one job's step leaves of another's -/

section
variable {s : State} {p q : SlotNum}

theorem State.mem_waitList_stepCurrent {w : WaitEntry} (hw : w ∈ s.waitList) (hne : w.slot ≠ q) :
    w ∈ (s.stepCurrent q).waitList ∨ (s.stepCurrent q).slot w.slot = (s.slot w.slot).mapJob Job.engineStepDone := by
  unfold State.stepCurrent
  split
  · exact .inl hw
  · next st _ =>
    split
    · split
      · exact .inl (List.mem_append_left _ hw)
      · exact .inl hw
    · exact .inl (by simpa using hw)
    · by_cases hsrc : w.source = .mark (Fin.ofNat 4 st.x.toNat)
      · refine .inr ?_
        rw [State.slot_modJob_eq, if_neg (Ne.symm hne), State.slot_occur, if_pos ⟨w, hw, hsrc, rfl⟩]
      · refine .inl ?_
        simp only [State.modJob_fields, State.waitList_occur]
        exact List.mem_filter.2 ⟨hw, decide_eq_true hsrc⟩
    · refine .inl ?_
      have hparts : w ∈ ((tilesIn st.tiles).foldl (fun s t => s.startPart q st t) s).waitList := by
        rwa [State.waitList_startParts]
      rcases ((tilesIn st.tiles).foldl (fun s t => s.startPart q st t) s).waitList_resolveSlot q with h | h <;> rw [h]
      · exact hparts
      · exact List.mem_filter.2 ⟨hparts, decide_eq_true hne⟩

theorem State.mem_waitList_completeStep {w : WaitEntry} (hw : w ∈ s.waitList) (hne : w.slot ≠ q) :
    w ∈ (s.completeStep q).waitList ∨ (s.completeStep q).slot w.slot = (s.slot w.slot).mapJob Job.engineStepDone := by
  cases hj : s.job q with
  | none => exact .inl (by simpa [State.completeStep, hj] using hw)
  | some j =>
    rw [State.completeStep_eq hj]
    split
    · have h := State.mem_waitList_stepCurrent (s := s.modJob q Job.next) (q := q) (w := w) (by simpa using hw) hne
      rwa [State.slot_modJob_eq, if_neg (Ne.symm hne)] at h
    · exact .inl (by simpa using hw)

/-- Another job whose step is over waits its turn. -/
theorem State.job_completeStep_ready {k : Job} (hk : s.job p = some k) (hover : k.stepOver = true) (hne : p ≠ q) :
    (s.completeStep q).job p = some k := by
  rcases s.slot_completeStep_ne hne with h | ⟨-, h⟩
  · exact (State.job_of_slot h).trans hk
  · rw [State.job, h, State.slot_of_job hk]
    exact congrArg some (Job.engineStepDone_of_stepOver hover)

/-- Another job at a WAIT or a MARK goes no further than the end of its step. -/
theorem State.job_completeStep_ne {k : Job} (hk : s.job p = some k) (hne : p ≠ q) :
    (s.completeStep q).job p = some k ∨ (s.completeStep q).job p = some k.engineStepDone := by
  rcases s.slot_completeStep_ne hne with h | ⟨-, h⟩
  · exact .inl ((State.job_of_slot h).trans hk)
  · refine .inr ?_
    rw [State.job, h, State.slot_of_job hk]
    rfl

/-- A job whose step is over has one step more done once it has gone on. -/
theorem State.stepsDone_completeStep {k : Job} (hfatal : s.fatal = false) (hk : s.job p = some k)
    (hrun : ∀ j, s.job p = some j → j.phase.isRunning = true) :
    ∃ k', (s.completeStep p).job p = some k' ∧ k.stepsDone + 1 ≤ k'.stepsDone := by
  obtain ⟨k', hk', -⟩ := (State.completeStep_frame s p hrun).taken hfatal hk
  exact ⟨k', hk', (State.job_completeStep hk hk').1.stepsDone⟩

theorem State.stepsDone_kept {k : Job} (hfatal : s.fatal = false) (hq : q ∈ s.nextSlots) (hk : s.job p = some k) :
    ∃ k', (s.completeStep q).job p = some k' ∧ k.stepsDone ≤ k'.stepsDone := by
  have hready := State.ready_of_next hq
  obtain ⟨k', hk', -⟩ := (State.completeStep_frame s q (State.running_of_ready hready)).taken hfatal hk
  obtain ⟨m, hm, hmoves⟩ := moves_completeStep s hready p k' hk'
  rw [hk] at hm
  cases hm
  exact ⟨k', hk', hmoves.ahead.stepsDone⟩

end

theorem Job.engineStepDone_over {j : Job} {st : Step} (hst : j.step? = some st) (hengine : st.kind.isEngine = true)
    (hrun : j.phase.isRunning = true) : j.engineStepDone.stepOver = true := by
  have hat : j.atEngineStep = true := by
    unfold Job.atEngineStep
    rw [hst, hrun]
    exact hengine
  rw [Job.stepOver_engine (j := j.engineStepDone) hst hengine hrun]
  show (j.engineDone || j.atEngineStep) = true
  rw [hat, Bool.or_true]

/-! ## The WAIT that the next MARK completes -/

section
variable (p i : SlotNum) (k j : Job) (m : Fin 4)

/-- The job of the MARK is still to go on. -/
def State.MarkToGo (u : State) : Prop :=
  ∃ j', u.job i = some j' ∧ j'.stepOver = true ∧ j'.steps = j.steps ∧ j'.current = j.current

/-- How far the job in slot `p`, which was job `k` at its WAIT, has come: to go on from its first WAIT, at its second with the
MARK still to go on, to go on from its second, or past it. -/
inductive MarkPath (u : State) : Prop
  | first (k' : Job) (job : u.job p = some k') (ready : k'.stepOver = true) (steps : k'.steps = k.steps)
      (current : k'.current = k.current) (done : k'.stepsDone = k.stepsDone) (mark : u.MarkToGo i j)
  | second (k' : Job) (job : u.job p = some k') (running : k'.phase.isRunning = true) (steps : k'.steps = k.steps)
      (current : k'.current = k.current + 1) (done : k'.stepsDone = k.stepsDone + 1)
      (waits : ∃ w ∈ u.waitList, w.slot = p ∧ w.source = .mark m) (mark : u.MarkToGo i j)
  | onward (k' : Job) (job : u.job p = some k') (ready : k'.stepOver = true) (done : k.stepsDone + 1 ≤ k'.stepsDone)
  | past (k' : Job) (job : u.job p = some k') (done : k.stepsDone + 2 ≤ k'.stepsDone)

end

section
variable {p i q : SlotNum} {k j : Job} {m : Fin 4} {a b c d : Step} {u : State}

theorem State.MarkToGo.ready (h : u.MarkToGo i j) : i ∈ u.readySlots := by
  obtain ⟨j', hj', hover, -, -⟩ := h
  exact State.mem_readySlots.2 ⟨j', hj', hover⟩

theorem State.MarkToGo.kept (h : u.MarkToGo i j) (hne : i ≠ q) : (u.completeStep q).MarkToGo i j := by
  obtain ⟨j', hj', hover, hrest⟩ := h
  exact ⟨j', State.job_completeStep_ready hj' hover hne, hover, hrest⟩

/-- The first WAIT goes on to the second, which listens from then on. -/
theorem State.completeStep_to_wait {k' : Job} (hk : u.job p = some k') (hb : k'.steps[k'.current + 1]? = some b)
    (hwait : b.kind = .wait) (hsrc : EventSource.ofCode b.x.toNat = some (.mark m)) :
    (u.completeStep p).job p = some k'.next ∧ ∃ w ∈ (u.completeStep p).waitList, w.slot = p ∧ w.source = .mark m := by
  have hlt : k'.current + 1 < k'.stepCount := (List.getElem?_eq_some_iff.1 hb).1
  have hnext : (u.modJob p Job.next).job p = some k'.next := by
    rw [State.job_modJob, if_pos rfl, hk]
    rfl
  rw [State.completeStep_eq hk, if_pos hlt, State.stepCurrent_wait hnext hb hwait hsrc]
  exact ⟨hnext, _, List.mem_append_right _ (List.mem_singleton_self _), rfl, rfl⟩

/-- The MARK goes on to the next MARK, which completes the WAITs that listen for it. -/
theorem State.completeStep_to_mark {j' : Job} (hj : u.job i = some j') (hd : j'.steps[j'.current + 1]? = some d)
    (hmark : d.kind = .mark) (hm : d.x.toNat = m.val) {w : WaitEntry} (hw : w ∈ u.waitList) (hne : w.slot ≠ i)
    (hsrc : w.source = .mark m) : (u.completeStep i).slot w.slot = (u.slot w.slot).mapJob Job.engineStepDone := by
  have hlt : j'.current + 1 < j'.stepCount := (List.getElem?_eq_some_iff.1 hd).1
  have hnext : (u.modJob i Job.next).job i = some j'.next := by
    rw [State.job_modJob, if_pos rfl, hj]
    rfl
  rw [State.completeStep_eq hj, if_pos hlt, State.stepCurrent_mark hnext hd hmark hm, State.slot_modJob_eq,
    if_neg (Ne.symm hne), State.slot_occur, if_pos ⟨w, by simpa using hw, hsrc, rfl⟩, State.slot_modJob_eq,
    if_neg (Ne.symm hne)]

/-- What the path is about: `k` stands at a WAIT with another after it, `j` at a MARK with the awaited MARK after it. -/
structure MarkPair (p i : SlotNum) (k j : Job) (m : Fin 4) (a b c d : Step) : Prop where
  ne : p ≠ i
  first : k.step? = some a
  firstKind : a.kind = .wait
  second : k.steps[k.current + 1]? = some b
  secondKind : b.kind = .wait
  source : EventSource.ofCode b.x.toNat = some (.mark m)
  mark : j.step? = some c
  markKind : c.kind = .mark
  next : j.steps[j.current + 1]? = some d
  nextKind : d.kind = .mark
  code : d.x.toNat = m.val

theorem MarkPath.kept (hpair : MarkPair p i k j m a b c d) (hfatal : u.fatal = false) (hq : q ∈ u.nextSlots)
    (h : MarkPath p i k j m u) : MarkPath p i k j m (u.completeStep q) := by
  have hready := State.ready_of_next hq
  cases h with
  | past k' hk hdone =>
    obtain ⟨k'', hk'', hle⟩ := State.stepsDone_kept hfatal hq hk
    exact .past k'' hk'' (hdone.trans hle)
  | onward k' hk hover hdone =>
    by_cases hqp : p = q
    · subst hqp
      obtain ⟨k'', hk'', hle⟩ := State.stepsDone_completeStep hfatal hk (State.running_of_ready hready)
      exact .past k'' hk'' (by omega)
    · exact .onward k' (State.job_completeStep_ready hk hover hqp) hover hdone
  | first k' hk hover hsteps hcurrent hdone hmark =>
    have hstep : k'.step? = some a := by
      unfold Job.step?
      rw [hsteps, hcurrent]
      exact hpair.first
    by_cases hqp : p = q
    · subst hqp
      have hb : k'.steps[k'.current + 1]? = some b := by
        rw [hsteps, hcurrent]
        exact hpair.second
      obtain ⟨hnext, hwaits⟩ := State.completeStep_to_wait hk hb hpair.secondKind hpair.source
      exact .second _ hnext (Job.current_lt_of_stepOver hover).1 hsteps (congrArg (· + 1) hcurrent)
        (congrArg (· + 1) hdone) hwaits (hmark.kept hpair.ne.symm)
    · have hqi : i ≠ q := by
        rintro rfl
        have hat : u.atWait p = true := by
          unfold State.atWait
          rw [hk, Option.bind_some, hstep]
          exact decide_eq_true hpair.firstKind
        have hat' := State.nextSlots_wait hq (State.mem_readySlots.2 ⟨k', hk, hover⟩) hat
        obtain ⟨j', hj', -, hjsteps, hjcurrent⟩ := hmark
        have hjstep : j'.step? = some c := by
          unfold Job.step?
          rw [hjsteps, hjcurrent]
          exact hpair.mark
        unfold State.atWait at hat'
        rw [hj', Option.bind_some, hjstep] at hat'
        exact absurd ((of_decide_eq_true hat').symm.trans hpair.markKind) StepKind.noConfusion
      exact .first k' (State.job_completeStep_ready hk hover hqp) hover hsteps hcurrent hdone (hmark.kept hqi)
  | second k' hk hrun hsteps hcurrent hdone hwaits hmark =>
    obtain ⟨w, hw, hslot, hsrc⟩ := hwaits
    have hstep : k'.step? = some b := by
      unfold Job.step?
      rw [hsteps, hcurrent]
      exact hpair.second
    have hengine : b.kind.isEngine = true := by rw [hpair.secondKind]; rfl
    have hended (hdoneSlot : (u.completeStep q).slot p = (u.slot p).mapJob Job.engineStepDone) :
        MarkPath p i k j m (u.completeStep q) := by
      refine .onward k'.engineStepDone ?_ (Job.engineStepDone_over hstep hengine hrun) hdone.ge
      rw [State.job, hdoneSlot, State.slot_of_job hk]
      rfl
    by_cases hqp : p = q
    · subst hqp
      obtain ⟨k'', hk'', hle⟩ := State.stepsDone_completeStep hfatal hk (State.running_of_ready hready)
      exact .past k'' hk'' (by omega)
    by_cases hqi : i = q
    · subst hqi
      obtain ⟨j', hj', -, hjsteps, hjcurrent⟩ := hmark
      have hd : j'.steps[j'.current + 1]? = some d := by
        rw [hjsteps, hjcurrent]
        exact hpair.next
      have hlisten := State.completeStep_to_mark hj' hd hpair.nextKind hpair.code hw (by rw [hslot]; exact hpair.ne) hsrc
      rw [hslot] at hlisten
      exact hended hlisten
    · rcases State.mem_waitList_completeStep (q := q) hw (by rw [hslot]; exact hqp) with hstays | hlisten
      · rcases State.job_completeStep_ne hk hqp with hk' | hk'
        · exact .second k' hk' hrun hsteps hcurrent hdone ⟨w, hstays, hslot, hsrc⟩ (hmark.kept hqi)
        · exact .second k'.engineStepDone hk' hrun hsteps hcurrent hdone ⟨w, hstays, hslot, hsrc⟩ (hmark.kept hqi)
      · rw [hslot] at hlisten
        exact hended hlisten

/-- Both WAITs are over once no step is left to go on. -/
theorem MarkPath.ended (h : MarkPath p i k j m u) (hnone : u.readySlots = []) :
    ∃ k', u.job p = some k' ∧ k.stepsDone + 2 ≤ k'.stepsDone := by
  have hnot {x : SlotNum} (hx : x ∈ u.readySlots) : False := by
    rw [hnone] at hx
    cases hx
  cases h with
  | past k' hk hdone => exact ⟨k', hk, hdone⟩
  | onward k' hk hover _ => exact (hnot (State.mem_readySlots.2 ⟨k', hk, hover⟩)).elim
  | first k' hk hover _ _ _ _ => exact (hnot (State.mem_readySlots.2 ⟨k', hk, hover⟩)).elim
  | second _ _ _ _ _ _ _ hmark => exact (hnot hmark.ready).elim

theorem MarkPath.advance (hpair : MarkPair p i k j m a b c d) (hfatal : u.fatal = false) (h : MarkPath p i k j m u) {n : Nat}
    (hn : u.toGo ≤ n) : ∃ k', (State.advance n u).job p = some k' ∧ k.stepsDone + 2 ≤ k'.stepsDone := by
  have hpath := State.advance_induct (P := fun v => v.fatal = false ∧ MarkPath p i k j m v) (s := u)
    (fun v _ hv => ⟨hv.1, by
      cases hv.2 with
      | first k' h1 h2 h3 h4 h5 h6 => exact .first k' h1 h2 h3 h4 h5 h6
      | second k' h1 h2 h3 h4 h5 h6 h7 => exact .second k' h1 h2 h3 h4 h5 h6 h7
      | onward k' h1 h2 h3 => exact .onward k' h1 h2 h3
      | past k' h1 h2 => exact .past k' h1 h2⟩)
    (fun v q hv hq => ⟨(State.completeStep_frame v q (State.running_of_ready (State.ready_of_next hq))).fatal.trans hv.1,
      hv.2.kept hpair hv.1 hq⟩) n ⟨hfatal, h⟩
  exact hpath.2.ended (State.readySlots_advance hn)

end

end Sys2Proof.Machine
end

section
/-! JOB_ADMISSION: what it does to the admitted job, to the WAITs that its MARK completes, and to all else (R28, R62, R163,
R166, R167). -/

namespace Sys2Proof.Machine

/-! ## Which job is admitted (R28) -/

section
variable {s : State} {i : SlotNum} {j : Job} (hrun : s.engine = .running) (hj : s.job i = some j) (hq : j.phase = .queued)
include hrun hj hq

theorem State.admissible_iff : s.admissible i = true ↔ ∀ k m, s.job k = some m → m.chain = j.chain → m.order < j.order →
    m.phase.isRetiring = false → m.tiles &&& j.tiles = 0 := by
  have hblocked (m : Job) : (!j.blockedBy m) = true ↔ (m.chain = j.chain → m.order < j.order →
      m.phase.isRetiring = false → m.tiles &&& j.tiles = 0) := by
    unfold Job.blockedBy
    simp only [Bool.not_eq_true', Bool.and_eq_false_iff, decide_eq_false_iff_not, Bool.not_eq_false', not_not]
    rw [← Bool.not_eq_false]
    tauto
  unfold State.admissible State.inRunning
  rw [hj]
  dsimp only
  rw [hrun, hq, decide_eq_true rfl]
  simp only [Phase.isQueued, Bool.true_and]
  rw [List.all_eq_true]
  constructor
  · intro h k m hm
    have hk := h k (mem_allSlots k)
    rw [hm] at hk
    exact (hblocked m).1 hk
  · intro h k _
    split
    · next m hm => exact (hblocked m).2 (h k m hm)
    · rfl

theorem jobAdmissionEffect_of (h : ∀ k m, s.job k = some m → m.chain = j.chain → m.order < j.order →
    m.phase.isRetiring = false → m.tiles &&& j.tiles = 0) : jobAdmissionEffect i s = finish s (s.admitJob i) :=
  if_pos ((State.admissible_iff hrun hj hq).2 h)

theorem jobAdmissionEffect_blocked (h : ∃ k m, s.job k = some m ∧ m.chain = j.chain ∧ m.order < j.order ∧
    m.phase.isRetiring = false ∧ m.tiles &&& j.tiles ≠ 0) : jobAdmissionEffect i s = s := by
  obtain ⟨k, m, hm, hchain, horder, hphase, htiles⟩ := h
  exact if_neg fun hadm => htiles ((State.admissible_iff hrun hj hq).1 hadm k m hm hchain horder hphase)

end

/-! ## A step of the engine -/

theorem Job.engineStepDone_of_at {j : Job} (h : j.atEngineStep = true) : j.engineStepDone = { j with engineDone := true } := by
  unfold Job.engineStepDone
  rw [h, Bool.or_true]

namespace Admitting

variable {s : State} {i : SlotNum} {j : Job} {st : Step} (h : Admitting s i j st)
include h

theorem job_finish_of_not_over {m : Job} (hothers : ∀ k, k ≠ i → (s.admitJob i).slot k = s.slot k)
    (hm : (s.admitJob i).job i = some m) (hover : m.stepOver = false) :
    (finish s (s.admitJob i)).job i = some m ∧ ∀ k, k ≠ i → (finish s (s.admitJob i)).slot k = s.slot k := by
  obtain ⟨hslots, -, -⟩ := h.finish_of_not_over hothers hm hover
  exact ⟨(State.job_of_slots hslots i).trans hm, fun k hk => (State.slot_of_slots hslots k).trans (hothers k hk)⟩

theorem stepOver_admitted (hengine : st.kind.isEngine = true) {due : Option Word} :
    ({ j.admitted s.now with pauseDue := due } : Job).stepOver = false :=
  (Job.stepOver_engine (j := { j.admitted s.now with pauseDue := due }) h.step hengine rfl).trans h.engineDone

/-- The WAIT joins the list (R163). -/
theorem wait (hkind : st.kind = .wait) {src : EventSource} (hsrc : EventSource.ofCode st.x.toNat = some src) :
    (finish s (s.admitJob i)).waitList = s.waitList ++ [⟨i, src, plusMs s.now (st.y.toNat % 2 ^ 16)⟩] ∧
      (finish s (s.admitJob i)).job i = some (j.admitted s.now) ∧
      ∀ k, k ≠ i → (finish s (s.admitJob i)).slot k = s.slot k := by
  have heq : s.admitJob i = { s.started i with
      waitList := (s.started i).waitList ++ [⟨i, src, plusMs (s.started i).now (st.y.toNat % 2 ^ 16)⟩] } :=
    State.stepCurrent_wait h.started h.started_step hkind hsrc
  have hjob : (s.admitJob i).job i = some (j.admitted s.now) := by
    rw [heq]
    exact h.started
  have hothers (k : SlotNum) (hk : k ≠ i) : (s.admitJob i).slot k = s.slot k := by
    rw [heq]
    exact s.slot_started hk
  have hover := h.stepOver_admitted (by rw [hkind]; rfl) (due := (j.admitted s.now).pauseDue)
  obtain ⟨-, hwait, -⟩ := h.finish_of_not_over hothers hjob hover
  refine ⟨?_, h.job_finish_of_not_over hothers hjob hover⟩
  have hlist : (s.started i).waitList = s.waitList := by simp [State.started]
  have hnow : (s.started i).now = s.now := by simp [State.started]
  rw [hwait, heq]
  dsimp only
  rw [hlist, hnow]

/-- The PAUSE is timed (R166). -/
theorem pause (hkind : st.kind = .pause) :
    (finish s (s.admitJob i)).job i =
        some { j.admitted s.now with pauseDue := some (plusMs s.now (st.x.toNat % 2 ^ 16)) } ∧
      (∀ k, k ≠ i → (finish s (s.admitJob i)).slot k = s.slot k) ∧ (finish s (s.admitJob i)).waitList = s.waitList := by
  have hnow : (s.started i).now = s.now := by simp [State.started]
  have heq : s.admitJob i = (s.started i).modJob i fun j =>
      { j with pauseDue := some (plusMs s.now (st.x.toNat % 2 ^ 16)) } := by
    rw [← hnow]
    exact State.stepCurrent_pause h.started h.started_step hkind
  have hjob : (s.admitJob i).job i =
      some { j.admitted s.now with pauseDue := some (plusMs s.now (st.x.toNat % 2 ^ 16)) } := by
    rw [heq, State.job_modJob, if_pos rfl, h.started]
    rfl
  have hothers (k : SlotNum) (hk : k ≠ i) : (s.admitJob i).slot k = s.slot k := by
    rw [heq, State.slot_modJob_eq, if_neg (Ne.symm hk), s.slot_started hk]
  have hover := h.stepOver_admitted (by rw [hkind]; rfl) (due := some (plusMs s.now (st.x.toNat % 2 ^ 16)))
  obtain ⟨-, hwait, -⟩ := h.finish_of_not_over hothers hjob hover
  obtain ⟨hfinal, hstay⟩ := h.job_finish_of_not_over hothers hjob hover
  refine ⟨hfinal, hstay, ?_⟩
  rw [hwait, heq]
  simp [State.started]

/-! ### A step with tile parts -/

section
variable (hengine : st.kind.isEngine = false)
include hengine

theorem tile_finish {m : Job} (hm : (s.admitJob i).job i = some m) (hover : m.stepOver = false) (x : TileNum) :
    ((finish s (s.admitJob i)).tile x).armed = ((s.admitJob i).tile x).armed ∧
      ((finish s (s.admitJob i)).tile x).lastError = ((s.admitJob i).tile x).lastError := by
  obtain ⟨-, -, htile⟩ := h.finish_of_not_over (fun k hk => h.others hengine hk) hm hover
  rw [htile]
  exact State.closedEntry_armed _ x _

theorem entered (hnone : s.failuresAtEntry st = []) (hparts : s.partsAtEntry st ≠ []) :
    (finish s (s.admitJob i)).job i = some { j.admitted s.now with parts := s.partsAtEntry st } ∧
      (∀ k, k ≠ i → (finish s (s.admitJob i)).slot k = s.slot k) ∧
      ∀ q ∈ s.partsAtEntry st, ((finish s (s.admitJob i)).tile q.tile).armed = false := by
  have hjob := h.job_no_failure hengine hnone
  have hover := Job.not_over_of_parts (j := { j.admitted s.now with parts := s.partsAtEntry st }) h.step hengine hparts
  obtain ⟨hfinal, hstay⟩ := h.job_finish_of_not_over (fun k hk => h.others hengine hk) hjob hover
  exact ⟨hfinal, hstay, fun q hq => (h.tile_finish hengine hjob hover q.tile).1.trans (h.disarms hengine hq)⟩

theorem failed {f : TileNum × ErrorCode} {rest : List (TileNum × ErrorCode)} (hfail : s.failuresAtEntry st = f :: rest)
    (htol : st.tolerant = false) :
    ∃ j', (finish s (s.admitJob i)).job i = some j' ∧ j'.phase = .draining ∧
      j'.firstFailure = some ⟨f.2, j.current, some f.1⟩ ∧ j'.stepsDone = j.stepsDone ∧
      (∀ k, k ≠ i → (finish s (s.admitJob i)).slot k = s.slot k) ∧
      (∀ g ∈ s.failuresAtEntry st, ((finish s (s.admitJob i)).tile g.1).lastError =
        if g.2 = .noTile then (s.tile g.1).lastError else some g.2) ∧
      j'.parts = ((s.partsAtEntry st).filter fun q => decide (q.cond = .candidate)).map
        fun q => ⟨q.tile, .withdrawn, .empty⟩ := by
  obtain ⟨j', hjob, hphase, hfirst, hdone, hparts⟩ := h.job_failed hengine hfail htol
  have hover : j'.stepOver = false := (Job.stepOver_of_not_running (by rw [hphase]; exact Phase.noConfusion)).1
  obtain ⟨hfinal, hstay⟩ := h.job_finish_of_not_over (fun k hk => h.others hengine hk) hjob hover
  exact ⟨j', hfinal, hphase, hfirst, hdone, hstay,
    fun g hg => (h.tile_finish hengine hjob hover g.1).2.trans (h.errors hengine hg), hparts⟩

theorem tolerated (hfail : s.failuresAtEntry st ≠ []) (htol : st.tolerant = true) (hparts : s.partsAtEntry st ≠ []) :
    (finish s (s.admitJob i)).job i = some { j.admitted s.now with
        parts := s.partsAtEntry st, tolerated := min 255 (j.tolerated + (s.failuresAtEntry st).length) } ∧
      (∀ k, k ≠ i → (finish s (s.admitJob i)).slot k = s.slot k) ∧
      ∀ g ∈ s.failuresAtEntry st, ((finish s (s.admitJob i)).tile g.1).lastError =
        if g.2 = .noTile then (s.tile g.1).lastError else some g.2 := by
  have hjob := h.job_tolerated hengine hfail htol
  have hover := Job.not_over_of_parts (j := { j.admitted s.now with
    parts := s.partsAtEntry st, tolerated := min 255 (j.tolerated + (s.failuresAtEntry st).length) }) h.step hengine hparts
  obtain ⟨hfinal, hstay⟩ := h.job_finish_of_not_over (fun k hk => h.others hengine hk) hjob hover
  exact ⟨hfinal, hstay, fun g hg => (h.tile_finish hengine hjob hover g.1).2.trans (h.errors hengine hg)⟩

end

/-- The admitted job goes on where its step is over at once (R37). -/
theorem goesOn {m : Job} (hm : (s.admitJob i).job i = some m) (hover : m.stepOver = true) :
    ∃ j', (finish s (s.admitJob i)).job i = some j' ∧ m.stepsDone < j'.stepsDone ∧
      (j'.phase = .running → m.current < j'.current) ∧ min 255 m.tolerated ≤ min 255 j'.tolerated := by
  have hfatal : (s.admitJob i).fatal = false :=
    (admitJob_frame s i).fatal.trans ((s.fatal_modJob i _).trans h.fatal)
  obtain ⟨j', hj', hahead, hlater⟩ := job_finish_of_over (before := s) hfatal (by rwa [h.resolved_eq]) hover
  exact ⟨j', hj', hahead.stepsDone, fun hrun => hlater (by rw [hrun]; rfl), hahead.tolerated⟩

theorem completes (hengine : st.kind.isEngine = false) (hcase : s.failuresAtEntry st = [] ∨ st.tolerant = true)
    (hparts : s.partsAtEntry st = []) :
    ∃ j', (finish s (s.admitJob i)).job i = some j' ∧ j.stepsDone < j'.stepsDone ∧
      (j'.phase = .running → j.current < j'.current) ∧
      (s.failuresAtEntry st ≠ [] → min 255 (j.tolerated + (s.failuresAtEntry st).length) ≤ j'.tolerated) := by
  by_cases hnone : s.failuresAtEntry st = []
  · have hjob := h.job_no_failure hengine hnone
    have hover := Job.over_of_no_parts (j := { j.admitted s.now with parts := s.partsAtEntry st }) h.step hengine hparts rfl
    obtain ⟨j', hj', hdone, hcurrent, -⟩ := h.goesOn hjob hover
    exact ⟨j', hj', hdone, hcurrent, fun hne => absurd hnone hne⟩
  · have hjob := h.job_tolerated hengine hnone (hcase.resolve_left hnone)
    have hover := Job.over_of_no_parts (j := { j.admitted s.now with
      parts := s.partsAtEntry st, tolerated := min 255 (j.tolerated + (s.failuresAtEntry st).length) }) h.step hengine
      hparts rfl
    obtain ⟨j', hj', hdone, hcurrent, htolerated⟩ := h.goesOn hjob hover
    refine ⟨j', hj', hdone, hcurrent, fun _ => ?_⟩
    have hle : min 255 (min 255 (j.tolerated + (s.failuresAtEntry st).length)) ≤ min 255 j'.tolerated := htolerated
    omega

/-! ### A MARK -/

section
variable (hkind : st.kind = .mark) {n : Fin 4} (hn : st.x.toNat = n.val)
include hkind hn

theorem admit_mark : s.admitJob i = ((s.started i).occur (.mark n)).modJob i Job.engineStepDone :=
  State.stepCurrent_mark h.started h.started_step hkind hn

theorem job_mark : (s.admitJob i).job i = some { j.admitted s.now with engineDone := true } := by
  have hat : (j.admitted s.now).atEngineStep = true := by
    unfold Job.atEngineStep
    rw [h.started_step]
    dsimp only
    rw [hkind]
    rfl
  rw [h.admit_mark hkind hn, State.job_modJob, if_pos rfl, State.job_occur _ _ h.started]
  exact congrArg some (Job.engineStepDone_of_at (j := { j.admitted s.now with engineDone := _ }) hat)

theorem slot_mark {k : SlotNum} (hk : k ≠ i) : (s.admitJob i).slot k =
    if ∃ w ∈ s.waitList, w.source = .mark n ∧ w.slot = k then (s.slot k).mapJob Job.engineStepDone else s.slot k := by
  have hlist : (s.started i).waitList = s.waitList := by simp [State.started]
  rw [h.admit_mark hkind hn, State.slot_modJob_eq, if_neg (Ne.symm hk), State.slot_occur, hlist, s.slot_started hk]

theorem mem_waitList_mark {w : WaitEntry} (hw : w ∈ (s.admitJob i).waitList) : w ∈ s.waitList := by
  rw [h.admit_mark hkind hn] at hw
  simp only [State.modJob_fields, State.waitList_occur, State.started] at hw
  exact (List.mem_filter.1 hw).1

theorem mark_goesOn : ∃ j', (finish s (s.admitJob i)).job i = some j' ∧ j.stepsDone < j'.stepsDone ∧
    (j'.phase = .running → j.current < j'.current) := by
  have hover : ({ j.admitted s.now with engineDone := true } : Job).stepOver = true :=
    Job.stepOver_engine (j := { j.admitted s.now with engineDone := true }) h.step (by rw [hkind]; rfl) rfl
  obtain ⟨j', hj', hdone, hcurrent, -⟩ := h.goesOn (h.job_mark hkind hn) hover
  exact ⟨j', hj', hdone, hcurrent⟩

/-- A WAIT that listens is over with the occurrence. -/
theorem wait_over {w : WaitEntry} (hw : w ∈ s.waitList) (hsrc : w.source = .mark n) {k : Job} (hk : s.job w.slot = some k)
    (hrun : k.phase = .running) {a : Step} (ha : k.step? = some a) (hwait : a.kind = .wait) :
    w.slot ≠ i ∧ (s.admitJob i).job w.slot = some k.engineStepDone ∧ k.engineStepDone.stepOver = true := by
  have hne : w.slot ≠ i := fun e => by
    rw [e, h.job] at hk
    cases hk
    rw [h.queued] at hrun
    cases hrun
  refine ⟨hne, ?_, Job.engineStepDone_over ha (by rw [hwait]; rfl) (by rw [hrun]; rfl)⟩
  rw [State.job, h.slot_mark hkind hn hne, if_pos ⟨w, hw, hsrc, rfl⟩, State.slot_of_job hk]
  rfl

theorem waitsCompleted : WaitsCompleted s (finish s (s.admitJob i)) (.mark n) := by
  intro w hw hsrc k hk a ha hrun hwait
  obtain ⟨-, hjob, hover⟩ := h.wait_over hkind hn hw hsrc hk hrun ha hwait
  have hfatal : (s.admitJob i).fatal = false :=
    (admitJob_frame s i).fatal.trans ((s.fatal_modJob i _).trans h.fatal)
  obtain ⟨k', hk', hahead, hlater⟩ := job_finish_of_over (before := s) hfatal (by rwa [h.resolved_eq]) hover
  exact ⟨k', hk', hahead.stepsDone, fun hrun => hlater (by rw [hrun]; rfl)⟩

theorem mark_stays {k : SlotNum} (hk : k ≠ i) (hnone : ∀ w ∈ s.waitList, w.slot ≠ k) :
    (finish s (s.admitJob i)).slot k = s.slot k := by
  have hslot : (s.admitJob i).slot k = s.slot k := by
    rw [h.slot_mark hkind hn hk, if_neg]
    rintro ⟨w, hw, -, e⟩
    exact hnone w hw e
  rw [← hslot, slot_finish_of_not_over (before := s) (s := s.admitJob i) (k := k) ?_ (.inl fun w hw =>
    hnone w (h.mem_waitList_mark hkind hn hw)), h.resolved_eq]
  intro m hm
  rw [h.resolved_eq, State.job_of_slot hslot] at hm
  exact h.not_ready hm

theorem mark_syncs : (s.settings.sync0 = some (.mark n) → (finish s (s.admitJob i)).sync0 = true) ∧
    (s.settings.sync1 = some (.mark n) → (finish s (s.admitJob i)).sync1 = true) := by
  have hf : EventFrame (s.admitJob i) (finish s (s.admitJob i)) := finish_frame _ _
  obtain ⟨hsync0, hsync1⟩ := State.sync_occur (s.started i) (.mark n)
  have hengine : (s.started i).engine = .running := by
    rw [State.started, State.engine_of_fixed (State.fixed_modJob s i _), h.running]
  have hsettings : (s.started i).settings = s.settings := by
    rw [State.started, State.settings_of_fixed (State.fixed_modJob s i _)]
  rw [hengine, hsettings] at hsync0 hsync1
  have heq := h.admit_mark hkind hn
  generalize (s.started i).occur (.mark n) = v at hsync0 hsync1 heq
  refine ⟨fun hsel => hf.sync0 ?_, fun hsel => hf.sync1 ?_⟩
  · rw [heq]
    simp only [State.modJob_fields, hsync0, hsel]
    simp
  · rw [heq]
    simp only [State.modJob_fields, hsync1, hsel]
    simp

/-- The next WAIT has the next MARK too (R161, R167). -/
theorem mark_next {w : WaitEntry} (hw : w ∈ s.waitList) (hsrc : w.source = .mark n) {k : Job} (hk : s.job w.slot = some k)
    (hrun : k.phase = .running) {m : Fin 4} {a b c : Step} (ha : k.step? = some a) (hwait : a.kind = .wait)
    (hb : k.steps[k.current + 1]? = some b) (hwait' : b.kind = .wait)
    (hof : EventSource.ofCode b.x.toNat = some (.mark m)) (hc : j.steps[j.current + 1]? = some c) (hmark : c.kind = .mark)
    (hcode : c.x.toNat = m.val) :
    ∃ k', (finish s (s.admitJob i)).job w.slot = some k' ∧ k.stepsDone + 2 ≤ k'.stepsDone := by
  obtain ⟨hne, hjob, hover⟩ := h.wait_over hkind hn hw hsrc hk hrun ha hwait
  have hslots := (s.admitJob i).slots_closeStreams
  have hfatal : (s.admitJob i).closeStreams.fatal = false :=
    (State.closeStreams_frame _).fatal.trans ((admitJob_frame s i).fatal.trans ((s.fatal_modJob i _).trans h.fatal))
  have hmarked := h.job_mark hkind hn
  have hmover : ({ j.admitted s.now with engineDone := true } : Job).stepOver = true :=
    Job.stepOver_engine (j := { j.admitted s.now with engineDone := true }) h.step (by rw [hkind]; rfl) rfl
  have hpair : MarkPair w.slot i k j m a b st c := ⟨hne, ha, hwait, hb, hwait', hof, h.step, hkind, hc, hmark, hcode⟩
  have hpath : MarkPath w.slot i k j m (s.admitJob i).closeStreams :=
    .first k.engineStepDone ((State.job_of_slots hslots _).trans hjob) hover rfl rfl rfl
      ⟨_, (State.job_of_slots hslots i).trans hmarked, hmover, rfl, rfl⟩
  obtain ⟨k', hk', hdone⟩ := hpath.advance hpair hfatal (State.toGo_le_stepsLeft _)
  refine ⟨k', ?_, hdone⟩
  rw [finish, State.job_of_slots (slots_commit _ _), settle_eq, h.resolved_eq]
  exact hk'

end

end Admitting

/-- Settles O32. -/
theorem jobsAdmitted : Obligations.JobsAdmitted := by
  unfold Obligations.JobsAdmitted
  intro s i j hlow hrun hj hqueued
  have hexec : exec (.jobAdmission i) s = .next (jobAdmissionEffect i s) := exec_of_high hlow rfl
  refine ⟨fun hfree => ?_, fun hblocked => ?_⟩
  swap
  · rw [hexec, jobAdmissionEffect_blocked hrun hj hqueued hblocked]
  rw [jobAdmissionEffect_of hrun hj hqueued hfree] at hexec
  have hframe : EventFrame (s.admitJob i) (finish s (s.admitJob i)) := finish_frame _ _
  have hfixed : (s.admitJob i).fixed = s.fixed := State.fixed_admitJob s i
  have hfatal : s.fatal = false := by
    unfold State.fatal
    rw [hrun]
    rfl
  refine ⟨_, hexec, hframe, ?_, ?_, ?_, ?_, ?_, fun x => ?_, fun hq hparts hin st hst => ?_⟩
  · exact funext fun p => (hframe.port p).trans (State.port_of_fixed hfixed p)
  · exact hframe.engine.trans ((State.engine_of_fixed hfixed).trans hrun)
  · exact hframe.walkerN.trans (s.walker_admitJob i .normal)
  · exact hframe.walkerP.trans (s.walker_admitJob i .priority)
  · have hfatal' : (s.admitJob i).fatal = false := (State.fatal_of_fixed hfixed).trans hfatal
    obtain ⟨k, hk, -, hidn⟩ := State.job_admitJob hfatal hj
    obtain ⟨j', hj', hidn'⟩ := hframe.taken hfatal' hk
    have hsame := hidn'.trans hidn
    exact ⟨j', hj', (congrArg Job.startedAt hsame :), (congrArg Job.addr hsame :), (congrArg Job.steps hsame :),
      (congrArg Job.order hsame :)⟩
  · have htile := (hframe.tile x).trans ((admitJob_frame s i).tile x)
    rwa [s.tile_started] at htile
  · have h : Admitting s i j st := ⟨hq, hrun, hj, hqueued, hparts, hin, hst⟩
    refine ⟨fun hengine => ⟨fun hnone hne => h.entered hengine hnone hne, fun f rest hfail htol => ?_,
      fun hfail htol hne => ?_, fun hcase hnone => h.completes hengine hcase hnone⟩,
      fun hkind src hsrc => h.wait hkind hsrc, fun hkind => h.pause hkind, fun hkind n hn => ⟨h.mark_goesOn hkind hn,
        h.waitsCompleted hkind hn, ?_, (h.mark_syncs hkind hn).1, (h.mark_syncs hkind hn).2,
        fun k hk hnone => h.mark_stays hkind hn hk hnone⟩⟩
    · exact h.failed hengine hfail htol
    · exact h.tolerated hengine hfail htol hne
    · intro w hw hsrc k hk hkrun m a b c ha hwait hb hwait' hof hc hmark hcode
      exact h.mark_next hkind hn hw hsrc hk hkrun ha hwait hb hwait' hof hc hmark hcode

end Sys2Proof.Machine
end
